-- ==== Sys2Proof/Word.lean ====
section
/-!
DEFINITION. The machine's words, and the shape in which sparse storage is kept.
Rules: R11 and R13 (32-bit instruction words), R44 (32-bit lane elements), R50 (64-bit pairs).
-/
namespace Sys2Proof

/-- A 32-bit register element, CSR value or instruction word (R13, R44). -/
abbrev Word := BitVec 32

/-- The unit of every address space (R11). -/
abbrev Byte := BitVec 8

/-- A 64-bit quantity: a register pair (R50), a pointer (R6). -/
abbrev DWord := BitVec 64

/-- One bit per lane of a weft; bit l stands for lane l (R44). -/
abbrev Mask := BitVec 32

/-- Sparse storage: keys strictly rising, one value a key. -/
abbrev Tab (α : Type) := List (Nat × α)

/-- One value per lane, lane 0 first; 32 of them in a well-formed state (R44). -/
abbrev Lanes := List Word

end Sys2Proof
end

