-- ==== Sys2Proof/Syntax.lean ====
section
/-!
DEFINITION. The instruction set as syntax: one constructor of `Instr` for each row of
spec/opcode_table.json. Operands are resolved from their codes (R23) and literals stand inside
them (R26), so the machine never sees a raw encoding. The last 97 constructors are the rows
without an encoding: the events of the device, each with the unit it falls on and with whatever
its outcome takes from outside the device.
-/
namespace Sys2Proof

/-- Special sources, codes 112 to 125 of R23. -/
inductive Special
  | z | lid | wid | nwf | swi | boi | bai | amask | clk | tim | targ | lrec | ctx | stp
  deriving DecidableEq, Repr

/-- A source operand: window-relative register, special or literal (R23, R26). -/
inductive Src
  | v (n : Fin 64)
  | s (n : Fin 48)
  | sp (x : Special)
  | lit (w : Word)
  deriving DecidableEq, Repr

/-- A destination code: vector or scalar register, never a special (R24). -/
inductive Dst
  | v (n : Fin 64)
  | s (n : Fin 48)
  deriving DecidableEq, Repr

/-- A source code in a field that never takes a literal (BRX, BRZ, CSRW: R127, R136). -/
inductive CSrc
  | v (n : Fin 64)
  | s (n : Fin 48)
  | sp (x : Special)
  deriving DecidableEq, Repr

/-- A predicate register p0 to p7. -/
abbrev PReg := Fin 8

/-- A vector register code in the c field of CALL (R127). -/
abbrev VReg := Fin 64

/-- The c field of BRA (R126, R127). -/
inductive BraCond
  | always
  | pred (inv : Bool) (n : PReg)
  deriving DecidableEq, Repr

/-- The m field of EXIT (R130). -/
inductive ExitCond
  | always
  | pred (n : PReg)
  deriving DecidableEq, Repr

/-- Integer comparison conditions (R80). -/
inductive Cond
  | eq | ne | lt | le | gt | ge | ltu | leu | gtu | geu
  deriving DecidableEq, Repr

/-- Floating-point comparison conditions (R90). -/
inductive FCond
  | eq | ne | lt | le | gt | ge | unord | ord
  deriving DecidableEq, Repr

/-- Element types of opcodes 0x30 to 0x36 (R29). -/
inductive FType
  | f32 | f16x2 | bf16x2 | f64
  deriving DecidableEq, Repr

/-- Rounding modes (R29, R56). -/
inductive RMode
  | rn | rz | rd | ru
  deriving DecidableEq, Repr

/-- Conversion codes of FCVT, named destination then source (R91). -/
inductive Conv
  | f64F32 | f32F64 | f16x2F32x2 | bf16x2F32x2 | f32x2F16x2 | f32x2Bf16x2
  | e4m3x4F32x4 | e5m2x4F32x4 | f32x4E4m3x4 | f32x4E5m2x4
  | e2m1x4loF32x4 | e2m1x4hiF32x4 | f32x4E2m1x4lo | f32x4E2m1x4hi
  | i32F32 | u32F32 | i64F32 | u64F32 | i32F64 | u32F64 | i64F64 | u64F64
  | f32I32 | f32U32 | f32I64 | f32U64 | f64I32 | f64U32 | f64I64 | f64U64
  | f16x4E4m3x4 | f16x4E5m2x4 | f16x4E2m1x4lo | f16x4E2m1x4hi
  | e4m3x4E2m1x4lo | e5m2x4E2m1x4lo | e4m3x4E2m1x4hi | e5m2x4E2m1x4hi
  | f64x2F16x2 | f64x2Bf16x2 | f16x2I32x2 | f16x2U32x2
  deriving DecidableEq, Repr

/-- Modes of SHFL (R140). -/
inductive ShflMode
  | idx | up | down | xor
  deriving DecidableEq, Repr

/-- Operations of SCAN and REDW (R142). -/
inductive ScanOp
  | addI32 | addF32 | maxI32 | or
  deriving DecidableEq, Repr

/-- Modes of ACCLD (R224). -/
inductive AccldMode
  | f32 | bf16 | desc
  deriving DecidableEq, Repr

/-- Widths of LD and ST (R148). -/
inductive MemW
  | b8 | b16 | b32 | b64
  deriving DecidableEq, Repr

/-- Widths of LDACQ and STREL: codes 2 and 3 only (R267). -/
inductive AcqW
  | b32 | b64
  deriving DecidableEq, Repr

/-- Scope codes 0 to 6 (R4). -/
inductive Scope
  | wf | sw | bo | ba | pk | rl | sy
  deriving DecidableEq, Repr

/-- Scopes of the BAR family (R196). -/
inductive BarScope
  | sw | bo | ba | rl
  deriving DecidableEq, Repr

/-- Operations of ATOM and RED (R268). -/
inductive AtomOp
  | add | min | max | minu | maxu | and | or | xor | exch | fadd | fmin | fmax
  deriving DecidableEq, Repr

/-- Operations of ATOMS (R185). -/
inductive AtomsOp
  | add | min | max | minu | maxu | and | or | xor | exch | fadd | fmin | fmax | cas
  deriving DecidableEq, Repr

/-- Ordering field of ATOM and CAS (R268). -/
inductive Ord
  | rlx | acq | rel | ar
  deriving DecidableEq, Repr

/-- Kinds of FENCE (R271). -/
inductive FenceK
  | ar | acq | rel
  deriving DecidableEq, Repr

/-- The mode field of LDS (1 .full, 2 .take) and of STS (1 .fill, 2 .empty) (R183). -/
inductive FeMode
  | none | one | two | both
  deriving DecidableEq, Repr

/-- Widths of LDS and STS (R183). -/
inductive SpadW
  | b32 | b64 | b128
  deriving DecidableEq, Repr

/-- A message of the fabric (R391): header fields and body. -/
structure Msg where
  dpkg : Nat
  ddie : Nat
  dh : Bool
  spkg : Nat
  sdie : Nat
  sh : Bool
  mkind : Nat
  txn : Nat
  addr : Nat
  body : List Byte
  deriving DecidableEq, Repr

/-- Units that fencing takes out of service (R384). -/
inductive FenceUnit
  | core (n : Nat)
  | cluster (n : Nat)
  | memLink (die link : Nat)
  | port (n : Nat)
  | d2d (pair : Nat)
  deriving DecidableEq, Repr

/-- What the other members of a collective report in its prepare phase (R401); `waiting` while some have not. -/
inductive MemberVerdict
  | waiting
  | sound
  | unreachable
  | aborted
  | digestsDiffer
  deriving DecidableEq, Repr

/-- What a start meets on its way: links and ports that train, units that fail (R381 to R383, R390). -/
structure StartReport where
  signatureBad : Option Nat
  flashError : Option Nat
  watchdog : Option Nat
  links : List (Nat × Nat × Nat)
  linkFail : Option (Nat × Nat)
  dieFail : Option Nat
  d2dFail : Option Nat
  ports : List (Nat × Nat)
  portFail : Option Nat
  pkg : Nat
  routes : Tab (List Nat)
  deriving DecidableEq, Repr

/-- One constructor for each row of the opcode table: the encoded rows in the table's order but for
NOP, which stands last, then the events, those that the machine itself raises first. -/
inductive Instr
  /-- BRA (R126). -/
  | bra (c : BraCond) (k : BitVec 18)
  /-- BRX (R126). -/
  | brx (c : CSrc) (k : BitVec 18)
  /-- BRZ (R126). -/
  | brz (c : CSrc) (k : BitVec 18)
  /-- CALL (R128). -/
  | call (c : VReg) (k : BitVec 18)
  /-- JMPI (R129). -/
  | jmpi (a : Src)
  /-- EXIT (R130). -/
  | exit (c : ExitCond)
  /-- YIELD (R131). -/
  | yield
  /-- WINB (R25). -/
  | winb (s : BitVec 4) (v : BitVec 4)
  /-- IPREF (R132). -/
  | ipref (c : BitVec 7) (k : BitVec 18)
  /-- TRAP (R133). -/
  | trap (n : BitVec 8)
  /-- ELECT (R134). -/
  | elect (p : PReg)
  /-- CSRR (R135). -/
  | csrr (d : Dst) (c : BitVec 12)
  /-- CSRW (R136). -/
  | csrw (d : CSrc) (c : BitVec 12)
  /-- ERET (R119). -/
  | eret
  /-- IADD (R75). -/
  | iadd (d : Dst) (a : Src) (b : Src) (s : Bool) (u : Bool) (w : Bool)
  /-- ISUB (R75). -/
  | isub (d : Dst) (a : Src) (b : Src) (s : Bool) (u : Bool) (w : Bool)
  /-- IMUL (R75). -/
  | imul (d : Dst) (a : Src) (b : Src) (s : Bool) (u : Bool) (w : Bool)
  /-- IMULH (R75). -/
  | imulh (d : Dst) (a : Src) (b : Src) (u : Bool) (w : Bool)
  /-- IMAD (R75). -/
  | imad (d : Dst) (a : Src) (b : Src) (s : Bool) (u : Bool) (w : Bool)
  /-- IMIN (R75). -/
  | imin (d : Dst) (a : Src) (b : Src) (u : Bool) (w : Bool)
  /-- IMAX (R75). -/
  | imax (d : Dst) (a : Src) (b : Src) (u : Bool) (w : Bool)
  /-- IABS (R76). -/
  | iabs (d : Dst) (a : Src) (s : Bool) (w : Bool)
  /-- INEG (R76). -/
  | ineg (d : Dst) (a : Src) (s : Bool) (w : Bool)
  /-- NOT (R76). -/
  | not (d : Dst) (a : Src) (w : Bool)
  /-- POPC (R76). -/
  | popc (d : Dst) (a : Src)
  /-- CLZ (R76). -/
  | clz (d : Dst) (a : Src)
  /-- BREV (R76). -/
  | brev (d : Dst) (a : Src)
  /-- SXB (R76). -/
  | sxb (d : Dst) (a : Src)
  /-- SXH (R76). -/
  | sxh (d : Dst) (a : Src)
  /-- ZXB (R76). -/
  | zxb (d : Dst) (a : Src)
  /-- ZXH (R76). -/
  | zxh (d : Dst) (a : Src)
  /-- FFS (R76). -/
  | ffs (d : Dst) (a : Src)
  /-- AND (R77). -/
  | and (d : Dst) (a : Src) (b : Src) (w : Bool)
  /-- OR (R77). -/
  | or (d : Dst) (a : Src) (b : Src) (w : Bool)
  /-- XOR (R77). -/
  | xor (d : Dst) (a : Src) (b : Src) (w : Bool)
  /-- ANDN (R77). -/
  | andn (d : Dst) (a : Src) (b : Src) (w : Bool)
  /-- SHL (R77). -/
  | shl (d : Dst) (a : Src) (b : Src) (w : Bool)
  /-- SHR (R77). -/
  | shr (d : Dst) (a : Src) (b : Src) (w : Bool)
  /-- SRA (R77). -/
  | sra (d : Dst) (a : Src) (b : Src) (w : Bool)
  /-- ROL (R77). -/
  | rol (d : Dst) (a : Src) (b : Src) (w : Bool)
  /-- BFX (R78). -/
  | bfx (d : Dst) (a : Src) (b : Src) (u : Bool)
  /-- BFI (R78). -/
  | bfi (d : Dst) (a : Src) (b : Src)
  /-- ICMP (R80). -/
  | icmp (p : PReg) (a : Src) (b : Src) (c : Cond)
  /-- SEL (R81). -/
  | sel (d : Dst) (a : Src) (b : Src) (i : Bool) (p : PReg)
  /-- LEA (R82). -/
  | lea (d : Dst) (a : Src) (b : Src) (l : Bool) (s : BitVec 2)
  /-- MOV (R83). -/
  | mov (d : Dst) (a : Src) (w : Bool)
  /-- IADDI (R79). -/
  | iaddi (d : Dst) (a : Src) (k : BitVec 11)
  /-- ANDI (R79). -/
  | andi (d : Dst) (a : Src) (k : BitVec 11)
  /-- ORI (R79). -/
  | ori (d : Dst) (a : Src) (k : BitVec 11)
  /-- XORI (R79). -/
  | xori (d : Dst) (a : Src) (k : BitVec 11)
  /-- SHLI (R79). -/
  | shli (d : Dst) (a : Src) (n : BitVec 5)
  /-- SHRI (R79). -/
  | shri (d : Dst) (a : Src) (n : BitVec 5)
  /-- SRAI (R79). -/
  | srai (d : Dst) (a : Src) (n : BitVec 5)
  /-- ROLI (R79). -/
  | roli (d : Dst) (a : Src) (n : BitVec 5)
  /-- ICMPI (R80). -/
  | icmpi (p : PReg) (a : Src) (c : Cond) (k : BitVec 7)
  /-- MOVI (R79). -/
  | movi (d : Dst) (k : BitVec 18)
  /-- MOVHI (R79). -/
  | movhi (d : Dst) (k : BitVec 18)
  /-- PAND (R84). -/
  | pand (d : PReg) (a : PReg) (b : PReg)
  /-- POR (R84). -/
  | por (d : PReg) (a : PReg) (b : PReg)
  /-- PXOR (R84). -/
  | pxor (d : PReg) (a : PReg) (b : PReg)
  /-- PANDN (R84). -/
  | pandn (d : PReg) (a : PReg) (b : PReg)
  /-- PNOT (R84). -/
  | pnot (d : PReg) (a : PReg)
  /-- PMOV (R84). -/
  | pmov (d : PReg) (a : PReg)
  /-- P2V (R85). -/
  | p2v (d : Dst)
  /-- V2P (R85). -/
  | v2p (a : Src)
  /-- FADD (R86). -/
  | fadd (d : Dst) (a : Src) (b : Src) (r : RMode) (t : FType)
  /-- FSUB (R86). -/
  | fsub (d : Dst) (a : Src) (b : Src) (r : RMode) (t : FType)
  /-- FMUL (R86). -/
  | fmul (d : Dst) (a : Src) (b : Src) (r : RMode) (t : FType)
  /-- FFMA (R86). -/
  | ffma (d : Dst) (a : Src) (b : Src) (r : RMode) (t : FType)
  /-- FMIN (R88). -/
  | fmin (d : Dst) (a : Src) (b : Src) (t : FType)
  /-- FMAX (R88). -/
  | fmax (d : Dst) (a : Src) (b : Src) (t : FType)
  /-- FABS (R89). -/
  | fabs (d : Dst) (a : Src) (t : FType)
  /-- FNEG (R89). -/
  | fneg (d : Dst) (a : Src) (t : FType)
  /-- FRND (R89). -/
  | frnd (d : Dst) (a : Src) (r : RMode) (t : FType)
  /-- FCLS (R89). -/
  | fcls (d : Dst) (a : Src) (t : FType)
  /-- FEXP (R89). -/
  | fexp (d : Dst) (a : Src) (t : FType)
  /-- FMANT (R89). -/
  | fmant (d : Dst) (a : Src) (t : FType)
  /-- FCMP (R90). -/
  | fcmp (p : PReg) (a : Src) (b : Src) (w : Bool) (c : FCond)
  /-- FCVT (R91). -/
  | fcvt (d : Dst) (a : Src) (x : Conv) (r : RMode) (s : Bool)
  /-- RCP (R93). -/
  | rcp (d : Dst) (a : Src)
  /-- RSQ (R93). -/
  | rsq (d : Dst) (a : Src)
  /-- SQRT (R93). -/
  | sqrt (d : Dst) (a : Src)
  /-- EX2 (R93). -/
  | ex2 (d : Dst) (a : Src)
  /-- LG2 (R93). -/
  | lg2 (d : Dst) (a : Src)
  /-- SINPI (R93). -/
  | sinpi (d : Dst) (a : Src)
  /-- COSPI (R93). -/
  | cospi (d : Dst) (a : Src)
  /-- TANH (R93). -/
  | tanh (d : Dst) (a : Src)
  /-- TWOSUM (R95). -/
  | twosum (d : Dst) (a : Src) (b : Src)
  /-- TWOPROD (R95). -/
  | twoprod (d : Dst) (a : Src) (b : Src)
  /-- CMUL (R96). -/
  | cmul (d : Dst) (a : Src) (b : Src)
  /-- CFMA (R97). -/
  | cfma (d : Dst) (a : Src) (b : Src)
  /-- CACC (R98). -/
  | cacc (d : Dst) (a : Src)
  /-- FDIV (R94). -/
  | fdiv (d : Dst) (a : Src) (b : Src)
  /-- SHFL (R140). -/
  | shfl (d : Dst) (a : Src) (b : Src) (w : Bool) (m : ShflMode)
  /-- VOTE_ANY (R141). -/
  | voteAny (d : PReg) (a : PReg) (i : Bool)
  /-- VOTE_ALL (R141). -/
  | voteAll (d : PReg) (a : PReg) (i : Bool)
  /-- VOTE_BALLOT (R141). -/
  | voteBallot (d : Dst) (a : PReg) (i : Bool)
  /-- VOTE_UNIFORM (R141). -/
  | voteUniform (d : PReg) (a : Src)
  /-- SCAN (R142). -/
  | scan (d : Dst) (a : Src) (e : Bool) (o : ScanOp)
  /-- REDW (R143). -/
  | redw (d : Dst) (a : Src) (o : ScanOp)
  /-- MATCH (R144). -/
  | matchLanes (d : Dst) (a : Src) (w : Bool)
  /-- LGET (R145). -/
  | lget (d : Dst) (a : Src) (b : Src) (w : Bool)
  /-- PRMT (R147). -/
  | prmt (d : Dst) (a : Src) (b : Src)
  /-- LSET (R146). -/
  | lset (d : Dst) (a : Src) (b : Src) (w : Bool)
  /-- NEG (R219). -/
  | neg (a : Src) (b : Src) (f : Bool) (c : Bool)
  /-- EXPO (R221). -/
  | expo (a : Src) (b : Src) (f : Bool) (u : Bool)
  /-- CEXPO (R221). -/
  | cexpo (a : Src) (b : Src) (f : Bool) (u : Bool)
  /-- HAD (R222). -/
  | had (a : Src) (b : Src) (f : Bool) (c : Bool) (n : Bool) (h : Bool)
  /-- ACCZ (R223). -/
  | accz (a : Src) (f : Bool) (u : Bool)
  /-- ACCRD_REG (R225). -/
  | accrdReg (d : Dst) (a : Src) (f : Bool)
  /-- ACCRD_F32 (R225). -/
  | accrdF32 (a : Src) (b : Src) (f : Bool)
  /-- ACCRD_BF16 (R225). -/
  | accrdBf16 (a : Src) (b : Src) (f : Bool)
  /-- ACCRD_E4M3 (R226). -/
  | accrdE4m3 (a : Src) (b : Src) (f : Bool)
  /-- ACCRD_E5M2 (R226). -/
  | accrdE5m2 (a : Src) (b : Src) (f : Bool)
  /-- ACCRD_STAT (R225). -/
  | accrdStat (d : Dst) (a : Src) (f : Bool)
  /-- ACCLD (R224). -/
  | accld (a : Src) (b : Src) (f : Bool) (u : Bool) (m : AccldMode)
  /-- NEGREL (R220). -/
  | negrel (a : Src) (f : Bool)
  /-- LD (R148). -/
  | ld (d : Dst) (a : Src) (b : Src) (f : Bool) (s : Bool) (w : MemW)
  /-- LDQ (R148). -/
  | ldq (d : Dst) (a : Src) (b : Src) (f : Bool)
  /-- ST (R148). -/
  | st (d : CSrc) (a : Src) (b : Src) (f : Bool) (w : MemW)
  /-- STQ (R148). -/
  | stq (d : CSrc) (a : Src) (b : Src) (f : Bool)
  /-- LDACQ (R267). -/
  | ldacq (d : Dst) (a : Src) (s : Scope) (f : Bool) (w : AcqW)
  /-- STREL (R267). -/
  | strel (d : CSrc) (a : Src) (s : Scope) (f : Bool) (w : AcqW)
  /-- ATOM (R268). -/
  | atom (d : Dst) (a : Src) (o : AtomOp) (s : Scope) (f : Bool) (c : Ord) (w : Bool)
  /-- CAS (R269). -/
  | cas (d : Dst) (a : Src) (s : Scope) (f : Bool) (c : Ord) (w : Bool)
  /-- RED (R270). -/
  | red (d : CSrc) (a : Src) (o : AtomOp) (s : Scope) (f : Bool) (n : Bool) (y : Bool) (w : Bool)
  /-- FENCE (R271). -/
  | fence (s : Scope) (f : Bool) (k : FenceK)
  /-- WATCH (R272). -/
  | watch (a : Src) (f : Bool)
  /-- WATCH_CLR (R272). -/
  | watchClr (f : Bool)
  /-- WAITW (R273). -/
  | waitw (d : Dst) (f : Bool) (n : Bool)
  /-- PREF (R153). -/
  | pref (a : Src) (b : Src) (w : Bool)
  /-- CCTL_WB (R274). -/
  | cctlWb (a : Src) (f : Bool)
  /-- CCTL_INV (R274). -/
  | cctlInv (a : Src) (f : Bool)
  /-- CCTL_DEMOTE (R274). -/
  | cctlDemote (a : Src) (f : Bool)
  /-- CCTL_IINV (R274). -/
  | cctlIinv (f : Bool)
  /-- VLD (R333). -/
  | vld (d : Dst) (a : Src) (b : Src) (f : Bool) (n : Bool) (l : Bool) (w : Bool)
  /-- VST (R332). -/
  | vst (d : CSrc) (a : Src) (b : Src) (f : Bool) (n : Bool) (w : Bool)
  /-- VFLOOR (R335). -/
  | vfloor (a : Src) (b : Src) (f : Bool)
  /-- VQRY (R336). -/
  | vqry (d : Dst) (a : Src) (f : Bool)
  /-- LDS (R183). -/
  | lds (d : Dst) (a : Src) (f : Bool) (m : FeMode) (w : SpadW)
  /-- STS (R183). -/
  | sts (d : CSrc) (a : Src) (f : Bool) (m : FeMode) (w : SpadW)
  /-- FEGET (R184). -/
  | feget (d : Dst) (a : Src) (f : Bool)
  /-- FESET (R184). -/
  | feset (a : Src) (f : Bool)
  /-- FECLR (R184). -/
  | feclr (a : Src) (f : Bool)
  /-- FEWAIT (R184). -/
  | fewait (a : Src) (f : Bool) (e : Bool)
  /-- ATOMS (R185). -/
  | atoms (d : Dst) (a : Src) (b : AtomsOp) (f : Bool)
  /-- SPLOOK (R186). -/
  | splook (d : Dst) (a : Src) (f : Bool)
  /-- SPTAG (R186). -/
  | sptag (d : Dst) (a : Src) (b : Src) (f : Bool)
  /-- SPTAG_INV (R186). -/
  | sptagInv (d : Dst) (a : Src) (f : Bool)
  /-- SPDESC (R186). -/
  | spdesc (d : Dst) (a : Src) (f : Bool)
  /-- SPDESC_SET (R186). -/
  | spdescSet (a : Src) (b : Src) (f : Bool)
  /-- SHAPE (R188). -/
  | shape (d : Dst) (a : Src) (b : Src) (f : Bool)
  /-- UNSHAPE (R189). -/
  | unshape (b : Src) (f : Bool)
  /-- CPYIN (R191). -/
  | cpyin (d : Dst) (a : Src) (b : Src) (f : Bool) (r : Bool)
  /-- CPYOUT (R191). -/
  | cpyout (d : Dst) (a : Src) (b : Src) (f : Bool) (r : Bool)
  /-- GATHER (R192). -/
  | gather (d : Dst) (a : Src) (b : Src) (f : Bool)
  /-- STAGE (R193). -/
  | stage (d : Dst) (f : Bool)
  /-- CTAB (R190). -/
  | ctab (d : Dst) (a : Src) (b : Src) (f : Bool)
  /-- CPYQ (R194). -/
  | cpyq (d : Dst) (a : Src) (f : Bool)
  /-- BAR (R198). -/
  | bar (a : Src) (f : Bool) (n : BitVec 5) (s : BarScope)
  /-- BARA (R199). -/
  | bara (d : Dst) (a : Src) (f : Bool) (n : BitVec 5) (s : BarScope)
  /-- BARW (R199). -/
  | barw (a : Src) (f : Bool) (n : BitVec 5) (s : BarScope)
  /-- BARQ (R199). -/
  | barq (d : Dst) (f : Bool) (n : BitVec 5) (s : BarScope)
  /-- QPUSH (R201). -/
  | qpush (a : Src) (q : BitVec 4) (f : Bool) (n : Bool)
  /-- QPOP (R201). -/
  | qpop (d : Dst) (q : BitVec 4) (f : Bool) (n : Bool)
  /-- QPEEK (R201). -/
  | qpeek (d : Dst) (q : BitVec 4) (f : Bool) (n : Bool)
  /-- QLEN (R201). -/
  | qlen (d : Dst) (q : BitVec 4) (f : Bool)
  /-- TSPAWN (R202). -/
  | tspawn (a : Src) (b : Src) (f : Bool)
  /-- TCOUNT (R204). -/
  | tcount (d : Dst) (f : Bool)
  /-- DLSET (R296). -/
  | dlset (a : Src) (b : Src)
  /-- DLSTEP (R296). -/
  | dlstep (a : Src) (b : Src)
  /-- DLQ (R298). -/
  | dlq (d : Dst)
  /-- DLEND (R296). -/
  | dlend
  /-- ENRD (R297). -/
  | enrd (d : Dst) (f : Bool)
  /-- ENSAVE (R299). -/
  | ensave (d : Dst) (a : Src) (f : Bool)
  /-- ENLOAD (R299). -/
  | enload (d : Dst) (a : Src) (b : Src) (f : Bool)
  /-- XPERM (R402). -/
  | xperm (d : Dst) (a : Src) (b : Src) (f : Bool)
  /-- XRED (R403). -/
  | xred (d : Dst) (a : Src) (f : Bool)
  /-- XBC (R403). -/
  | xbc (d : Dst) (a : Src) (f : Bool)
  /-- XAG (R403). -/
  | xag (d : Dst) (a : Src) (f : Bool)
  /-- FRENT (R137). -/
  | frent (d : Dst) (a : Src)
  /-- FRENT_LANES (R137). -/
  | frentLanes (d : Dst)
  /-- FRSET_PC (R138). -/
  | frsetPc (d : Dst) (a : Src)
  /-- FRSET_PARK (R138). -/
  | frsetPark (d : Dst)
  /-- FRSET_UNPARK (R138). -/
  | frsetUnpark (d : Dst)
  /-- HALT (R368). -/
  | halt (a : Src)
  /-- HALT_RESUME (R368). -/
  | haltResume (a : Src)
  /-- TLBINV (R371). -/
  | tlbinv (d : Dst) (a : Src) (l : Bool)
  /-- QUIESCE (R369). -/
  | quiesce (d : Dst) (a : Src)
  /-- QUIESCE_STOP (R369). -/
  | quiesceStop (d : Dst) (a : Src)
  /-- CTXSWAP (R370). -/
  | ctxswap (d : Dst) (a : Src)
  /-- VREG (R329). -/
  | vreg (d : Dst) (a : Src)
  /-- VUNREG (R330). -/
  | vunreg (d : Dst) (a : Src)
  /-- PGATTR (R372). -/
  | pgattr (d : Dst) (a : Src)
  /-- CLAUSE_SELECT (R101). -/
  | clauseSelect (sid : Nat) (wid : Nat)
  /-- BOUNDARY_TRAP (R120). -/
  | boundaryTrap (sid : Nat) (wid : Nat)
  /-- LONG_LATENCY_COMPLETION (R103). -/
  | longLatencyCompletion (sid : Nat) (wid : Nat) (ix : Nat)
  /-- WEFT_SLOT_RELEASE (R103). -/
  | weftSlotRelease (sid : Nat) (wid : Nat)
  /-- ICACHE_FILL (R261). -/
  | icacheFill (cl : Nat) (ctx : Word) (line : Nat)
  /-- POLLING_CLASSIFICATION (R237). -/
  | pollingClassification (sid : Nat) (wid : Nat)
  /-- HANG_RECORD (R124). -/
  | hangRecord (sid : Nat) (wid : Nat)
  /-- FULL_EMPTY_RETEST (R166). -/
  | fullEmptyRetest (sid : Nat)
  /-- UNIT_ARRIVAL (R228). -/
  | unitArrival (sid : Nat) (sc : BarScope) (n : Nat)
  /-- WAKE_MESSAGE (R229). -/
  | wakeMessage (core : Nat)
  /-- WAKE_RECORD (R236). -/
  | wakeRecord (core : Nat)
  /-- SWATCH_PLACEMENT (R157). -/
  | swatchPlacement (sid : Nat) (core : Nat)
  /-- SWATCH_RELEASE (R160). -/
  | swatchRelease (sid : Nat)
  /-- BAG_CHOICE (R231). -/
  | bagChoice (core : Nat)
  /-- BAG_TIMESLICE (R231). -/
  | bagTimeslice (core : Nat)
  /-- WEFT_SAVE (R232). -/
  | weftSave (sid : Nat) (wid : Nat)
  /-- WEFT_LOAD (R233). -/
  | weftLoad (sid : Nat) (wid : Nat)
  /-- SWATCH_ROTATION (R240). -/
  | swatchRotation (sid : Nat)
  /-- COPY_JOB_BEGIN (R171). -/
  | copyJobBegin (core : Nat) (job : Nat)
  /-- COPY_LINE_FULL (R173). -/
  | copyLineFull (core : Nat) (job : Nat)
  /-- COPY_JOB_COMPLETION (R173). -/
  | copyJobCompletion (core : Nat) (job : Nat)
  /-- COPY_JOB_ABORT (R177). -/
  | copyJobAbort (core : Nat) (job : Nat)
  /-- EXPOSURE_COMPLETION (R221). -/
  | exposureCompletion (sid : Nat) (wid : Nat) (ix : Nat)
  /-- WRITE_BUFFER_DRAIN (R248). -/
  | writeBufferDrain (core : Nat) (sector : Nat)
  /-- FIRMWARE_COPY_COMPLETION (R265). -/
  | firmwareCopyCompletion (core : Nat) (job : Nat)
  /-- CLUSTER_WAKE (R278). -/
  | clusterWake (cl : Nat) (sid : Nat)
  /-- TASK_GATHER (R362). -/
  | taskGather (launch : Nat)
  /-- LAUNCH_PACKET (R356). -/
  | launchPacket (ctx : Word) (q : Nat)
  /-- GRAPH_PACKET (R360). -/
  | graphPacket (ctx : Word) (q : Nat)
  /-- WAIT_PACKET (R352). -/
  | waitPacket (ctx : Word) (q : Nat)
  /-- SIGNAL_PACKET (R349). -/
  | signalPacket (ctx : Word) (q : Nat)
  /-- COPY_PACKET (R349). -/
  | copyPacket (ctx : Word) (q : Nat)
  /-- QBARRIER_PACKET (R352). -/
  | qbarrierPacket (ctx : Word) (q : Nat)
  /-- FENCE_PACKET (R350). -/
  | fencePacket (ctx : Word) (q : Nat)
  /-- WAIT_RETEST (R352). -/
  | waitRetest (ctx : Word) (q : Nat)
  /-- LAUNCH_COMPLETION (R358). -/
  | launchCompletion (launch : Nat)
  /-- GRAPH_NODE_COMPLETION (R360). -/
  | graphNodeCompletion (run : Nat) (node : Nat)
  /-- QUIESCE_MARKER_RETURN (R365). -/
  | quiesceMarkerReturn (core : Nat)
  /-- REMOTE_WRITE (R318). -/
  | remoteWrite (die : Nat)
  /-- UPDATE_APPLY (R319). -/
  | updateApply (die : Nat) (ix : Nat)
  /-- FLOOR_MESSAGE (R335). -/
  | floorMessage (region : Nat) (die : Nat)
  /-- FLOOR_POINT (R335). -/
  | floorPoint (region : Nat)
  /-- TASK_GATHER_TIMEOUT (R362). -/
  | taskGatherTimeout (launch : Nat)
  /-- CLOCK_RESTART (R277). -/
  | clockRestart (cl : Nat) (ticks : Nat)
  /-- COLLECTIVE_COMPLETION (R401). -/
  | collectiveCompletion (die : Nat) (op : Nat)
  /-- ILLEGAL_INSTRUCTION (R34). -/
  | illegalInstruction (word : Word)
  /-- GRIUDB_BREAKPOINT (R155). -/
  | griudbBreakpoint (sid : Nat) (wid : Nat)
  /-- WAKE_COMPLETE (R278). -/
  | wakeComplete (cl : Nat)
  /-- GATING_COMPLETE (R278). -/
  | gatingComplete (cl : Nat)
  /-- COLLECTIVE_PREPARE_DONE (R401). -/
  | collectivePrepareDone (die : Nat) (op : Nat) (verdict : MemberVerdict)
  /-- CPGO (R265). -/
  | cpgo (cl : Nat)
  /-- SPSIZE (R235). -/
  | spsize (die : Nat) (pages : Word)
  /-- GOVERNOR_EVALUATION (R285). -/
  | governorEvaluation (cl : Nat)
  /-- GATING_START (R278). -/
  | gatingStart (cl : Nat)
  /-- DROOP_THROTTLE (R276). -/
  | droopThrottle (cl : Nat)
  /-- ENERGY_PERIOD_END (R293). -/
  | energyPeriodEnd (cl : Nat)
  /-- WATCH_FIRE (R259). -/
  | watchFire (sector : Nat)
  /-- EVPOP (R264). -/
  | evpop (cl : Nat)
  /-- EVQ_STATUS_CLEAR (R264). -/
  | evqStatusClear (cl : Nat)
  /-- STAGGER_EXPIRY (R280). -/
  | staggerExpiry (sid : Nat)
  /-- BALLAST_INTERVAL (R281). -/
  | ballastInterval (cl : Nat) (exposures : Nat)
  /-- CAP_EVALUATION (R378). -/
  | capEvaluation (watts : Nat)
  /-- VERSION_WAITER_WAKE (R340). -/
  | versionWaiterWake (region : Nat) (sector : Nat)
  /-- TAIL_WRITE (R347). -/
  | tailWrite (ctx : Word) (q : Nat) (tail : Word)
  /-- QUEUE_AGING (R351). -/
  | queueAging (ctx : Word) (q : Nat)
  /-- ECODE_CLEAR (R353). -/
  | ecodeClear (ctx : Word) (q : Nat)
  /-- EVENT_RING_HEAD_ADVANCE (R355). -/
  | eventRingHeadAdvance (ctx : Word) (head : Word)
  /-- PTAB_LO (R344). -/
  | ptabLo (die : Nat) (value : Word)
  /-- FLIT_RECEIVE (R392). -/
  | flitReceive (port : Nat) (flit : List Byte)
  /-- PORT_RETRAIN (R392). -/
  | portRetrain (port : Nat)
  /-- MSG_READ (R395). -/
  | msgRead (msg : Msg)
  /-- MSG_READ_DATA (R391). -/
  | msgReadData (msg : Msg)
  /-- MSG_WRITE (R395). -/
  | msgWrite (msg : Msg)
  /-- MSG_WRITE_ACK (R391). -/
  | msgWriteAck (msg : Msg)
  /-- MSG_ATOMIC (R258). -/
  | msgAtomic (msg : Msg)
  /-- MSG_ATOMIC_RESULT (R391). -/
  | msgAtomicResult (msg : Msg)
  /-- MSG_BARRIER_ARRIVAL (R325). -/
  | msgBarrierArrival (msg : Msg)
  /-- MSG_WAKE (R229). -/
  | msgWake (msg : Msg)
  /-- MSG_COLLECTIVE (R401). -/
  | msgCollective (msg : Msg)
  /-- MSG_VERSION_CONTROL (R391). -/
  | msgVersionControl (msg : Msg)
  /-- MSG_MIGRATION (R407). -/
  | msgMigration (msg : Msg)
  /-- MXFER (R407). -/
  | mxfer (die : Nat) (value : Word)
  /-- MIGRATION_DONE (R407). -/
  | migrationDone (die : Nat) (status : Nat)
  /-- MCTL (R406). -/
  | mctl (die : Nat) (value : Word)
  /-- FRETRY_CLEAR (R394). -/
  | fretryClear (die : Nat)
  /-- CECNT_CLEAR (R376). -/
  | cecntClear (unit : Nat)
  /-- CORRECTED_ERROR (R386). -/
  | correctedError (unit : Nat) (cl : Nat)
  /-- UNIT_FENCE (R384). -/
  | unitFence (u : FenceUnit)
  /-- RAIL_FAULT (R379). -/
  | railFault
  /-- RESET_RELEASE (R381). -/
  | resetRelease (rep : StartReport)
  /-- WATCHDOG_EXPIRY (R382). -/
  | watchdogExpiry (stage : Nat)
  /-- START_COMPLETE (R382). -/
  | startComplete
  /-- FSC_CLEAR (R388). -/
  | fscClear
  /-- ATTESTATION_REPORT (R381). -/
  | attestationReport (nonce : List Byte)
  /-- GRIUDB_RESUME (R155). -/
  | griudbResume (ctx : Word)
  /-- PORT_TRAINED (R390). -/
  | portTrained (port : Nat) (gen : Nat)
  /-- STANDBY_POWER_LOSS (R375). -/
  | standbyPowerLoss
  /-- NOP (R131). -/
  | nop
  deriving DecidableEq, Repr

end Sys2Proof
end

