-- ==== Sys2Proof/WellFormed.lean ====
section
/-!
DEFINITION. The static legality of an instruction: every illegal-instruction condition that the
word alone decides (R24, R25, R27, R28, R34, R74 and the operand lines of the entries). An
ill-formed instruction raises the illegal-instruction trap when it issues. What depends on the
running weft (targ in a task weft, a selector's value, the weft's role) is checked by the machine.
-/
namespace Sys2Proof

/-- The named checks. -/
inductive Check
  | pairShape      -- a pair or quad that names a wrong register or a special R27 forbids
  | literalGroup   -- a literal where a pair, quad or plain register must stand (R74, R148, R367)
  | scalarSources  -- a scalar destination with a per-lane source (R28)
  | mustBeScalar   -- an operand its entry requires to be scalar
  | mustBeVector   -- an operand its entry requires to be a vector register
  | modifier       -- a combination of modifiers its entry forbids
  | window         -- a WINB window beyond its limit (R25)
  deriving DecidableEq, Repr

/-- lid and vector registers differ from lane to lane (R23). -/
def Src.perLane : Src → Bool
  | .v _ => true
  | .sp .lid => true
  | _ => false

def Src.isLit : Src → Bool
  | .lit _ => true
  | _ => false

def Src.isVec : Src → Bool
  | .v _ => true
  | _ => false

/-- A pair source: an even register, z, targ or lrec (R27). A literal passes here. -/
def Src.pairOk : Src → Bool
  | .v n => n.val % 2 == 0
  | .s n => n.val % 2 == 0
  | .sp .z => true
  | .sp .targ => true
  | .sp .lrec => true
  | .sp _ => false
  | .lit _ => true

/-- A quad source: a register at a multiple of 4, or z (R27). -/
def Src.quadOk : Src → Bool
  | .v n => n.val % 4 == 0
  | .s n => n.val % 4 == 0
  | .sp .z => true
  | .sp _ => false
  | .lit _ => true

/-- The operand as a general source. -/
def CSrc.toSrc : CSrc → Src
  | .v n => .v n
  | .s n => .s n
  | .sp x => .sp x

def Dst.isScalar : Dst → Bool
  | .v _ => false
  | .s _ => true

def Dst.pairOk : Dst → Bool
  | .v n => n.val % 2 == 0
  | .s n => n.val % 2 == 0

def Dst.quadOk : Dst → Bool
  | .v n => n.val % 4 == 0
  | .s n => n.val % 4 == 0

/-- Checks of one source read as a group of `g` registers, literals allowed. -/
def Src.groupCheck (g : Nat) (a : Src) : Check × Bool :=
  (.pairShape, if g == 1 then true else if g == 2 then a.pairOk else a.quadOk)

def Dst.groupCheck (g : Nat) (d : Dst) : Check × Bool :=
  (.pairShape, if g == 1 then true else if g == 2 then d.pairOk else d.quadOk)

def noLit (a : Src) : Check × Bool := (.literalGroup, !a.isLit)

def needScalar (a : Src) : Check × Bool := (.mustBeScalar, !a.perLane)

def needScalarDst (d : Dst) : Check × Bool := (.mustBeScalar, d.isScalar)

def needVectorDst (d : Dst) : Check × Bool := (.mustBeVector, !d.isScalar)

/-- R28: a scalar destination admits no per-lane source. -/
def scalarRule (d : Dst) (srcs : List Src) : Check × Bool :=
  (.scalarSources, !d.isScalar || srcs.all fun a => !a.perLane)

/-- The usual three-operand shape: groups of `gd`, `ga`, `gb` registers. -/
def checks3 (d : Dst) (gd : Nat) (a : Src) (ga : Nat) (b : Src) (gb : Nat) : List (Check × Bool) :=
  [d.groupCheck gd, a.groupCheck ga, b.groupCheck gb, scalarRule d [a, b]]

def checks2 (d : Dst) (gd : Nat) (a : Src) (ga : Nat) : List (Check × Bool) :=
  [d.groupCheck gd, a.groupCheck ga, scalarRule d [a]]

/-- Registers of a group: two for a 64-bit operand. -/
def grp (w : Bool) : Nat := if w then 2 else 1

/-- Registers of an operand of a floating-point type. -/
def FType.regs : FType → Nat
  | .f64 => 2
  | _ => 1

/-- Registers read and written by a conversion (R91). -/
def Conv.shape : Conv → Nat × Nat
  | .f64F32 => (1, 2) | .f32F64 => (2, 1) | .f16x2F32x2 => (2, 1) | .bf16x2F32x2 => (2, 1)
  | .f32x2F16x2 => (1, 2) | .f32x2Bf16x2 => (1, 2)
  | .e4m3x4F32x4 => (4, 1) | .e5m2x4F32x4 => (4, 1) | .f32x4E4m3x4 => (1, 4) | .f32x4E5m2x4 => (1, 4)
  | .e2m1x4loF32x4 => (4, 1) | .e2m1x4hiF32x4 => (4, 1) | .f32x4E2m1x4lo => (1, 4)
  | .f32x4E2m1x4hi => (1, 4)
  | .i32F32 => (1, 1) | .u32F32 => (1, 1) | .i64F32 => (1, 2) | .u64F32 => (1, 2)
  | .i32F64 => (2, 1) | .u32F64 => (2, 1) | .i64F64 => (2, 2) | .u64F64 => (2, 2)
  | .f32I32 => (1, 1) | .f32U32 => (1, 1) | .f32I64 => (2, 1) | .f32U64 => (2, 1)
  | .f64I32 => (1, 2) | .f64U32 => (1, 2) | .f64I64 => (2, 2) | .f64U64 => (2, 2)
  | .f16x4E4m3x4 => (1, 2) | .f16x4E5m2x4 => (1, 2) | .f16x4E2m1x4lo => (1, 2)
  | .f16x4E2m1x4hi => (1, 2)
  | .e4m3x4E2m1x4lo => (1, 1) | .e5m2x4E2m1x4lo => (1, 1) | .e4m3x4E2m1x4hi => (1, 1)
  | .e5m2x4E2m1x4hi => (1, 1)
  | .f64x2F16x2 => (1, 4) | .f64x2Bf16x2 => (1, 4) | .f16x2I32x2 => (2, 1) | .f16x2U32x2 => (2, 1)

/-- Conversions that must round to nearest even (R63, R91). -/
def Conv.rnOnly : Conv → Bool
  | .e4m3x4F32x4 | .e5m2x4F32x4 | .e2m1x4loF32x4 | .e2m1x4hiF32x4 => true
  | _ => false

/-- Conversions that admit .sat (R91). -/
def Conv.satOk : Conv → Bool
  | .f32F64 | .f16x2F32x2 | .bf16x2F32x2 | .e4m3x4F32x4 | .e5m2x4F32x4 | .e2m1x4loF32x4
  | .e2m1x4hiF32x4 | .f16x2I32x2 | .f16x2U32x2 => true
  | _ => false

def MemW.regs : MemW → Nat
  | .b64 => 2
  | _ => 1

def AcqW.regs : AcqW → Nat
  | .b64 => 2
  | .b32 => 1

def SpadW.regs : SpadW → Nat
  | .b32 => 1
  | .b64 => 2
  | .b128 => 4

def AtomOp.isFloat : AtomOp → Bool
  | .fadd | .fmin | .fmax => true
  | _ => false

/-- A scalar, special or literal operand read singly (R218, R296). -/
def scalarOperand (a : Src) : List (Check × Bool) := [needScalar a]

/-- A scalar pair operand that admits no literal. -/
def scalarPair (a : Src) : List (Check × Bool) := [needScalar a, a.groupCheck 2, noLit a]

/-- An address pair: no literal (R148). -/
def addressPair (a : Src) : List (Check × Bool) := [a.groupCheck 2, noLit a]

/-- Operands of HALT to PGATTR: scalar and no literal (R367). -/
def systemOperand (g : Nat) (a : Src) : List (Check × Bool) := [needScalar a, a.groupCheck g, noLit a]

/-- The legal shapes of each instruction, check by check. Events have none. -/
def Instr.checks : Instr → List (Check × Bool)
  | .brx c _ => [needScalar c.toSrc]
  | .brz c _ => [needScalar c.toSrc]
  | .winb s v => [(.window, v.toNat ≤ 12 && s.toNat ≤ 9)]
  | .csrw d _ => [(.mustBeScalar, match d with | .s _ => true | .sp .z => true | _ => false)]
  | .iadd d a b _ _ w => checks3 d (grp w) a (grp w) b (grp w)
  | .isub d a b _ _ w => checks3 d (grp w) a (grp w) b (grp w)
  | .imul d a b _ _ w => checks3 d (grp w) a (grp w) b (grp w)
  | .imulh d a b _ w => checks3 d (grp w) a (grp w) b (grp w)
  | .imad d a b _ _ w => checks3 d (grp w) a (grp w) b (grp w)
  | .imin d a b _ w => checks3 d (grp w) a (grp w) b (grp w)
  | .imax d a b _ w => checks3 d (grp w) a (grp w) b (grp w)
  | .iabs d a _ w => checks2 d (grp w) a (grp w)
  | .ineg d a _ w => checks2 d (grp w) a (grp w)
  | .not d a w => checks2 d (grp w) a (grp w)
  | .popc d a => checks2 d 1 a 1
  | .clz d a => checks2 d 1 a 1
  | .brev d a => checks2 d 1 a 1
  | .sxb d a => checks2 d 1 a 1
  | .sxh d a => checks2 d 1 a 1
  | .zxb d a => checks2 d 1 a 1
  | .zxh d a => checks2 d 1 a 1
  | .ffs d a => checks2 d 1 a 1
  | .and d a b w => checks3 d (grp w) a (grp w) b (grp w)
  | .or d a b w => checks3 d (grp w) a (grp w) b (grp w)
  | .xor d a b w => checks3 d (grp w) a (grp w) b (grp w)
  | .andn d a b w => checks3 d (grp w) a (grp w) b (grp w)
  | .shl d a b w => checks3 d (grp w) a (grp w) b 1
  | .shr d a b w => checks3 d (grp w) a (grp w) b 1
  | .sra d a b w => checks3 d (grp w) a (grp w) b 1
  | .rol d a b w => checks3 d (grp w) a (grp w) b 1
  | .bfx d a b _ => checks3 d 1 a 1 b 1
  | .bfi d a b => checks3 d 1 a 1 b 1
  | .sel d _ _ _ _ => [needVectorDst d]
  | .lea d a b l _ => checks3 d (grp l) a (grp l) b 1
  | .mov d a w => checks2 d (grp w) a (grp w)
  | .iaddi d a _ => checks2 d 1 a 1
  | .andi d a _ => checks2 d 1 a 1
  | .ori d a _ => checks2 d 1 a 1
  | .xori d a _ => checks2 d 1 a 1
  | .shli d a _ => checks2 d 1 a 1
  | .shri d a _ => checks2 d 1 a 1
  | .srai d a _ => checks2 d 1 a 1
  | .roli d a _ => checks2 d 1 a 1
  | .p2v d => [needVectorDst d]
  | .fadd d a b _ t => checks3 d t.regs a t.regs b t.regs
  | .fsub d a b _ t => checks3 d t.regs a t.regs b t.regs
  | .fmul d a b _ t => checks3 d t.regs a t.regs b t.regs
  | .ffma d a b _ t => checks3 d t.regs a t.regs b t.regs
  | .fmin d a b t => checks3 d t.regs a t.regs b t.regs
  | .fmax d a b t => checks3 d t.regs a t.regs b t.regs
  | .fabs d a t => checks2 d t.regs a t.regs
  | .fneg d a t => checks2 d t.regs a t.regs
  | .frnd d a _ t => checks2 d t.regs a t.regs
  | .fcls d a t => checks2 d 1 a t.regs
  | .fexp d a t => checks2 d 1 a t.regs
  | .fmant d a t => checks2 d t.regs a t.regs
  | .fcmp _ a b w _ => [a.groupCheck (grp w), b.groupCheck (grp w)]
  | .fcvt d a x r s =>
    checks2 d x.shape.2 a x.shape.1 ++
      [(.literalGroup, x.shape.1 == 1 || !a.isLit),
       (.modifier, !x.rnOnly || r == .rn), (.modifier, !s || x.satOk)]
  | .rcp d a => checks2 d 1 a 1
  | .rsq d a => checks2 d 1 a 1
  | .sqrt d a => checks2 d 1 a 1
  | .ex2 d a => checks2 d 1 a 1
  | .lg2 d a => checks2 d 1 a 1
  | .sinpi d a => checks2 d 1 a 1
  | .cospi d a => checks2 d 1 a 1
  | .tanh d a => checks2 d 1 a 1
  | .twosum d a b => checks3 d 2 a 1 b 1
  | .twoprod d a b => checks3 d 2 a 1 b 1
  | .cmul d a b => checks3 d 2 a 2 b 2 ++ [noLit a, noLit b]
  | .cfma d a b => checks3 d 2 a 2 b 2 ++ [noLit a, noLit b]
  | .cacc d a => checks2 d 4 a 2 ++ [noLit a]
  | .fdiv d a b => checks3 d 1 a 1 b 1
  | .shfl d a _ w _ =>
    [needVectorDst d, (.mustBeVector, a.isVec), d.groupCheck (grp w), a.groupCheck (grp w)]
  | .scan d _ _ _ => [needVectorDst d]
  | .matchLanes d a w => [needVectorDst d, a.groupCheck (grp w)]
  | .lget d a b w => [needScalarDst d, needScalar b, d.groupCheck (grp w), a.groupCheck (grp w)]
  | .prmt d a b => checks3 d 1 a 2 b 1 ++ [noLit a]
  | .lset d a b w =>
    [needVectorDst d, needScalar a, needScalar b, d.groupCheck (grp w), a.groupCheck (grp w)]
  | .neg a b _ _ => scalarOperand a ++ scalarOperand b
  | .expo a b _ _ => scalarOperand a ++ scalarOperand b
  | .cexpo a b _ _ => scalarOperand a ++ scalarOperand b
  | .had a b _ _ _ _ => scalarOperand a ++ scalarOperand b
  | .accz a _ _ => scalarOperand a
  | .accrdReg d a _ =>
    needScalar a :: [(.mustBeVector, match d with | .v n => n.val % 8 == 0 | .s _ => false)]
  | .accrdF32 a b _ => scalarOperand a ++ scalarOperand b
  | .accrdBf16 a b _ => scalarOperand a ++ scalarOperand b
  | .accrdE4m3 a b _ => scalarOperand a ++ scalarOperand b
  | .accrdE5m2 a b _ => scalarOperand a ++ scalarOperand b
  | .accrdStat d a _ => needScalarDst d :: scalarOperand a
  | .accld a b _ _ _ => scalarOperand a ++ scalarOperand b
  | .negrel a _ => scalarOperand a
  | .ld d a b _ s w =>
    checks3 d w.regs a 2 b 1 ++ [noLit a, (.modifier, !s || w == .b8 || w == .b16)]
  | .ldq d a b _ => checks3 d 4 a 2 b 1 ++ [noLit a]
  | .st d a _ _ w => d.toSrc.groupCheck w.regs :: addressPair a
  | .stq d a _ _ => d.toSrc.groupCheck 4 :: addressPair a
  | .ldacq d a _ _ w => checks2 d w.regs a 2 ++ [noLit a]
  | .strel d a _ _ w => d.toSrc.groupCheck w.regs :: addressPair a
  | .atom d a o s _ c w =>
    checks2 d (grp w) a 2 ++
      [noLit a, (.modifier, !(w && o.isFloat)), (.modifier, c != .rlx || s == .wf)]
  | .cas d a s _ c w =>
    checks2 d (if w then 4 else 2) a 2 ++ [noLit a, (.modifier, c != .rlx || s == .wf)]
  | .red d a o s _ n y w =>
    d.toSrc.groupCheck (grp w) :: addressPair a ++
      [(.modifier, o != .exch), (.modifier, !(w && o.isFloat)), (.modifier, n || s == .wf),
       (.modifier, !y || o == .fadd)]
  | .watch a _ => addressPair a
  | .waitw d _ _ => [needScalarDst d]
  | .pref a _ _ => addressPair a
  | .cctlWb a _ => addressPair a
  | .cctlInv a _ => addressPair a
  | .cctlDemote a _ => addressPair a
  | .vld d a b _ _ _ w => checks3 d (grp w) a 2 b 1 ++ [noLit a]
  | .vst d a _ _ _ w => d.toSrc.groupCheck (grp w) :: addressPair a
  | .vfloor a b _ => scalarPair a ++ scalarOperand b
  | .vqry d a _ => checks2 d 4 a 2 ++ [noLit a]
  | .lds d a _ _ w => checks2 d w.regs a 1
  | .sts d _ _ _ w => [d.toSrc.groupCheck w.regs]
  | .feget d a _ => checks2 d 1 a 1
  | .feset a _ => addressPair a
  | .feclr a _ => addressPair a
  | .fewait a _ _ => addressPair a
  | .atoms d a b _ => checks2 d (if b == .cas then 2 else 1) a 1
  | .splook d a _ => checks2 d 1 a 1
  | .sptag d a b _ => checks3 d 1 a 1 b 1
  | .sptagInv d a _ => checks2 d 1 a 1
  | .spdesc d a _ => checks2 d 1 a 1
  | .shape d a b _ => needScalarDst d :: scalarPair a ++ scalarOperand b
  | .unshape b _ => scalarOperand b
  | .cpyin d a b _ _ => needScalarDst d :: needScalar a :: a.groupCheck 4 :: noLit a :: scalarPair b
  | .cpyout d a b _ _ => needScalarDst d :: needScalar a :: a.groupCheck 4 :: noLit a :: scalarPair b
  | .gather d a b _ => needScalarDst d :: scalarPair a ++ scalarPair b
  | .stage d _ => [needScalarDst d]
  | .ctab d a b _ => needScalarDst d :: scalarOperand a ++ scalarOperand b
  | .cpyq d a _ => needScalarDst d :: scalarOperand a
  | .bar a _ _ _ => scalarOperand a
  | .bara d a _ _ _ => needScalarDst d :: scalarOperand a
  | .barw a _ _ _ => scalarOperand a
  | .barq d _ _ _ => [needScalarDst d, d.groupCheck 2]
  | .qpush a _ _ _ => scalarPair a
  | .qpop d _ _ _ => [needScalarDst d, d.groupCheck 2]
  | .qpeek d _ _ _ => [needScalarDst d, d.groupCheck 2]
  | .qlen d _ _ => [needScalarDst d]
  | .tspawn _ b _ => addressPair b
  | .tcount d _ => [needScalarDst d]
  | .dlset a b => scalarOperand a ++ scalarOperand b
  | .dlstep a b => scalarOperand a ++ scalarOperand b
  | .dlq d => [needScalarDst d, d.groupCheck 2]
  | .enrd d _ => [needScalarDst d, d.groupCheck 2]
  | .ensave d a _ => needScalarDst d :: d.groupCheck 2 :: scalarOperand a
  | .enload d a b _ => needScalarDst d :: scalarOperand a ++ scalarPair b
  | .xperm d a b _ => needScalarDst d :: scalarPair a ++ scalarOperand b
  | .xred d a _ => needScalarDst d :: scalarPair a
  | .xbc d a _ => needScalarDst d :: scalarPair a
  | .xag d a _ => needScalarDst d :: scalarPair a
  | .frent d a => [needScalarDst d, d.groupCheck 4, needScalar a]
  | .frentLanes d => [needScalarDst d, d.groupCheck 4]
  | .frsetPc d a => [needScalarDst d, needScalar a]
  | .frsetPark d => [needScalarDst d]
  | .frsetUnpark d => [needScalarDst d]
  | .halt a => systemOperand 1 a
  | .haltResume a => systemOperand 1 a
  | .tlbinv d a _ => needScalarDst d :: d.groupCheck 4 :: systemOperand 4 a
  | .quiesce d a => needScalarDst d :: systemOperand 2 a
  | .quiesceStop d a => needScalarDst d :: systemOperand 2 a
  | .ctxswap d a => needScalarDst d :: systemOperand 2 a
  | .vreg d a => needScalarDst d :: d.groupCheck 2 :: scalarPair a
  | .vunreg d a => needScalarDst d :: scalarOperand a
  | .pgattr d a => needScalarDst d :: systemOperand 4 a
  | _ => []

/-- Every check of the instruction passes. -/
def Instr.wellFormed (i : Instr) : Bool := i.checks.all fun c => c.2

/-- The first check the instruction fails. -/
def Instr.firstFailed (i : Instr) : Option Check := (i.checks.find? fun c => !c.2).map fun c => c.1

end Sys2Proof
end

