-- ==== Sys2Proof/Config.lean ====
section
/-!
DEFINITION. The fixed sizes of the part (R5, R156, R246, R306, R326, R343), and the free values:
what the spec leaves open. A free value has no body, so nothing proved here knows it. Each is named
in the assumption log.
-/
namespace Sys2Proof.Config

/-- Lanes of a weft (R2). -/
def lanes : Nat := 32
/-- Slots of a quadrant (R5). -/
def slotsPerQuadrant : Nat := 256
/-- Physical vector registers of a quadrant (R156). -/
def vregsPerQuadrant : Nat := 8192
/-- Cores of a cluster, clusters of a die, dies of a package (R5). -/
def coresPerCluster : Nat := 6
def clustersPerDie : Nat := 8
def dies : Nat := 4
/-- Swatch records of a core (R156). -/
def swatchRecords : Nat := 16
/-- Scratchpad lines, accumulator tiles and negative slots of a core (R5). -/
def spadLines : Nat := 32768
def accTiles : Nat := 128
def negSlots : Nat := 16
/-- Copy-job places (R168) and enlarger row buffers (R214) of a core. -/
def jobPlaces : Nat := 32
def rowBuffers : Nat := 32
/-- Write-buffer entries of a core (R248). -/
def writeBuffer : Nat := 64
/-- Entries of each core TLB and of the cluster TLB (R315). -/
def coreTlb : Nat := 64
def clusterTlb : Nat := 4096
/-- Wake queue records (R235) and event queue records (R263). -/
def wakeQueue : Nat := 256
def eventQueue : Nat := 512
/-- Items of a hardware queue (R200). -/
def queueItems : Nat := 64
/-- Tasks of a launch's pool (R203). -/
def taskPool : Nat := 1048576
/-- Pending event list of a front end (R343) and wait slots of a partition (R343). -/
def pendingEvents : Nat := 512
def waitSlots : Nat := 64
/-- Regions of a partition (R326), accounts and deadline records of a cluster (R275). -/
def regionsPerPartition : Nat := 64
def accounts : Nat := 16
/-- Operations of a die's collective engine (R389). -/
def collectives : Nat := 16
/-- Records of a die's home barrier table (R324). -/
def homeBarriers : Nat := 4096
/-- The safelight's limit (R124), the age rows of R162 and R231. -/
def safelightLimit : Nat := 1048576
def issueAge : Nat := 4096
/-- Slower work (write-buffer drains, R248, and updates on their way, R318) goes before the wefts at every turn
that this divides (log 1). -/
def slowEvery : Nat := 16
def bagAge : Nat := 65536
/-- Nanoseconds after which a queue is served a level up (R351). -/
def queueAge : Nat := 1000000
/-- Instruction cache lines (R261) and watch entries of a weft (R259). -/
def icacheLines : Nat := 8192
/-- Its ways (R246), and the sets they leave. -/
def icacheWays : Nat := 8
def icacheSets : Nat := icacheLines / icacheWays
def watchEntries : Nat := 8
/-- Entries of a slice's watch table (R246) and of a die's waiter table (R326). -/
def watchTable : Nat := 65536
def waiterTable : Nat := 65536
/-- Dies that a region's sharer set names exactly (R338). -/
def exactSharers : Nat := 64

/-- FREE VALUE: cluster cycles and nanoseconds that the n-th issue step takes (log 9). -/
opaque issueCycles : Nat → Nat
opaque issueNanos : Nat → Nat

/-- FREE VALUE: the populated size of the dies of other packages, by package and die (R309, log 16). -/
opaque awayPopulated : Nat → Nat

/-- FREE VALUE: the hash by which a full watch table or waiter table keeps a sector (R259, R340, log 103). -/
opaque sectorHash : Nat → Nat

/-- FREE VALUE: the dies that a roll group's member on another package has for a cmask, as a mask: by package, partition and cmask
(R396, log 108). Free: that package's partition record is not read from here. -/
opaque memberDies : Nat → Nat → Nat → Nat

/-- FREE VALUE: how many of an interval's fillers are exposures, by free counter (R281, log 104). -/
opaque fillers : Nat → Nat

/-- FREE VALUE: what the slip and the dependence-stall counter gain by the n-th issue step (log 9). -/
opaque slipCycles : Nat → Nat
opaque stallCycles : Nat → Nat

/-- FREE VALUE: a byte of memory the spec calls undefined, by free counter and address (log 11). -/
opaque undefinedByte : Nat → Nat → BitVec 8

/-- FREE VALUE: whether two reductions of a merge page combine before they reach the home, by free
counter; it decides the shape of the tree of R257 (log 10). -/
opaque combines : Nat → Bool

/-- FREE VALUE: the interpolated word for what the spec names without a value, by free counter. -/
opaque freeWord : Nat → BitVec 32

/-- FREE VALUE: the digest of what a collective's members must agree on (R401, log 119). -/
opaque collDigest : List Byte → BitVec 32

/-- FREE VALUES of the boot ROM's cryptography, which the spec names by standard and does not
define: SHAKE256 to n bytes (FIPS 202), SLH-DSA verification and signing (FIPS 205), and the
derivation of the identity key from the fused seed (log 7). -/
opaque shake256 : List Byte → Nat → List Byte
opaque slhVerify : List Byte → List Byte → List Byte → Bool
opaque slhSign : List Byte → List Byte → List Byte
opaque identityKey : List Byte → List Byte

end Sys2Proof.Config
end

