-- ==== Sys2Proof/Machine/State.lean ====
section
/-!
DEFINITION. Everything the spec gives the machine, as plain data, and the state after reset.
A structure's docstring cites the rule that names the state; INVENTORY.md lists every field with
its reset value. Sparse storage is a `Tab` (keys strictly rising); what an absent key stands for
is said at each field.
-/
namespace Sys2Proof.Machine

/-! ## Wefts -/

/-- A frontier entry (R99): next word, header of its clause, priority, lanes, and the barrier-wait
bit a snapshot keeps (R120). -/
structure Entry where
  pc : Word
  hdr : Word
  prio : Nat
  mask : Mask
  barWait : Bool
  deriving DecidableEq, Repr

/-- State of a logical vector register that has been written once (R99, R109, R112). -/
inductive VCell
  | live (x : Lanes)
  | freed
  deriving DecidableEq, Repr

/-- State of a logical scalar register that has been written once. -/
inductive SCell
  | live (x : Word)
  | freed
  deriving DecidableEq, Repr

/-- A poison mark with what its trap reports (R116, R122). -/
structure Poison where
  addr : DWord
  pc : Word
  lanes : Mask
  deriving DecidableEq, Repr

/-- A trap about to be taken: the fields of its row of R116. -/
structure Trap where
  cause : Nat
  lanes : Mask
  addr : DWord
  info : Word
  done : Mask
  deriving DecidableEq, Repr

/-- The trap record (R115), with the frontier snapshot. -/
structure TrapRec where
  tcause : Word
  tpc : Word
  tlanes : Mask
  tdone : Mask
  taddr : DWord
  tinfo : Word
  twinV : Nat
  twinS : Nat
  tfst : BitVec 6
  tscr : Tab Word          -- absent: 0
  snap : List Entry
  deriving DecidableEq, Repr

/-- Boundary traps made pending (R120), in the order they are taken; of one cause the oldest first. -/
structure Pending where
  copyError : List (DWord × Word)
  arrayMismatch : List Word
  deadlineRisk : List Word
  hang : Bool
  deriving DecidableEq, Repr

/-- What a weft waits for (R8, R190). -/
inductive WaitForm
  | fullEmpty (lines : List Nat) (wantFull : Bool)
  | watch
  | qpush (q : Nat) (item : DWord)
  | qpop (q : Nat)
  | qpeek (q : Nat)
  | bar (sc : BarScope) (n phase : Nat)
  | barw (sc : BarScope) (n phase : Nat)
  | version (on : List (Nat × Nat × Nat × Mask)) (isStore pool hashed : Bool)   -- region, sector, version, lanes
  | jobsDone (record : Nat)
  | halt (ctx : Word)
  | quiesce (part : Nat)
  | tlbinv (ctx : Word) (gen : Nat) (words : List Word)
  deriving DecidableEq, Repr

/-- The clause being executed (R16 to R21): its header words, and whether its wait test is made
(R104). -/
structure Clause where
  h0 : Word
  h1 : Word
  tested : Bool
  deriving DecidableEq, Repr

/-- The wait state of R232: the waiting instruction with its clause, its form, the flag it holds, whether an event
has ended the wait, an item handed over (R201), and the lanes already performed (R332, R409). -/
structure Wait where
  instr : Instr
  cl : Clause
  form : WaitForm
  flag : Nat
  woken : Bool
  item : Option DWord
  done : Mask
  deriving DecidableEq, Repr

/-- What an instruction in flight still does besides writing registers. -/
inductive FlightKind
  | plain
  | exposure (slot : Nat)
  | enlarger
  | spadWrite (bytes : Tab Byte) (descs : Tab Word)
  | copyJob (core job : Nat)
  | collective (die op : Nat)
  | barHeld (sc : BarScope) (n phase : Nat)
  | floor (region : Nat)
  | unshape (record : Nat)
  | acks                            -- until other packages have acknowledged (R249)
  deriving DecidableEq, Repr

/-- An access to another package on its way: a read of a sector, or a lane's atomic, with its answer's bytes and
whether they are uncorrectable once it has one (R395). -/
structure Away where
  lane : Option Nat
  addr : Nat
  txn : Nat
  answer : Option (List Byte × Bool)
  deriving DecidableEq, Repr

/-- A long-latency instruction that has issued and not completed (R103, R105). Its registers are
pending. `lanes` tells a clause's own counts from others' (R104). -/
structure Flight where
  flag : Nat
  pc : Word
  vwr : List (Nat × Mask × Lanes)
  swr : List (Nat × Word)
  poison : Option Poison
  fst : BitVec 6
  kind : FlightKind
  lanes : Mask                      -- of the entry that issued it (R104)
  gen : Nat                         -- translation generation of its context at issue (R316)
  deriving DecidableEq, Repr

/-- An entry of the watch set (R259). -/
structure WatchEntry where
  sector : Nat
  fired : Bool
  hashed : Bool                     -- its home's table was full: watched by sector hash
  deriving DecidableEq, Repr

/-- One load of a loupe iteration: its pc, the sectors it touched (scratchpad ones marked), and
the values it returned (R237). -/
structure LoupeLoad where
  pc : Word
  sectors : List (Bool × Nat)
  values : List Word
  deriving DecidableEq, Repr

/-- The loupe's tracking of a top entry (R237) and its classification with the implicit watch (R238). -/
structure Loupe where
  tracking : Bool
  branch : Word
  target : Word
  ok : Bool
  clauses : Nat
  loads : List LoupeLoad
  lastLoads : Option (List LoupeLoad)
  count : Nat
  polling : Bool
  watch : List (Bool × Nat)
  fired : Bool                      -- a watched sector has been written
  stale : List (Bool × Nat)         -- sectors of the loop written since its last load of them
  deriving DecidableEq, Repr

/-- Roles of wefts (R161). -/
inductive Role
  | general | load | math | store
  deriving DecidableEq, Repr

/-- Where a weft is (R231, R232). -/
inductive Place
  | absent
  | slot (quad ix : Nat)
  deriving DecidableEq, Repr

/-- Why a weft is stopped for good (R121, R241). -/
inductive Halted
  | double (second : Nat)
  | image
  deriving DecidableEq, Repr

/-- A weft (R44, R45, R99). -/
structure Weft where
  role : Role
  task : Option (List DWord)        -- per-lane argument pointers of a task weft (R362)
  place : Place
  started : Bool                    -- it has been loaded once (R159)
  ended : Bool
  halted : Option Halted
  leaving : Option Bool             -- marked by the bag (R232); true: under row 4
  frontier : List Entry             -- selection order, the running entry first (R101)
  parked : Tab (Word × Word)        -- parked lanes with their kept pc and hdr
  exited : Mask
  clause : Option Clause
  vregs : Tab VCell                 -- absent: unwritten, reads 0 (R46)
  sregs : Tab SCell                 -- absent: unwritten, reads 0 (R46)
  vmap : Tab Nat                    -- physical register of each allocated one, within the weft's share (R99)
  smap : Tab Nat
  preds : Tab Mask                  -- absent: false in every lane
  flags : Tab Nat                   -- absent: 0
  vwin : Nat                        -- vbase / 16
  swin : Nat                        -- sbase / 16
  fstat : BitVec 6
  hangen : Bool
  ctlfrt : Bool
  hng : Bool
  frd : Bool
  vbud : Nat
  sbud : Nat
  vpoison : Tab Poison
  spoison : Tab Poison
  latch : List Nat                  -- reuse latch: register codes held (R111)
  trapMode : Bool
  trec : TrapRec
  replay : Tab Mask                 -- by pc: lanes of tdone to skip at the first issue of the word there (R119)
  pend : Pending
  late : Option Trap                -- R409, recorded in an absent weft's image
  wait : Option Wait
  barSaved : Option Wait            -- the BAR wait a trap interrupted (R120, R138)
  flights : List Flight
  watch : List WatchEntry
  away : List Away                  -- of the word that it is issuing (R395)
  slip : Nat
  dstall : Nat
  rot : Nat
  safelight : Nat
  hangPosted : Bool
  topMask : Mask                    -- lanes of the entry that issued the last clause (R124, R237)
  loupe : Loupe
  readySince : Nat                  -- turns at which the ages of R162 and R231 began
  candSince : Nat
  runSince : Nat
  resSince : Nat
  absentSince : Nat
  spilled : Bool                    -- its image stands in the spill area (R234)
  fresh : Bool                      -- loaded by the bag and not yet issued a clause (R231)
  passed : Bool                     -- stopped at its breakpoint already, goes on with the same entry (R155)
  deriving DecidableEq, Repr

/-! ## Swatches -/

/-- A barrier record (R195), with the members that have arrived in the open phase and what a
phase's first arrival fixed (R198). -/
structure BarRec where
  phase : Nat
  zmode : Bool
  expected : Nat
  arrived : Nat
  who : List Nat
  deriving DecidableEq, Repr

/-- A partial count of a unit for a higher scope (R227, R228): members counted and the count they
carried; whether the unit has arrived one level up; and the weft whose end has made an arrival due. -/
structure Partial where
  who : List Nat
  carried : Nat
  sent : Bool
  due : Option (Nat × Nat)
  deriving DecidableEq, Repr

/-- A hardware queue with its waiting lists (R200). -/
structure HwQueue where
  items : List DWord
  poppers : List Nat
  pushers : List (Nat × DWord)
  deriving DecidableEq, Repr

/-- An accumulator tile: nonzero words by 64·row + column, its status word (R205, R206). -/
structure Tile where
  words : Tab Word                  -- absent: +0
  nx : Bool
  uf : Bool
  ofl : Bool
  nv : Bool
  lost : Bool
  poison : Bool
  dual : Bool
  deriving DecidableEq, Repr

/-- A negative slot (R205): contents as 8 KiB of nonzero bytes, descriptors by block, and whether
uncorrectable data was loaded. -/
inductive NegSlot
  | empty
  | narrow (bytes : Tab Byte) (descs : Tab Word) (bad : Bool)
  | complex (bytes : Tab Byte) (bad : Bool)
  deriving DecidableEq, Repr

/-- A pinned 64 KiB granule of a shape record, with the size of its page (R169, R317). -/
structure Pin where
  va : Nat
  pa : Nat
  shift : Nat
  desc : Bool
  deriving DecidableEq, Repr

/-- A shape record (R169, R187). -/
structure Shape where
  base : Nat
  wr : Bool
  coded : Bool
  described : Bool
  ndim : Nat
  esz : Nat
  ext : List Nat
  str : List Int
  tile : List Nat
  sbase : Nat
  slen : Nat
  table : Option (List Nat)
  pins : List Pin
  deriving DecidableEq, Repr

/-- An entry of the static copy schedule as read at placement (R178). -/
structure SchedEntry where
  w0 : Word
  spad : Nat
  org : List Nat
  advance : Int
  w7 : Word
  deriving DecidableEq, Repr

/-- Status of a job the engine remembers (R194). -/
structure JobStatus where
  lines : Nat
  err : Nat
  state : Nat
  deriving DecidableEq, Repr

/-- A descriptor fault a job left behind (R177): lines left empty, segment address, descriptor. -/
structure DescFault where
  job : Nat
  lines : List Nat
  addr : DWord
  desc : Word
  deriving DecidableEq, Repr

/-- Kinds of copy job. -/
inductive JobKind
  | cpyin | cpyout | gather | firmware
  deriving DecidableEq, Repr

/-- A copy job in flight (R168 to R177, R265): the swatch and the shape record it uses, its origin or
the rows of a GATHER, its scratchpad address and size; or the physical ranges of a firmware job. `lines`
counts the 128-byte units done, `pos` the bytes of a stream read; `err` is the code of R194. -/
structure Job where
  num : Nat
  sid : Nat
  kind : JobKind
  ring : Bool
  record : Nat
  shape : Shape
  org : List Nat
  rows : List Nat
  spad : Nat
  bytes : Nat
  src : Nat
  dst : Nat
  begun : Bool
  lines : Nat
  pos : Nat
  err : Nat
  badDesc : DWord × Word
  away : List Away                  -- reads of its next line (R395)
  owner : Nat                       -- the weft whose flag it holds
  deriving DecidableEq, Repr

/-- Where a swatch stands (R157, R160, R240, R366). -/
inductive SwPlace
  | waiting                         -- never placed, ready for the distributor
  | placed (core rec : Nat)
  | saved (back : Bool)             -- saved through the shadow store; `back`: at the distributor (R364)
  | shadow (core rec : Nat)         -- held by CTXSWAP for its context
  | released
  deriving DecidableEq, Repr

/-- A swatch with all it owns (R156, R160). A control core is a swatch of its own with one weft
(R262): `control` holds its cluster. -/
structure Swatch where
  ctx : Word
  launch : Nat
  control : Option Nat
  place : SwPlace
  swi : Nat
  boi : Nat
  bai : Nat
  linear : Nat
  cluster : Nat
  spline : Nat
  spsize : Nat
  accMap : List Nat
  negMap : List Nat
  cap : Nat
  nwf : Nat
  barriers : Nat
  queues : Nat
  heavy : Nat
  deferTo : Option Nat              -- cluster cycle of its first issue while deferred (R280)
  firstPlaced : Bool
  jobs : Nat
  jobLog : Tab JobStatus
  descFaults : List DescFault
  sched : List SchedEntry
  schedPos : Nat
  schedPass : Nat
  spad : Tab Byte                   -- absent: 0
  spadBad : List Nat                -- scratchpad sectors holding uncorrectable data
  full : List Nat                   -- full lines, rising
  descs : Tab Word                  -- by 64-byte block; absent: raw
  bars : Tab BarRec                 -- absent: phase 0, nothing arrived
  parts : Tab Partial               -- by 32·scope + number
  hwq : Tab HwQueue                 -- absent: empty
  tags : Tab Word                   -- by slot index; absent: invalid
  shapes : Tab Shape
  tiles : Tab Tile                  -- absent: +0 and status 0
  negs : Tab NegSlot                -- absent: empty
  savedJobs : List Job
  wefts : Tab Weft
  deriving DecidableEq, Repr

/-! ## Cores and clusters -/

/-- A write-buffer entry: the bytes written of one sector (R248). -/
structure WbEntry where
  sector : Nat
  bytes : Tab Byte                  -- by offset 0 to 31
  deriving DecidableEq, Repr

/-- A TLB entry (R315). -/
structure TlbEntry where
  ctx : Word
  gen : Nat
  va : Nat
  shift : Nat
  leaf : DWord
  deriving DecidableEq, Repr

/-- A barrier wake message on its way to a core (R229). -/
structure WakeMsg where
  sc : BarScope
  n : Nat
  phase : Nat
  launch : Nat
  group : Nat
  deriving DecidableEq, Repr

/-- A wake record (R236). -/
structure WakeRec where
  kind : Nat
  arg : Nat
  sid : Nat
  wid : Option Nat
  value : Word
  deriving DecidableEq, Repr

/-- What a core holds besides its swatches (R156, R248, R315, R366). -/
structure Core where
  jobs : List Job
  fwJobs : Nat
  wbuf : List WbEntry
  tlb : List TlbEntry
  wakeMsgs : List WakeMsg
  wakeQ : List WakeRec
  recent : Tab (Nat × Nat)          -- by quadrant: the most recently issued weft (R162)
  before : Tab (Nat × Nat)          -- `recent` before the turn that is being taken
  stopped : Bool
  vacated : Bool
  shadow : Option Word
  spillBlocked : Bool
  incoming : Option (Nat × Nat)     -- the bag's chosen weft while another leaves
  deriving DecidableEq, Repr

/-- What a line of a slice holds: memory, a version of a region's sectors (R338), or the barrier records of a bolt
(R227). -/
inductive SliceTag
  | mem
  | version (region n : Nat)
  | bolt (launch bolt : Nat)
  deriving DecidableEq, Repr

/-- A slice line (R247): 128-byte line number, valid sectors, those held with ownership (no other slice of the die
holds them) and those that are dirty, pinned. LRU order in the list. A bolt's barrier records stand in pinned lines
with numbers of their own, above those of memory (R227, log 100). -/
structure SliceLine where
  line : Nat
  valid : List Nat
  owned : List Nat
  dirty : List Nat
  tag : SliceTag
  deriving DecidableEq, Repr

/-- An instruction cache line: context, 64-byte line of the code segment, its words (R261). -/
structure ILine where
  ctx : Word
  line : Nat
  words : List Word
  deriving DecidableEq, Repr

/-- A stretch of reference time: issues made at its end, and cluster cycles run within it (R285). -/
structure Sample where
  start : Nat
  stop : Nat
  issues : Nat
  cycles : Nat
  deriving DecidableEq, Repr

/-- A deadline record (R284) with what the window of R285 looks back on, newest first. -/
structure Deadline where
  opened : Bool
  n : Word
  due : Nat
  work : Nat
  issues : Nat
  owner : Option (Nat × Nat)
  risk : Bool
  log : List Sample
  rho : Option (Nat × Nat)
  deriving DecidableEq, Repr

/-- The ballast injector (R281, R282): weighted issue energy by context in the last interval and in the running one,
the last interval's estimate with its fillers and its voltage, and the context to which running ballast is charged. -/
structure Ballast where
  prev : Tab Nat
  cur : Tab Nat
  total : Nat
  mv : Nat
  departing : Option Word
  deriving DecidableEq, Repr

/-- An account entry (R275, R287 to R294). -/
structure Account where
  ctx : Word
  count : Nat
  sat : Bool
  read : Bool
  ballast : Bool
  deriving DecidableEq, Repr

/-- A record of the control core's event queue (R263). -/
structure EvRec where
  kind : Nat
  arg : Nat
  ctx : Word
  data0 : Word
  data1 : Word
  deriving DecidableEq, Repr

/-- Power gating (R278). -/
inductive Gating
  | on
  | starting
  | off
  | waking (sid since : Nat)        -- the dispatched swatch, and tim at the wake's begin
  deriving DecidableEq, Repr

/-- Why a cluster clock stands (R276). -/
inductive ClockState
  | running
  | relock (target : Nat)
  | throttle
  deriving DecidableEq, Repr

/-- A cluster (R246, R275). -/
structure Cluster where
  slice : List SliceLine
  icache : List ILine
  away : List Away                  -- reads of code (R395)
  tlb : List TlbEntry
  store : Tab Byte                  -- the control core's local store (R262)
  fwEntry : Word
  evq : List EvRec
  evOvf : Bool
  evLost : Nat
  cpSrc : DWord
  cpDst : DWord
  cpLen : Word
  cpCore : Word
  cpJob : Word
  clk : Nat
  clock : ClockState
  stopAt : Nat                      -- tim at the last stop of the clock (R277)
  fcur : Nat
  fdefault : Nat
  fsw : Nat
  volt : Nat
  vf : Tab Word                     -- by step; absent: 0
  gateEn : Bool
  gating : Gating
  idleTicks : Nat
  weights : Tab Nat                 -- by class, where software has changed it (R290)
  enstatic : Word
  unattr : Nat
  accounts : List Account
  resid : Tab Nat                   -- r_c of the running period, by context id
  deadlines : Tab Deadline          -- by context id
  ballast : Ballast
  lastCore : Nat
  placedK : Tab (Nat × Nat)         -- by launch: swatches first placed here, and the first one's cycle (R280)
  deriving DecidableEq, Repr

/-! ## Dies -/

/-- A remote copy of a sector (R318). -/
structure Copy where
  bytes : List Byte
  seq : Nat
  deriving DecidableEq, Repr

/-- A write on its way to another die's home. -/
structure RemoteWrite where
  core : Nat
  sector : Nat
  bytes : Tab Byte
  deriving DecidableEq, Repr

/-- A notice of a stamped write (R319). -/
structure Notice where
  writer : Nat
  stamp : List Nat
  sector : Nat
  update : Option Copy
  deriving DecidableEq, Repr

/-- A host event-ring record (R354): its eight words, and the queue whose sticky record it is (R353). -/
structure RingRec where
  ctx : Word
  words : List Word
  queue : Option Nat
  deriving DecidableEq, Repr

/-- What a held packet waits for (R348, R350, R352): a word at or above a value, done counts, every earlier packet, or
the acknowledgement of its writes. -/
inductive Held
  | word (pa val : Nat)
  | counts (pairs : List (Nat × Nat))
  | earlier
  | acks                            -- its writes are performed, other packages have yet to say so (R249)
  | members                         -- a roll launch, until every member has accepted or refused its record (R396)
  deriving DecidableEq, Repr

/-- A sector of another package that a front end reads for the packet at an index of its queue (R395). -/
structure FrontRead where
  idx : Nat
  sector : Nat
  txn : Nat
  deriving DecidableEq, Repr

/-- The front end's state of a command queue beyond its descriptor in memory (R347 to R352). A WAIT or
QBARRIER that is held has a wait slot. -/
structure QState where
  ctx : Word
  q : Nat
  parked : Bool
  held : Option (Nat × Held)        -- index of a WAIT, QBARRIER or FENCE not yet completed
  aged : Bool
  waited : Nat                      -- nanoseconds it has been eligible and unserved (R351)
  reads : List FrontRead
  deriving DecidableEq, Repr

/-- Phases of a collective (R401): `written` waits until other packages have acknowledged its destination. -/
inductive CollPhase
  | prepare | data | written | done
  deriving DecidableEq, Repr

/-- What a member's messages have said of an operation (R401, log 119): its verdict, a status with the digest of what it
asks, and its source as far as it has come, with a byte for each sector that says whether it is uncorrectable. -/
structure CollMail where
  key : Nat                         -- 65536·form + tag
  issue : Nat
  pkg : Nat
  verdict : Option (Nat × Word)
  data : List Byte
  deriving DecidableEq, Repr

/-- A collective held by a die's engine (R399 to R402): its issue count, the packages of its list, the digest of what
it asks, its pages as pinned at issue, the region of an XPERM, how many sectors have their version reserved, what it has
told the other members, and its reads of other packages. -/
structure Coll where
  id : Nat
  form : Nat
  sid : Nat
  wid : Nat
  ctx : Word
  ver : Nat
  desc : List Byte
  members : List Nat
  issue : Nat
  pins : List Pin
  region : Option Nat
  phase : CollPhase
  status : Nat
  digest : Word
  reserved : Nat                    -- leading sectors whose version is reserved
  told : Bool                       -- the others have its verdict
  shared : Bool                     -- the others have its source
  away : List Away
  deriving DecidableEq, Repr

/-- Migration CSRs (R405). -/
structure Migration where
  track : Bool
  bmap : DWord
  base : Word
  pages : Word
  xfer : Word
  deriving DecidableEq, Repr

/-- A die (R306, R343, R389). -/
structure Die where
  links : Tab Nat                   -- links of the interleave set with their capacity in GiB (R307)
  clock : List Nat
  copies : Tab Copy                 -- by sector
  seqs : Tab Nat                    -- sequence number of each sector homed here
  out : List RemoteWrite
  notices : List Notice
  ptabLo : Word
  ptabHi : Word
  pendEv : List RingRec
  spctx : Word
  fhost : Word
  fpsel : Word
  mig : Migration
  colls : List Coll
  collSeq : Nat
  rrLast : Tab Nat                  -- by level: the queue last served (R351)
  deriving DecidableEq, Repr

/-! ## Contexts, partitions, launches, regions -/

/-- A context as the front end serves it (R345), with what the part keeps for it. -/
structure Ctx where
  part : Nat
  sys : Bool
  root : Nat
  code : Nat
  csize : Nat
  qtab : Nat
  nq : Nat
  ering : Nat
  elsize : Nat
  gen : Nat
  spBase : Nat
  spPages : Nat
  spLo : Option Word                -- written and not yet committed (R235)
  spHi : Option Word
  savedSum : Nat
  savedSat : Bool
  halted : Bool
  deriving DecidableEq, Repr

/-- A QUIESCE in progress (R364, R369): its cores, whether it is .stop, and the cores whose markers have
returned. -/
structure Quiesce where
  cores : List Nat
  marks : Tab Nat                   -- by core: its firmware jobs numbered so far are ahead of its marker (R265)
  stop : Bool
  returned : List Nat
  deriving DecidableEq, Repr

/-- A partition record as applied (R344). -/
structure Part where
  clusters : Nat
  nctx : Nat
  ctab : Nat
  gtab : Nat
  ngrp : Nat
  launches : Nat
  active : Option Word
  noCtx : Bool
  quiesce : Option Quiesce
  deriving DecidableEq, Repr

/-- A task in a pool (R203). -/
structure Task where
  sid : Nat
  entry : Word
  arg : DWord
  since : Nat                       -- cluster cycle of its spawning (R362)
  deriving DecidableEq, Repr

/-- A roll launch, as one member of its group sees it (R396): the rank of its first die and the number of dies ranked, the
group's members, where bale 0 is homed (package and die), the partition and launch number there, which name the launch
between members, the members that have not reported completion, and the bales of others with a weft not ended. -/
structure Roll where
  first : Nat
  dies : Nat
  members : List (Nat × Nat)        -- package and partition, in table order
  home : Nat × Nat
  number : Nat × Word
  waits : Nat
  away : List Nat
  deriving DecidableEq, Repr

/-- A launch (R356 to R358) with its record's fields (R42), its barrier records of higher scopes
(R227; key: group, scope and number) and its task pool (R202). -/
structure Launch where
  ctx : Word
  part : Nat
  num : Word
  lrec : Nat
  origin : Option (Nat × Nat)       -- queue and packet index
  node : Option (Nat × Nat)         -- graph run and node
  coreset : List Nat                -- clusters, ascending
  roles : Nat
  roleRec : Tab (Word × Nat × Nat × Nat)
  swatches : Nat
  bolts : Nat
  bales : Nat
  hang : Bool
  frt : Bool
  stagger : Nat
  trapvec : Word
  args : DWord
  dline : Option (Nat × Nat)        -- default deadline and work (dlv)
  roll : Option Roll                -- none: the partition is alone, or the launch is a graph node's (log 108)
  sched : Option Nat
  startedOn : List Nat              -- dies that have allocated its records (R324)
  left : Nat                        -- swatches not released
  pool : List Task
  liveTasks : Nat
  bars : Tab BarRec
  parts : Tab Partial
  done : Bool
  deriving DecidableEq, Repr

/-- A GRAPH packet in progress (R359 to R361). -/
structure GraphRun where
  ctx : Word
  q : Nat
  idx : Nat
  gtab : Nat
  cmask : Nat
  swHeld : Tab Nat                  -- node with a sw edge: its partner node
  started : List Nat
  finished : List Nat
  deriving DecidableEq, Repr

/-- A packet that has started and not completed, with its completion write (R349, R350). -/
structure Finish where
  ctx : Word
  q : Nat
  idx : Nat
  kind : Nat
  evt : Bool
  dadr : Option Nat
  dval : DWord
  page : Option Pin                 -- the page of dadr, pinned until dval is written (R352)
  deriving DecidableEq, Repr

/-- One version of a sector (R327). -/
structure Version where
  n : Nat
  bytes : List Byte
  bad : Bool
  deriving DecidableEq, Repr

/-- A sector of a versioned region: existing versions, rising, and reservations of XPERM (R402). -/
structure VSector where
  vers : List Version
  reserved : List Nat
  deriving DecidableEq, Repr

/-- A floor on its way (R335): the new floor, the dies that have not acknowledged it, and the weft whose
VFLOOR it is. -/
structure FloorOp where
  floor : Nat
  await : List Nat
  sid : Nat
  wid : Nat
  deriving DecidableEq, Repr

/-- A versioned region (R326, R328). A sector absent from `sectors` holds version 0 alone. -/
structure Region where
  part : Nat
  rid : Nat
  die : Nat
  vbase : Nat
  size : Nat
  depth : Nat
  floor : Nat
  dir : Nat
  pool : Nat
  pslots : Nat
  img : Bool
  sectors : Tab VSector
  sharers : List Nat
  broadcast : Bool                  -- more dies than the set names (R338)
  floorCopy : Tab Nat
  pendFloors : List FloorOp
  deriving DecidableEq, Repr

/-! ## The package -/

/-- A fabric port (R389 to R394): what it has sent and not had acknowledged (`replay`), the flits it has put
on its link (`wire`), and the bytes received of a message that is not yet whole (`partial_`). -/
structure Port where
  up : Bool
  gen : Nat
  fenced : Bool
  retrains : Nat
  naks : Nat
  expect : Nat
  nakRun : Nat
  sendSeq : Nat
  replay : List (List Byte)
  wire : List (List Byte)
  partial_ : List Byte
  deriving DecidableEq, Repr

/-- A final transfer as the sequencer sends it (R407): the destination, the source partition, its status, and
the partition's cores, swatches, launches, regions, queues, graphs, packets not completed, deadline records, and
collectives with their issue counts. -/
structure Transfer where
  spkg : Nat
  dpkg : Nat
  dpart : Nat
  part : Nat
  status : Nat
  active : Option Word              -- the context that the cores hold
  numbers : Nat                     -- launch numbers given so far (R356)
  clusters : List Nat               -- ascending
  cores : Tab Core
  swatches : Tab Swatch
  launches : Tab Launch
  regions : Tab Region
  queues : List QState
  graphs : Tab GraphRun
  finishes : List Finish
  deadlines : Tab (Tab Deadline)
  colls : Tab (List Coll)           -- by die
  mail : List CollMail
  issues : Tab Nat                  -- the partition's part of collIssues
  spill : Tab (Nat × Nat)           -- by context: base and pages of its spill area (R235)
  deriving DecidableEq, Repr

/-- The boot ROM's progress (R381, R382). -/
inductive Boot
  | held
  | starting
  | startingMinimal
  | full
  | minimal
  | failed
  deriving DecidableEq, Repr

/-- What the debugger can have a context stop after (R245): a save by the bag, a phase change of a barrier of the
context, a classification or a served wake record of a swatch, an entry to a handler. -/
inductive Catch
  | save
  | phase (sc : BarScope) (n : Nat)
  | polling (swi : Nat)
  | wake (swi : Nat)
  | trap
  deriving DecidableEq, Repr

/-- A host's atomic on a page that is no system page, which has read and not yet written (R258): its message, the value
it read, and the value it will write. -/
structure HostRmw where
  msg : Msg
  old : Nat
  new : Option Nat
  deriving DecidableEq, Repr

/-- The package outside its dies (R375, R376, R389). -/
structure Package where
  boot : Boot
  fsc : Nat
  reasons : List Word
  minimal : Bool
  repl : Bool
  fclus : Nat
  flink : List Nat
  fport : Nat
  fd2d : Nat
  fcore : List Nat
  plimit : Nat
  ppower : Nat
  fctl : Nat
  cecnt : List Nat
  cethr : Nat
  mrs : List (List Byte)
  flash : List (List Byte)
  flashVer : List Nat
  fusedVer : List Nat
  vendorKey : List Byte
  seed : List Byte
  fpkg : Nat
  routes : Tab (List Nat)           -- by package, or 4096 + adapter: its ports
  fwd : Tab Nat
  ports : Tab Port                  -- absent: not trained
  sent : List Msg                   -- not yet in flits
  unacked : List Msg                -- requests not yet answered
  nextTxn : Nat
  discarded : Nat                   -- writes to no memory, counted as uncorrectable errors (R308, R395)
  hostRmw : List HostRmw            -- host atomics between their read and their write (R258)
  collMail : List CollMail
  collIssues : Tab Nat              -- by 262144·partition + 65536·form + tag
  transfers : List Transfer
  arrived : List Msg                -- of migrations to this package
  landed : Tab Transfer             -- by die: the state that arrived with them
  alerts : Nat
  reports : List (List Byte)
  breaks : List (Word × Word)
  catches : List (Word × Catch)
  stoppedCtx : List Word
  deriving DecidableEq, Repr

/-- A move chosen outside the machine: an event, the passage of time, which weft issues, and the
liberties R315, R259, R261, R318 and R122 leave to the part; the live state of a migrated partition, whose form in
messages the spec does not give (R407, log 107); what the members of a roll group tell each other of a launch (R396, log
108); and the board manager and debugger (R388). -/
inductive Move
  | event (i : Instr)
  | elapse (ns cycles : Nat)
  | hostWrite
  | periodEnd (cl : Nat)
  | govern (cl : Nat)
  | gate (cl : Nat)
  | ballast (cl exposures : Nat)
  | issue (sid wid : Nat)
  | dropTlb (core : Nat)
  | dropLine (cl line : Nat)
  | dropCopy (die sector : Nat)
  | corrupt (sector : Nat)
  | corruptSpad (sid sector : Nat)
  | corruptTile (sid tile : Nat)
  | corruptNeg (sid slot : Nat)
  | corruptImage (sid wid : Nat) (vregs sregs : List Nat) (other : Bool)
  | boardLimit (watts : Nat)
  | openDebug (digest : List Byte)
  | rollVerdict (ctx : Word) (q num : Nat) (ok : Bool)
  | rollJoin (part lrec cmask num : Nat)
  | rollReport (launch : Nat)
  | rollBaleEnds (launch bale : Nat)
  | stateArrives (die : Nat) (t : Transfer)
  | setBreak (ctx pc : Word)
  | delBreak (ctx pc : Word)
  | setCatch (ctx : Word) (c : Catch)
  | delCatch (ctx : Word) (c : Catch)
  deriving DecidableEq, Repr

/-- Memory: the bytes written, by address, in the canonical form of `Memory.wf`. -/
abbrev Memory := List Host.Cell

/-- The whole machine: one package, its memory, and the model's own scheduling data
(`agenda`, `turn`, `free`, `issuer`, `nextSid`). -/
structure State where
  mem : Memory                      -- by global physical address; absent: 0 (log 6)
  bad : List Nat                    -- sectors holding uncorrectable data, rising
  tim : Nat
  swatches : Tab Swatch
  cores : Tab Core
  clusters : Tab Cluster
  dies : Tab Die
  ctxs : Tab Ctx                    -- by context id
  parts : Tab Part
  queues : List QState
  launches : Tab Launch
  graphs : Tab GraphRun
  finishes : List Finish
  regions : Tab Region
  pkg : Package
  agenda : List Move
  turn : Nat
  free : Nat
  issuer : Option (Nat × Nat)
  nextSid : Nat
  nextLaunch : Nat
  deriving DecidableEq, Repr

/-! ## Reset -/

def TrapRec.empty : TrapRec :=
  { tcause := 0, tpc := 0, tlanes := 0, tdone := 0, taddr := 0, tinfo := 0, twinV := 0, twinS := 0
    tfst := 0, tscr := [], snap := [] }

def Pending.none : Pending :=
  { copyError := [], arrayMismatch := [], deadlineRisk := [], hang := false }

def Loupe.idle : Loupe :=
  { tracking := false, branch := 0, target := 0, ok := true, clauses := 0
    loads := [], lastLoads := none, count := 0, polling := false, watch := [], fired := false
    stale := [] }

/-- A core with nothing placed. -/
def Core.reset : Core :=
  { jobs := [], fwJobs := 0, wbuf := [], tlb := [], wakeMsgs := [], wakeQ := [], recent := [], before := []
    stopped := false, vacated := false, shadow := none, spillBlocked := false, incoming := none }

/-- A cluster after reset: fdefault 2100 and fcap 2450 MHz, gating enabled (R275, R295). -/
def Cluster.reset : Cluster :=
  { slice := [], icache := [], away := [], tlb := [], store := [], fwEntry := 0, evq := [], evOvf := false
    evLost := 0, cpSrc := 0, cpDst := 0, cpLen := 0, cpCore := 0, cpJob := 0, clk := 0
    clock := .running, stopAt := 0, fcur := 2100, fdefault := 2100, fsw := 2450, volt := 0, vf := []
    gateEn := true, gating := .on, idleTicks := 0, weights := [], enstatic := 0, unattr := 0
    accounts := [], resid := [], deadlines := [], ballast := ⟨[], [], 0, 0, none⟩, lastCore := 5, placedK := [] }

def Migration.reset : Migration := { track := false, bmap := 0, base := 0, pages := 0, xfer := 0 }

def Die.reset : Die :=
  { links := [], clock := [0, 0, 0, 0], copies := [], seqs := [], out := [], notices := []
    ptabLo := 0, ptabHi := 0, pendEv := [], spctx := 0, fhost := 0
    fpsel := 0, mig := Migration.reset, colls := [], collSeq := 0, rrLast := [] }

def Port.reset : Port :=
  { up := false, gen := 0, fenced := false, retrains := 0, naks := 0, expect := 0, nakRun := 0
    sendSeq := 0, replay := [], wire := [], partial_ := [] }

/-- The package after reset: plimit 1500 W, fctl 2450 MHz (R376, R378). -/
def Package.reset : Package :=
  { discarded := 0, hostRmw := [], boot := .held, fsc := 0, reasons := List.replicate 8 0, minimal := false, repl := false
    fclus := 0, flink := [0, 0, 0, 0], fport := 0, fd2d := 0, fcore := List.replicate 32 0
    plimit := 1500, ppower := 0, fctl := 2450, cecnt := List.replicate 8 0, cethr := 0
    mrs := List.replicate 8 (List.replicate 64 0), flash := [], flashVer := [], fusedVer := []
    vendorKey := [], seed := [], fpkg := 0, routes := [], fwd := [], ports := [], sent := []
    unacked := [], nextTxn := 0, collMail := [], collIssues := [], transfers := [], arrived := [], landed := [], alerts := 0, reports := [], breaks := [], catches := [], stoppedCtx := [] }

/-- Why a step stops with a fault. -/
inductive Fault
  /-- Raised by the meaning of a weft instruction when no weft is issuing it: no instruction of the
  spec is then being executed. Safe: the model stops where the machine has nothing to do. -/
  | noIssuer
  deriving DecidableEq, Repr

/-- Why a step is refused. -/
inductive Refusal
  /-- Raised by the dispatcher for a row whose meaning is not written. Safe: nothing is claimed. -/
  | notModelled (mnemonic : String)
  deriving DecidableEq, Repr

/-- The machine right after reset: no start has run, so no link is trained, no partition is known
and no weft exists; every CSR holds the value R275, R290, R295, R376 and R378 give or the value
log 3 names. Cores and dies absent from their tables stand at their own reset values. -/
def State.reset : State :=
  { mem := [], bad := [], tim := 0, swatches := [], cores := []
    clusters := (List.range 32).map fun c => (c, Cluster.reset), dies := []
    ctxs := [], parts := [], queues := [], launches := [], graphs := [], finishes := []
    regions := [], pkg := Package.reset, agenda := [], turn := 0, free := 0, issuer := none
    nextSid := 0, nextLaunch := 0 }

end Sys2Proof.Machine
end

