-- ==== Sys2Proof/Machine/Table.lean ====
section
/-!
DEFINITION. Reading and writing the sparse tables State is made of, and memory as a table of bytes
in its one canonical form: addresses strictly rising and no entry equal to 0, which is what an
unlisted address reads as (log 6).
-/
namespace Sys2Proof

/-- The value at a key, if one is listed. -/
def Tab.get? {α : Type} : Tab α → Nat → Option α
  | [], _ => none
  | (k', v) :: t, k => if k' = k then some v else Tab.get? t k

/-- The value at a key, or what an absent key stands for. -/
def Tab.getD {α : Type} (t : Tab α) (k : Nat) (d : α) : α := (t.get? k).getD d

/-- The table with one entry set, in key order. -/
def Tab.put {α : Type} : Tab α → Nat → α → Tab α
  | [], k, v => [(k, v)]
  | (k', v') :: t, k, v =>
    if k < k' then (k, v) :: (k', v') :: t
    else if k = k' then (k, v) :: t
    else (k', v') :: Tab.put t k v

/-- The table without one key. -/
def Tab.del {α : Type} : Tab α → Nat → Tab α
  | [], _ => []
  | (k', v') :: t, k => if k' = k then Tab.del t k else (k', v') :: Tab.del t k

/-- Set an entry whose default value is not listed. -/
def Tab.store {α : Type} [DecidableEq α] (t : Tab α) (k : Nat) (v d : α) : Tab α :=
  if v = d then t.del k else t.put k v

/-- Change the entry at a key, if listed. -/
def Tab.modify {α : Type} (t : Tab α) (k : Nat) (f : α → α) : Tab α :=
  match t.get? k with
  | some v => t.put k (f v)
  | none => t

def Tab.keys {α : Type} (t : Tab α) : List Nat := t.map fun p => p.1

/-- Keys strictly rise. -/
def Tab.sorted {α : Type} : Tab α → Bool
  | [] => true
  | [_] => true
  | (k, _) :: (k', v') :: t => decide (k < k') && Tab.sorted ((k', v') :: t)

/-- The first key that is not listed, at or above `n`. -/
def Tab.freeKey {α : Type} (t : Tab α) (n : Nat) : Nat :=
  t.foldl (fun k p => if p.1 = k then k + 1 else k) n

namespace Machine

/-- A byte of memory (R11); 0 where nothing has been written (log 6). -/
def memByte (m : Tab Byte) (a : Nat) : Byte := m.getD a 0

/-- Memory after one byte is written; 0 removes the entry. -/
def memPut (m : Tab Byte) (a : Nat) (b : Byte) : Tab Byte := m.store a b 0

/-- Consecutive bytes from an address. -/
def memBytes (m : Tab Byte) (a : Nat) : Nat → List Byte
  | 0 => []
  | n + 1 => memByte m a :: memBytes m (a + 1) n

/-- Memory after consecutive bytes are written. -/
def memPutBytes (m : Tab Byte) (a : Nat) : List Byte → Tab Byte
  | [] => m
  | b :: bs => memPutBytes (memPut m a b) (a + 1) bs

/-- The canonical form: keys strictly rising, no zero listed. -/
def Memory.wf (m : Memory) : Bool := Tab.sorted m && m.all fun p => p.2 != 0

/-- A tile of zeros, its status clear: a tile that is not listed (R205, R206). -/
def Tile.zero : Tile := ⟨[], false, false, false, false, false, false, false⟩

end Machine
end Sys2Proof
end

