-- ==== Sys2Proof/Machine/Bits.lean ====
section
/-!
DEFINITION. Fields, byte order and lane lists (R11, R12, R44, R50).
-/
namespace Sys2Proof.Machine

/-- The lanes of a weft in ascending order (R12). -/
def laneIds : List Nat :=
  [0, 1, 2, 3, 4, 5, 6, 7, 8, 9, 10, 11, 12, 13, 14, 15, 16, 17, 18, 19, 20, 21, 22, 23, 24, 25, 26,
   27, 28, 29, 30, 31]

/-- The lanes of a mask in ascending order. -/
def lanesOf (m : Mask) : List Nat := laneIds.filter fun l => m.getLsbD l

/-- The mask whose lanes satisfy a test. -/
def maskOf (f : Nat → Bool) : Mask :=
  laneIds.foldl (fun m l => if f l then m ||| (1#32 <<< l) else m) 0

/-- One value per lane. -/
def lanesFn (f : Nat → Word) : Lanes := laneIds.map f

/-- A lane's value. -/
def laneAt (x : Lanes) (l : Nat) : Word := x.getD l 0

/-- All lanes zero: a newly allocated register (R109). -/
def lanesZero : Lanes := laneIds.map fun _ => 0

/-- Number of set bits. -/
def popCount (m : Mask) : Nat := (lanesOf m).length

/-- Lowest lane of a mask, 0 if none. -/
def lowestLane (m : Mask) : Nat := (lanesOf m).headD 0

/-- h above l (R12, R50). -/
def concat64 (h l : Word) : DWord := h ++ l

def loWord (x : DWord) : Word := x.setWidth 32

def hiWord (x : DWord) : Word := (x >>> 32).setWidth 32

def sext64 (w : Word) : DWord := w.signExtend 64

/-- Little-endian bytes to a number (R11). -/
def leNat : List Byte → Nat
  | [] => 0
  | b :: bs => b.toNat + 256 * leNat bs

/-- The low `n` bytes of a number, little-endian (R11). -/
def natBytes : Nat → Nat → List Byte
  | 0, _ => []
  | n + 1, x => BitVec.ofNat 8 x :: natBytes n (x / 256)

def wordBytes (w : Word) : List Byte := natBytes 4 w.toNat

def w32 (n : Nat) : Word := BitVec.ofNat 32 n

def w64 (n : Nat) : DWord := BitVec.ofNat 64 n

/-- Bits [hi:lo] of a number. -/
def nbits (x hi lo : Nat) : Nat := x / 2 ^ lo % 2 ^ (hi + 1 - lo)

/-- Two's-complement value of a 32-bit number held in a Nat. -/
def toInt32 (n : Nat) : Int := (BitVec.ofNat 32 n).toInt

def toInt64 (n : Nat) : Int := (BitVec.ofNat 64 n).toInt

/-- Round up to a multiple of `m`. -/
def roundUp (x m : Nat) : Nat := (x + m - 1) / m * m

/-- The sector of an address (R12). -/
def sectorOf (a : Nat) : Nat := a / 32 * 32

/-- Elements without repetition, first occurrences kept. -/
def dedup {α : Type} [DecidableEq α] : List α → List α
  | [] => []
  | x :: xs => x :: (dedup xs).filter fun y => y ≠ x

/-- Insert a number into a strictly rising list. -/
def insNat (n : Nat) : List Nat → List Nat
  | [] => [n]
  | x :: xs => if n < x then n :: x :: xs else if n = x then x :: xs else x :: insNat n xs

/-- `List.range` from a start. -/
def rangeFrom (a : Nat) : Nat → List Nat
  | 0 => []
  | n + 1 => a :: rangeFrom (a + 1) n

/-- Set the k-th element of a list. -/
def setAt {α : Type} (xs : List α) (k : Nat) (x : α) : List α := xs.set k x

end Sys2Proof.Machine
end

