-- ==== Sys2Proof/Machine/Flags.lean ====
section
/-!
DEFINITION. The status bits of fstat (R47), saturation (R51), and the rounding of an exact result
into a floating-point format with the bits it sets (R52, R53, R56, R57).
-/
namespace Sys2Proof.Machine

/-- A set of fstat bits (R47). -/
abbrev FBits := BitVec 6

def fNx : FBits := 1
def fUf : FBits := 2
def fOf : FBits := 4
def fDz : FBits := 8
def fNv : FBits := 16
def fSat : FBits := 32

/-- A bit set under a condition. -/
def fIf (b : Bool) (x : FBits) : FBits := if b then x else 0

/-- An integer result without or with .sat in a signed or unsigned type of `n` bits (R51): the
delivered bits and the sat bit. -/
def intResult (n : Nat) (u sat : Bool) (t : Int) : Nat × FBits :=
  let lo : Int := if u then 0 else -(2 ^ (n - 1) : Nat)
  let hi : Int := if u then (2 ^ n : Nat) - 1 else (2 ^ (n - 1) : Nat) - 1
  let out := decide (t < lo) || decide (hi < t)
  let r := if sat && out then (if t < lo then lo else hi) else t
  ((r % (2 ^ n : Nat)).toNat, fIf (sat && out) fSat)

/-- A floating-point format (R52): exponent and fraction widths, bias; which all-ones encodings
are special (R53). -/
inductive FKind
  | ieee | e4m3 | e2m1
  deriving DecidableEq, Repr

structure Fmt where
  ew : Nat
  tw : Nat
  bias : Nat
  kind : FKind
  deriving DecidableEq, Repr

def fp64 : Fmt := ⟨11, 52, 1023, .ieee⟩
def fp32 : Fmt := ⟨8, 23, 127, .ieee⟩
def fp16 : Fmt := ⟨5, 10, 15, .ieee⟩
def bf16 : Fmt := ⟨8, 7, 127, .ieee⟩
def e5m2 : Fmt := ⟨5, 2, 15, .ieee⟩
def e4m3 : Fmt := ⟨4, 3, 7, .e4m3⟩
def e2m1 : Fmt := ⟨2, 1, 1, .e2m1⟩

/-- A floating-point datum: NaN (signalling or not), infinity, or (-1)^neg · m · 2^e. -/
inductive Fp
  | nan (sig : Bool)
  | inf (neg : Bool)
  | fin (neg : Bool) (m : Nat) (e : Int)
  deriving DecidableEq, Repr

/-- The datum an encoding stands for (R52, R53). -/
def Fmt.unpack (f : Fmt) (x : Nat) : Fp :=
  let neg := x / 2 ^ (f.ew + f.tw) % 2 == 1
  let e := x / 2 ^ f.tw % 2 ^ f.ew
  let t := x % 2 ^ f.tw
  let top := 2 ^ f.ew - 1
  let finite : Fp :=
    if e = 0 then .fin neg t (1 - (f.bias : Int) - f.tw)
    else .fin neg (2 ^ f.tw + t) ((e : Int) - f.bias - f.tw)
  match f.kind with
  | .ieee =>
    if e = top then (if t = 0 then .inf neg else .nan (t < 2 ^ (f.tw - 1))) else finite
  | .e4m3 => if e = top ∧ t = 2 ^ f.tw - 1 then .nan false else finite
  | .e2m1 => finite

/-- The sign bit of a format. -/
def Fmt.signBit (f : Fmt) : Nat := 2 ^ (f.ew + f.tw)

/-- The canonical NaN (R53); E2M1 has none and delivers +0 (R58). -/
def Fmt.qnan (f : Fmt) : Nat :=
  match f.kind with
  | .ieee => (2 ^ f.ew - 1) * 2 ^ f.tw + 2 ^ (f.tw - 1)
  | .e4m3 => 0x7F
  | .e2m1 => 0

/-- The magnitude bits of the largest finite value (R53). -/
def Fmt.maxFinite (f : Fmt) : Nat :=
  match f.kind with
  | .ieee => (2 ^ f.ew - 1) * 2 ^ f.tw - 1
  | .e4m3 => 0x7E
  | .e2m1 => 0x7

/-- The infinity encoding; the formats without one answer their largest finite value. -/
def Fmt.infBits (f : Fmt) : Nat :=
  match f.kind with
  | .ieee => (2 ^ f.ew - 1) * 2 ^ f.tw
  | _ => f.maxFinite

def Fmt.signed (f : Fmt) (neg : Bool) (x : Nat) : Nat := if neg then f.signBit + x else x

/-- m·2^e rounded to a multiple of 2^q: the multiple and whether it is inexact (R56). -/
def roundAt (rm : RMode) (neg : Bool) (m : Nat) (e q : Int) : Nat × Bool :=
  if q ≤ e then (m * 2 ^ (e - q).toNat, false)
  else
    let sh := (q - e).toNat
    let n := m / 2 ^ sh
    let r := m % 2 ^ sh
    let up :=
      match rm with
      | .rn => decide (2 ^ sh < 2 * r) || (decide (2 ^ sh = 2 * r) && n % 2 == 1)
      | .rz => false
      | .rd => neg && decide (0 < r)
      | .ru => !neg && decide (0 < r)
    (if up then n + 1 else n, decide (0 < r))

/-- What an overflow delivers (R56). -/
def Fmt.overflow (f : Fmt) (rm : RMode) (neg : Bool) : Nat :=
  let toInf :=
    match rm with
    | .rn => true
    | .rz => false
    | .rd => neg
    | .ru => !neg
  f.signed neg (if toInf then f.infBits else f.maxFinite)

/-- Whether n·2^q exceeds the largest finite value. -/
def Fmt.exceeds (f : Fmt) (n : Nat) (q : Int) : Bool :=
  match f.unpack f.maxFinite with
  | .fin _ m e =>
    if q ≤ e then decide (m * 2 ^ (e - q).toNat < n) else decide (m < n * 2 ^ (q - e).toNat)
  | _ => false

/-- The result of a rounding: bits, fstat bits, and whether it overflowed. -/
structure Rounded where
  bits : Nat
  fl : FBits
  past : Bool
  deriving DecidableEq, Repr

/-- The exact value (-1)^neg · m · 2^e, with a further part below one unit of m when `sticky`,
rounded into the format (R56, R57). A zero keeps the sign given. -/
def Fmt.round (f : Fmt) (rm : RMode) (neg : Bool) (m0 : Nat) (e0 : Int) (sticky : Bool) : Rounded :=
  let m := if sticky then 2 * m0 + 1 else m0
  let e := if sticky then e0 - 1 else e0
  if m = 0 then ⟨f.signed neg 0, 0, false⟩
  else
    let lead : Int := e + Nat.log2 m
    let emin : Int := 1 - (f.bias : Int)
    let q := max (lead - f.tw) (emin - f.tw)
    let (n0, inex) := roundAt rm neg m e q
    let n := if n0 = 2 ^ (f.tw + 1) then 2 ^ f.tw else n0
    let q' := if n0 = 2 ^ (f.tw + 1) then q + 1 else q
    if f.exceeds n q' then ⟨f.overflow rm neg, fOf ||| fNx, true⟩
    else
      let tiny :=
        decide (lead < emin) &&
          !(decide (lead + 1 = emin) &&
            decide ((roundAt rm neg m e (lead - f.tw)).1 = 2 ^ (f.tw + 1)))
      let bits :=
        if n < 2 ^ f.tw then n else (q' + f.tw + f.bias).toNat * 2 ^ f.tw + (n - 2 ^ f.tw)
      ⟨f.signed neg bits, fIf inex fNx ||| fIf (inex && tiny) fUf, false⟩

end Sys2Proof.Machine
end

