-- ==== Sys2Proof/Machine/Float.lean ====
section
/-!
DEFINITION. Floating-point operations on encodings: each computes exactly on `Fp` data and rounds
once with `Fmt.round` (R56 to R64, R86 to R90, R94 to R98).
-/
namespace Sys2Proof.Machine

/-- An encoding and the fstat bits it cost. -/
abbrev FRes := Nat × FBits

def Fp.isNan : Fp → Bool
  | .nan _ => true
  | _ => false

def Fp.isSnan : Fp → Bool
  | .nan s => s
  | _ => false

def Fp.negate : Fp → Fp
  | .nan s => .nan s
  | .inf n => .inf (!n)
  | .fin n m e => .fin (!n) m e

def Fp.isNeg : Fp → Bool
  | .nan _ => false
  | .inf n => n
  | .fin n _ _ => n

def Fp.isZero : Fp → Bool
  | .fin _ m _ => m == 0
  | _ => false

def Fmt.res (r : Rounded) : FRes := (r.bits, r.fl)

/-- The canonical NaN, with nv when an invalid case or a signalling operand made it (R58, R87). -/
def Fmt.nanRes (f : Fmt) (nv : Bool) : FRes := (f.qnan, fIf nv fNv)

/-- The sign of an exact zero sum (R60). -/
def zeroSum (rm : RMode) (n1 n2 : Bool) : Bool := if n1 == n2 then n1 else rm == .rd

/-- The exact sum of two finite values over a common exponent. -/
def exactSum (n1 : Bool) (m1 : Nat) (e1 : Int) (n2 : Bool) (m2 : Nat) (e2 : Int) : Int × Int :=
  let e := min e1 e2
  let a : Int := (m1 * 2 ^ (e1 - e).toNat : Nat)
  let b : Int := (m2 * 2 ^ (e2 - e).toNat : Nat)
  ((if n1 then -a else a) + (if n2 then -b else b), e)

/-- Round a signed exact value m·2^e; a zero takes the sign `zn`. -/
def Fmt.roundInt (f : Fmt) (rm : RMode) (m e : Int) (zn : Bool) : Rounded :=
  if m = 0 then f.round rm zn 0 0 false else f.round rm (decide (m < 0)) m.natAbs e false

/-- x + y (R86, R87). -/
def Fmt.addFp (f : Fmt) (rm : RMode) (x y : Fp) : FRes :=
  match x, y with
  | .nan s, y => f.nanRes (s || y.isSnan)
  | _, .nan s => f.nanRes s
  | .inf a, .inf b => if a = b then (f.signed a f.infBits, 0) else f.nanRes true
  | .inf a, .fin _ _ _ => (f.signed a f.infBits, 0)
  | .fin _ _ _, .inf b => (f.signed b f.infBits, 0)
  | .fin n1 m1 e1, .fin n2 m2 e2 =>
    let t := exactSum n1 m1 e1 n2 m2 e2
    Fmt.res (f.roundInt rm t.1 t.2 (zeroSum rm n1 n2))

def Fmt.add (f : Fmt) (rm : RMode) (x y : Nat) : FRes := f.addFp rm (f.unpack x) (f.unpack y)

def Fmt.sub (f : Fmt) (rm : RMode) (x y : Nat) : FRes := f.addFp rm (f.unpack x) (f.unpack y).negate

/-- The exact product, or `none` for 0·∞ (R87). -/
def Fp.mul : Fp → Fp → Option Fp
  | .nan s, y => some (.nan (s || y.isSnan))
  | .inf _, .nan t => some (.nan t)
  | .fin _ _ _, .nan t => some (.nan t)
  | .inf a, .inf b => some (.inf (a != b))
  | .inf a, .fin b m _ => if m = 0 then none else some (.inf (a != b))
  | .fin a m _, .inf b => if m = 0 then none else some (.inf (a != b))
  | .fin a m e, .fin b m' e' => some (.fin (a != b) (m * m') (e + e'))

/-- x · y (R86, R87). -/
def Fmt.mulFp (f : Fmt) (rm : RMode) (x y : Fp) : FRes :=
  match x.mul y with
  | none => f.nanRes true
  | some (.nan s) => f.nanRes s
  | some (.inf n) => (f.signed n f.infBits, 0)
  | some (.fin n m e) => Fmt.res (f.round rm n m e false)

def Fmt.mul (f : Fmt) (rm : RMode) (x y : Nat) : FRes := f.mulFp rm (f.unpack x) (f.unpack y)

/-- x · y + z with one rounding; 0·∞ is invalid even with a quiet NaN z (R87). -/
def Fmt.fmaFp (f : Fmt) (rm : RMode) (x y z : Fp) : FRes :=
  match x.mul y with
  | none => f.nanRes true
  | some (.nan s) => f.nanRes (s || z.isSnan)
  | some p => f.addFp rm p z

def Fmt.fma (f : Fmt) (rm : RMode) (x y z : Nat) : FRes :=
  f.fmaFp rm (f.unpack x) (f.unpack y) (f.unpack z)

/-- x / y, rounded to nearest even (R94). -/
def Fmt.div (f : Fmt) (x y : Nat) : FRes :=
  match f.unpack x, f.unpack y with
  | .nan s, b => f.nanRes (s || b.isSnan)
  | _, .nan s => f.nanRes s
  | .inf _, .inf _ => f.nanRes true
  | .inf a, .fin b _ _ => (f.signed (a != b) f.infBits, 0)
  | .fin a _ _, .inf b => (f.signed (a != b) 0, 0)
  | .fin a m e, .fin b m' e' =>
    if m' = 0 then
      if m = 0 then f.nanRes true else (f.signed (a != b) f.infBits, fDz)
    else
      let k := f.tw + 4 + Nat.log2 m'
      let q := m * 2 ^ k / m'
      Fmt.res (f.round .rn (a != b) q (e - e' - k) (decide (m * 2 ^ k % m' ≠ 0)))

/-- Order of two non-NaN values, −0 below +0 (R59). -/
def Fp.le : Fp → Fp → Bool
  | .inf a, .inf b => a || !b
  | .inf a, _ => a
  | _, .inf b => !b
  | .fin n1 m1 e1, .fin n2 m2 e2 =>
    let t := (exactSum n1 m1 e1 (!n2) m2 e2).1
    if t = 0 then n1 || !n2 else decide (t < 0)
  | _, _ => false

/-- FMIN and FMAX (R59). -/
def Fmt.minmax (f : Fmt) (isMax : Bool) (x y : Nat) : FRes :=
  let a := f.unpack x
  let b := f.unpack y
  let nv := fIf (a.isSnan || b.isSnan) fNv
  if a.isNan && b.isNan then (f.qnan, nv)
  else if a.isNan then (y, nv)
  else if b.isNan then (x, nv)
  else (if a.le b != isMax then x else y, 0)

/-- Numeric comparison: `none` when unordered. −0 equals +0 (R90). -/
def Fp.cmp : Fp → Fp → Option Ordering
  | .nan _, _ => none
  | _, .nan _ => none
  | .inf a, .inf b => some (if a = b then .eq else if a then .lt else .gt)
  | .inf a, .fin _ _ _ => some (if a then .lt else .gt)
  | .fin _ _ _, .inf b => some (if b then .gt else .lt)
  | .fin n1 m1 e1, .fin n2 m2 e2 =>
    let t := (exactSum n1 m1 e1 (!n2) m2 e2).1
    some (if t < 0 then .lt else if t = 0 then .eq else .gt)

/-- FCMP (R90): truth of the condition and nv. -/
def Fmt.compare (f : Fmt) (c : FCond) (x y : Nat) : Bool × FBits :=
  let a := f.unpack x
  let b := f.unpack y
  let o := a.cmp b
  let truth :=
    match c with
    | .eq => o == some .eq
    | .ne => o != some .eq
    | .lt => o == some .lt
    | .le => o == some .lt || o == some .eq
    | .gt => o == some .gt
    | .ge => o == some .gt || o == some .eq
    | .unord => o == none
    | .ord => o != none
  let signals := c == .lt || c == .le || c == .gt || c == .ge
  (truth, fIf (a.isSnan || b.isSnan || (signals && o == none)) fNv)

/-- A value rounded to an integral value in its own format; never inexact (R89, FRND). -/
def Fmt.toIntegral (f : Fmt) (rm : RMode) (x : Nat) : FRes :=
  match f.unpack x with
  | .nan s => f.nanRes s
  | .inf _ => (x, 0)
  | .fin n m e =>
    if 0 ≤ e then (x, 0)
    else ((f.round rm n (roundAt rm n m e 0).1 0 false).bits, 0)

/-- The class mask of FCLS (R89). -/
def Fmt.classify (f : Fmt) (x : Nat) : Nat :=
  match f.unpack x with
  | .nan true => 1
  | .nan false => 2
  | .inf true => 4
  | .inf false => 512
  | .fin n _ _ =>
    if x % f.signBit = 0 then (if n then 32 else 64)
    else if x / 2 ^ f.tw % 2 ^ f.ew = 0 then (if n then 16 else 128)
    else if n then 8 else 256

/-- The unbiased exponent of FEXP in a signed result of `w` bits (R89). -/
def Fmt.exponent (f : Fmt) (w x : Nat) : FRes :=
  match f.unpack x with
  | .nan s => (2 ^ (w - 1), fIf s fNv)
  | .inf _ => (2 ^ (w - 1) - 1, 0)
  | .fin _ m e =>
    if m = 0 then (2 ^ (w - 1), 0) else (((e + Nat.log2 m) % (2 ^ w : Nat)).toNat, 0)

/-- The mantissa scaled into [1, 2) with its sign (R89, FMANT). -/
def Fmt.mantissa (f : Fmt) (x : Nat) : FRes :=
  match f.unpack x with
  | .nan s => f.nanRes s
  | .inf _ => (x, 0)
  | .fin n m _ =>
    if m = 0 then (x, 0) else Fmt.res (f.round .rn n m (-(Nat.log2 m : Int)) false)

/-- Conversion between formats (R62, R63): `sat` clamps an overflow or an infinity. -/
def Fmt.convertFp (dst : Fmt) (rm : RMode) (sat : Bool) (x : Fp) : FRes :=
  match x with
  | .nan s =>
    match dst.kind with
    | .e2m1 => (0, fNv)
    | _ => dst.nanRes s
  | .inf n =>
    match dst.kind with
    | .e2m1 => (dst.signed n dst.maxFinite, fSat)
    | .e4m3 => if sat then (dst.signed n dst.maxFinite, fSat) else (dst.qnan, fNv)
    | .ieee => if sat then (dst.signed n dst.maxFinite, fSat) else (dst.signed n dst.infBits, 0)
  | .fin n m e =>
    let r := dst.round rm n m e false
    if r.past then
      match dst.kind with
      | .e2m1 => (dst.signed n dst.maxFinite, fSat ||| fOf ||| fNx)
      | .e4m3 =>
        if sat then (dst.signed n dst.maxFinite, fSat ||| fOf ||| fNx) else (dst.qnan, fOf ||| fNx)
      | .ieee =>
        if sat then (dst.signed n dst.maxFinite, fSat ||| fOf ||| fNx) else (r.bits, r.fl)
    else (r.bits, r.fl)

def Fmt.convert (src dst : Fmt) (rm : RMode) (sat : Bool) (x : Nat) : FRes :=
  dst.convertFp rm sat (src.unpack x)

/-- Conversion to an integer of `w` bits: always saturates (R64). -/
def Fmt.toInteger (src : Fmt) (rm : RMode) (w : Nat) (unsigned : Bool) (x : Nat) : FRes :=
  let lo : Int := if unsigned then 0 else -(2 ^ (w - 1) : Nat)
  let hi : Int := if unsigned then (2 ^ w : Nat) - 1 else (2 ^ (w - 1) : Nat) - 1
  let bits := fun t : Int => (t % (2 ^ w : Nat)).toNat
  match src.unpack x with
  | .nan _ => (0, fNv)
  | .inf n => (bits (if n then lo else hi), fNv)
  | .fin n m e =>
    let r := roundAt rm n m e 0
    let t : Int := if n then -(r.1 : Int) else r.1
    if t < lo then (bits lo, fNv)
    else if hi < t then (bits hi, fNv)
    else (bits t, fIf r.2 fNx)

/-- Conversion of an integer to floating point (R64), clamped under .sat (R62). -/
def Fmt.ofInteger (dst : Fmt) (rm : RMode) (sat : Bool) (t : Int) : FRes :=
  let r := dst.roundInt rm t 0 false
  if sat && r.past then (dst.signed (decide (t < 0)) dst.maxFinite, fSat ||| fOf ||| fNx)
  else (r.bits, r.fl)

/-! ## Error-free transforms and compensated accumulation (R95, R98) -/

/-- Whether an FP32 encoding is infinite or NaN. -/
def notFinite32 (x : Nat) : Bool := x / 2 ^ 23 % 256 == 255

/-- TWOSUM (R95): s, e and the fstat bits. e is exact whenever s is finite. -/
def twoSum (a b : Nat) : Nat × Nat × FBits :=
  let s := fp32.add .rn a b
  if notFinite32 s.1 then (s.1, 0, s.2 &&& (fOf ||| fNx ||| fNv))
  else
    match fp32.unpack a, fp32.unpack b, fp32.unpack s.1 with
    | .fin n1 m1 e1, .fin n2 m2 e2, .fin n3 m3 e3 =>
      let t := exactSum n1 m1 e1 n2 m2 e2
      let u := exactSum (decide (t.1 < 0)) t.1.natAbs t.2 (!n3) m3 e3
      let r := fp32.roundInt .rn u.1 u.2 false
      (s.1, r.bits, r.fl)
    | _, _, _ => (s.1, 0, 0)

/-- TWOPROD (R95): e is the rounded remainder a·b − s. -/
def twoProd (a b : Nat) : Nat × Nat × FBits :=
  let s := fp32.mul .rn a b
  if notFinite32 s.1 then (s.1, 0, s.2 &&& (fOf ||| fNx ||| fNv))
  else
    let e := fp32.fmaFp .rn (fp32.unpack a) (fp32.unpack b) (fp32.unpack s.1).negate
    (s.1, e.1, e.2)

/-- One part of CACC (R98): the pair (hi, lo) after x is entered. nx and uf come only from the rounding of
lo + e, of only from a TWOSUM. -/
def compAdd (hi lo x : Nat) : Nat × Nat × FBits :=
  let t := twoSum hi x
  let l := fp32.add .rn lo t.2.1
  let u := twoSum t.1 l.1
  (u.1, u.2.1, ((t.2.2 ||| u.2.2) &&& (fOf ||| fNv)) ||| (l.2 &&& (fNx ||| fUf ||| fNv)))

end Sys2Proof.Machine
end

