-- ==== Sys2Proof/Decode.lean ====
section
/-!
DEFINITION. Instruction words to instructions and back (R11, R13, R14, R23 to R27, R33, R34 and the
encoding table of each entry). `decode` is total: it answers an instruction with the literal words
it consumed taken away, or a named rejection. `encode` writes the words of an instruction from the
same tables.
-/
namespace Sys2Proof

/-- Why a word is no instruction. -/
inductive Reject
  | zeroWord                        -- R15
  | reservedOpcode                  -- R34, first item
  | reservedForm                    -- R34: a reserved sub-opcode, selector or field
  | reservedCode                    -- R24: code 126, or 112 to 127 as a destination
  | literalMissing                  -- a demanded literal beyond the words given (R19)
  | illFormed (c : Option Check)    -- a check of WellFormed fails
  | short                           -- fewer than four bytes
  deriving DecidableEq, Repr

/-- What the decoder answers: the instruction and the words left after its literals. -/
abbrev Dec := Except Reject (Instr × List Word)

/-- Bits [lo+n-1:lo] of a word. -/
def fld (w lo n : Nat) : Nat := w / 2 ^ lo % 2 ^ n

def fbit (w lo : Nat) : Bool := w / 2 ^ lo % 2 == 1

/-! ## Operand codes (R23) -/

def Special.code : Special → Nat
  | .z => 112 | .lid => 113 | .wid => 114 | .nwf => 115 | .swi => 116 | .boi => 117 | .bai => 118
  | .amask => 119 | .clk => 120 | .tim => 121 | .targ => 122 | .lrec => 123 | .ctx => 124 | .stp => 125

def Special.ofCode? : Nat → Option Special
  | 112 => some .z | 113 => some .lid | 114 => some .wid | 115 => some .nwf | 116 => some .swi
  | 117 => some .boi | 118 => some .bai | 119 => some .amask | 120 => some .clk | 121 => some .tim
  | 122 => some .targ | 123 => some .lrec | 124 => some .ctx | 125 => some .stp | _ => none

def Src.code : Src → Nat
  | .v n => n.val
  | .s n => 64 + n.val
  | .sp x => x.code
  | .lit _ => 127

/-- The literal words an operand appends (R26). -/
def Src.lits : Src → List Word
  | .lit w => [w]
  | _ => []

def CSrc.code : CSrc → Nat
  | .v n => n.val
  | .s n => 64 + n.val
  | .sp x => x.code

def Dst.code : Dst → Nat
  | .v n => n.val
  | .s n => 64 + n.val

/-- A source field: a register, a special, or code 127 and the next unconsumed word. -/
def takeSrc (c : Nat) (ls : List Word) (k : Src → List Word → Dec) : Dec :=
  if h : c < 64 then k (.v ⟨c, h⟩) ls
  else if h : c - 64 < 48 then k (.s ⟨c - 64, h⟩) ls
  else if c = 127 then
    match ls with
    | l :: ls => k (.lit l) ls
    | [] => .error .literalMissing
  else
    match Special.ofCode? c with
    | some x => k (.sp x) ls
    | none => .error .reservedCode

def takeCSrc (c : Nat) (k : CSrc → Dec) : Dec :=
  if h : c < 64 then k (.v ⟨c, h⟩)
  else if h : c - 64 < 48 then k (.s ⟨c - 64, h⟩)
  else
    match Special.ofCode? c with
    | some x => k (.sp x)
    | none => .error .reservedCode

def takeDst (c : Nat) (k : Dst → Dec) : Dec :=
  if h : c < 64 then k (.v ⟨c, h⟩)
  else if h : c - 64 < 48 then k (.s ⟨c - 64, h⟩)
  else .error .reservedCode

def takeVReg (c : Nat) (k : VReg → Dec) : Dec :=
  if h : c < 64 then k ⟨c, h⟩ else .error .reservedCode

def takePReg (c : Nat) (k : PReg → Dec) : Dec :=
  if h : c < 8 then k ⟨c, h⟩ else .error .reservedForm

/-- A field whose reserved values are refused. -/
def takeOpt {α : Type} (x : Option α) (k : α → Dec) : Dec :=
  match x with
  | some a => k a
  | none => .error .reservedForm

/-! ## Field values -/

def PReg.code (p : PReg) : Nat := p.val

def VReg.code (p : VReg) : Nat := p.val

def bcode (b : Bool) : Nat := if b then 1 else 0

def BraCond.code : BraCond → Nat
  | .always => 16
  | .pred i n => 8 * bcode i + n.val

/-- R127: the always form is 0x10 exactly; bits [6:5] are reserved. -/
def BraCond.ofCode? (c : Nat) : Option BraCond :=
  if c = 16 then some .always
  else if h : c < 16 then some (.pred (decide (8 ≤ c)) ⟨c % 8, by omega⟩)
  else none

def ExitCond.code : ExitCond → Nat
  | .always => 8
  | .pred n => n.val

/-- R130: the always form is 0x8 exactly. -/
def ExitCond.ofCode? (c : Nat) : Option ExitCond :=
  if c = 8 then some .always else if h : c < 8 then some (.pred ⟨c, h⟩) else none

def Cond.code : Cond → Nat
  | .eq => 0 | .ne => 1 | .lt => 2 | .le => 3 | .gt => 4 | .ge => 5
  | .ltu => 6 | .leu => 7 | .gtu => 8 | .geu => 9

def Cond.ofCode? : Nat → Option Cond
  | 0 => some .eq | 1 => some .ne | 2 => some .lt | 3 => some .le | 4 => some .gt | 5 => some .ge
  | 6 => some .ltu | 7 => some .leu | 8 => some .gtu | 9 => some .geu | _ => none

def FCond.code : FCond → Nat
  | .eq => 0 | .ne => 1 | .lt => 2 | .le => 3 | .gt => 4 | .ge => 5
  | .unord => 6 | .ord => 7

def FCond.ofCode? : Nat → Option FCond
  | 0 => some .eq | 1 => some .ne | 2 => some .lt | 3 => some .le | 4 => some .gt | 5 => some .ge
  | 6 => some .unord | 7 => some .ord | _ => none

def FType.code : FType → Nat
  | .f32 => 0 | .f16x2 => 1 | .bf16x2 => 2 | .f64 => 3

def FType.ofCode? : Nat → Option FType
  | 0 => some .f32 | 1 => some .f16x2 | 2 => some .bf16x2 | 3 => some .f64 | _ => none

def RMode.code : RMode → Nat
  | .rn => 0 | .rz => 1 | .rd => 2 | .ru => 3

def RMode.ofCode? : Nat → Option RMode
  | 0 => some .rn | 1 => some .rz | 2 => some .rd | 3 => some .ru | _ => none

def ShflMode.code : ShflMode → Nat
  | .idx => 0 | .up => 1 | .down => 2 | .xor => 3

def ShflMode.ofCode? : Nat → Option ShflMode
  | 0 => some .idx | 1 => some .up | 2 => some .down | 3 => some .xor | _ => none

def ScanOp.code : ScanOp → Nat
  | .addI32 => 0 | .addF32 => 1 | .maxI32 => 2 | .or => 3

def ScanOp.ofCode? : Nat → Option ScanOp
  | 0 => some .addI32 | 1 => some .addF32 | 2 => some .maxI32 | 3 => some .or | _ => none

def AccldMode.code : AccldMode → Nat
  | .f32 => 0 | .bf16 => 1 | .desc => 2

def AccldMode.ofCode? : Nat → Option AccldMode
  | 0 => some .f32 | 1 => some .bf16 | 2 => some .desc | _ => none

def MemW.code : MemW → Nat
  | .b8 => 0 | .b16 => 1 | .b32 => 2 | .b64 => 3

def MemW.ofCode? : Nat → Option MemW
  | 0 => some .b8 | 1 => some .b16 | 2 => some .b32 | 3 => some .b64 | _ => none

def AcqW.code : AcqW → Nat
  | .b32 => 2 | .b64 => 3

def AcqW.ofCode? : Nat → Option AcqW
  | 2 => some .b32 | 3 => some .b64 | _ => none

def Scope.code : Scope → Nat
  | .wf => 0 | .sw => 1 | .bo => 2 | .ba => 3 | .pk => 4 | .rl => 5
  | .sy => 6

def Scope.ofCode? : Nat → Option Scope
  | 0 => some .wf | 1 => some .sw | 2 => some .bo | 3 => some .ba | 4 => some .pk | 5 => some .rl
  | 6 => some .sy | _ => none

def BarScope.code : BarScope → Nat
  | .sw => 0 | .bo => 1 | .ba => 2 | .rl => 3

def BarScope.ofCode? : Nat → Option BarScope
  | 0 => some .sw | 1 => some .bo | 2 => some .ba | 3 => some .rl | _ => none

def AtomOp.code : AtomOp → Nat
  | .add => 0 | .min => 1 | .max => 2 | .minu => 3 | .maxu => 4 | .and => 5
  | .or => 6 | .xor => 7 | .exch => 8 | .fadd => 9 | .fmin => 10 | .fmax => 11

def AtomOp.ofCode? : Nat → Option AtomOp
  | 0 => some .add | 1 => some .min | 2 => some .max | 3 => some .minu | 4 => some .maxu | 5 => some .and
  | 6 => some .or | 7 => some .xor | 8 => some .exch | 9 => some .fadd | 10 => some .fmin | 11 => some .fmax
  | _ => none

def AtomsOp.code : AtomsOp → Nat
  | .add => 0 | .min => 1 | .max => 2 | .minu => 3 | .maxu => 4 | .and => 5
  | .or => 6 | .xor => 7 | .exch => 8 | .fadd => 9 | .fmin => 10 | .fmax => 11
  | .cas => 12

def AtomsOp.ofCode? : Nat → Option AtomsOp
  | 0 => some .add | 1 => some .min | 2 => some .max | 3 => some .minu | 4 => some .maxu | 5 => some .and
  | 6 => some .or | 7 => some .xor | 8 => some .exch | 9 => some .fadd | 10 => some .fmin | 11 => some .fmax
  | 12 => some .cas | _ => none

def Ord.code : Ord → Nat
  | .rlx => 0 | .acq => 1 | .rel => 2 | .ar => 3

def Ord.ofCode? : Nat → Option Ord
  | 0 => some .rlx | 1 => some .acq | 2 => some .rel | 3 => some .ar | _ => none

def FenceK.code : FenceK → Nat
  | .ar => 0 | .acq => 1 | .rel => 2

def FenceK.ofCode? : Nat → Option FenceK
  | 0 => some .ar | 1 => some .acq | 2 => some .rel | _ => none

def FeMode.code : FeMode → Nat
  | .none => 0 | .one => 1 | .two => 2 | .both => 3

def FeMode.ofCode? : Nat → Option FeMode
  | 0 => some .none | 1 => some .one | 2 => some .two | 3 => some .both | _ => none

def SpadW.code : SpadW → Nat
  | .b32 => 0 | .b64 => 1 | .b128 => 2

def SpadW.ofCode? : Nat → Option SpadW
  | 0 => some .b32 | 1 => some .b64 | 2 => some .b128 | _ => none

def Conv.code : Conv → Nat
  | .f64F32 => 0 | .f32F64 => 1 | .f16x2F32x2 => 2 | .bf16x2F32x2 => 3 | .f32x2F16x2 => 4 | .f32x2Bf16x2 => 5
  | .e4m3x4F32x4 => 6 | .e5m2x4F32x4 => 7 | .f32x4E4m3x4 => 8 | .f32x4E5m2x4 => 9 | .e2m1x4loF32x4 => 10 | .e2m1x4hiF32x4 => 11
  | .f32x4E2m1x4lo => 12 | .f32x4E2m1x4hi => 13 | .i32F32 => 16 | .u32F32 => 17 | .i64F32 => 18 | .u64F32 => 19
  | .i32F64 => 20 | .u32F64 => 21 | .i64F64 => 22 | .u64F64 => 23 | .f32I32 => 24 | .f32U32 => 25
  | .f32I64 => 26 | .f32U64 => 27 | .f64I32 => 28 | .f64U32 => 29 | .f64I64 => 30 | .f64U64 => 31
  | .f16x4E4m3x4 => 32 | .f16x4E5m2x4 => 33 | .f16x4E2m1x4lo => 34 | .f16x4E2m1x4hi => 35 | .e4m3x4E2m1x4lo => 36 | .e5m2x4E2m1x4lo => 37
  | .e4m3x4E2m1x4hi => 38 | .e5m2x4E2m1x4hi => 39 | .f64x2F16x2 => 40 | .f64x2Bf16x2 => 41 | .f16x2I32x2 => 42 | .f16x2U32x2 => 43

def Conv.ofCode? : Nat → Option Conv
  | 0 => some .f64F32 | 1 => some .f32F64 | 2 => some .f16x2F32x2 | 3 => some .bf16x2F32x2 | 4 => some .f32x2F16x2 | 5 => some .f32x2Bf16x2
  | 6 => some .e4m3x4F32x4 | 7 => some .e5m2x4F32x4 | 8 => some .f32x4E4m3x4 | 9 => some .f32x4E5m2x4 | 10 => some .e2m1x4loF32x4 | 11 => some .e2m1x4hiF32x4
  | 12 => some .f32x4E2m1x4lo | 13 => some .f32x4E2m1x4hi | 16 => some .i32F32 | 17 => some .u32F32 | 18 => some .i64F32 | 19 => some .u64F32
  | 20 => some .i32F64 | 21 => some .u32F64 | 22 => some .i64F64 | 23 => some .u64F64 | 24 => some .f32I32 | 25 => some .f32U32
  | 26 => some .f32I64 | 27 => some .f32U64 | 28 => some .f64I32 | 29 => some .f64U32 | 30 => some .f64I64 | 31 => some .f64U64
  | 32 => some .f16x4E4m3x4 | 33 => some .f16x4E5m2x4 | 34 => some .f16x4E2m1x4lo | 35 => some .f16x4E2m1x4hi | 36 => some .e4m3x4E2m1x4lo | 37 => some .e5m2x4E2m1x4lo
  | 38 => some .e4m3x4E2m1x4hi | 39 => some .e5m2x4E2m1x4hi | 40 => some .f64x2F16x2 | 41 => some .f64x2Bf16x2 | 42 => some .f16x2I32x2 | 43 => some .f16x2U32x2
  | _ => none

/-! ## Encoding -/

/-- A word from its major opcode in bits [31:25], its c field in bits [24:18] and the 18 bits below
(R33). -/
def enc18 (op c k : Nat) : Nat := (op * 2 ^ 7 + c) * 2 ^ 18 + k

/-- The same with the a field in bits [17:11] and the 11 bits below. -/
def enc11 (op c a k : Nat) : Nat := enc18 op c (a * 2 ^ 11 + k)

/-- The same with the b field in bits [10:4] and the four modifier bits below. -/
def enc4 (op c a b m : Nat) : Nat := enc11 op c a (b * 2 ^ 4 + m)

/-- The instruction word as a number, from the encoding table of each entry. Events have none. -/
def Instr.wordNat : Instr → Nat
  | .bra c k => enc18 0x01 c.code k.toNat
  | .brx c k => enc18 0x02 c.code k.toNat
  | .brz c k => enc18 0x03 c.code k.toNat
  | .call c k => enc18 0x04 c.val k.toNat
  | .jmpi a => enc4 0x05 0 a.code 0 0
  | .exit c => enc4 0x06 0 0 0 c.code
  | .yield => enc4 0x07 0 0 0 0
  | .nop => enc4 0x08 0 0 0 0
  | .winb s v => enc4 0x09 0 0 s.toNat v.toNat
  | .ipref c k => enc18 0x0A c.toNat k.toNat
  | .trap n => enc11 0x0B 0 0 n.toNat
  | .elect p => enc4 0x0C p.val 0 0 0
  | .csrr d c => enc18 0x0D d.code c.toNat
  | .csrw d c => enc18 0x0E d.code c.toNat
  | .eret => enc4 0x0F 0 0 0 0
  | .iadd d a b s u w => enc4 0x10 d.code a.code b.code (bcode s * 4 + bcode u * 2 + bcode w)
  | .isub d a b s u w => enc4 0x11 d.code a.code b.code (bcode s * 4 + bcode u * 2 + bcode w)
  | .imul d a b s u w => enc4 0x12 d.code a.code b.code (bcode s * 4 + bcode u * 2 + bcode w)
  | .imulh d a b u w => enc4 0x13 d.code a.code b.code (bcode u * 2 + bcode w)
  | .imad d a b s u w => enc4 0x14 d.code a.code b.code (bcode s * 4 + bcode u * 2 + bcode w)
  | .imin d a b u w => enc4 0x15 d.code a.code b.code (bcode u * 2 + bcode w)
  | .imax d a b u w => enc4 0x16 d.code a.code b.code (bcode u * 2 + bcode w)
  | .iabs d a s w => enc4 0x17 d.code a.code 0 (bcode s * 4 + bcode w)
  | .ineg d a s w => enc4 0x17 d.code a.code 1 (bcode s * 4 + bcode w)
  | .not d a w => enc4 0x17 d.code a.code 2 (bcode w)
  | .popc d a => enc4 0x17 d.code a.code 3 0
  | .clz d a => enc4 0x17 d.code a.code 4 0
  | .brev d a => enc4 0x17 d.code a.code 5 0
  | .sxb d a => enc4 0x17 d.code a.code 6 0
  | .sxh d a => enc4 0x17 d.code a.code 7 0
  | .zxb d a => enc4 0x17 d.code a.code 8 0
  | .zxh d a => enc4 0x17 d.code a.code 9 0
  | .ffs d a => enc4 0x17 d.code a.code 10 0
  | .and d a b w => enc4 0x18 d.code a.code b.code (bcode w)
  | .or d a b w => enc4 0x19 d.code a.code b.code (bcode w)
  | .xor d a b w => enc4 0x1A d.code a.code b.code (bcode w)
  | .andn d a b w => enc4 0x1B d.code a.code b.code (bcode w)
  | .shl d a b w => enc4 0x1C d.code a.code b.code (bcode w)
  | .shr d a b w => enc4 0x1D d.code a.code b.code (bcode w)
  | .sra d a b w => enc4 0x1E d.code a.code b.code (bcode w)
  | .rol d a b w => enc4 0x1F d.code a.code b.code (bcode w)
  | .bfx d a b u => enc4 0x20 d.code a.code b.code (bcode u * 2)
  | .bfi d a b => enc4 0x21 d.code a.code b.code 0
  | .icmp p a b c => enc4 0x22 p.val a.code b.code c.code
  | .sel d a b i p => enc4 0x23 d.code a.code b.code (bcode i * 8 + p.val)
  | .lea d a b l s => enc4 0x24 d.code a.code b.code (bcode l * 4 + s.toNat)
  | .mov d a w => enc4 0x25 d.code a.code 0 (bcode w)
  | .iaddi d a k => enc11 0x26 d.code a.code k.toNat
  | .andi d a k => enc11 0x27 d.code a.code k.toNat
  | .ori d a k => enc11 0x28 d.code a.code k.toNat
  | .xori d a k => enc11 0x29 d.code a.code k.toNat
  | .shli d a n => enc11 0x2A d.code a.code n.toNat
  | .shri d a n => enc11 0x2A d.code a.code (n.toNat + 512)
  | .srai d a n => enc11 0x2A d.code a.code (n.toNat + 1024)
  | .roli d a n => enc11 0x2A d.code a.code (n.toNat + 1536)
  | .icmpi p a c k => enc11 0x2B p.val a.code (c.code * 128 + k.toNat)
  | .movi d k => enc18 0x2C d.code k.toNat
  | .movhi d k => enc18 0x2D d.code k.toNat
  | .pand d a b => enc4 0x2E d.val a.val b.val 0
  | .por d a b => enc4 0x2E d.val a.val b.val 1
  | .pxor d a b => enc4 0x2E d.val a.val b.val 2
  | .pandn d a b => enc4 0x2E d.val a.val b.val 3
  | .pnot d a => enc4 0x2E d.val a.val 0 4
  | .pmov d a => enc4 0x2E d.val a.val 0 5
  | .p2v d => enc4 0x2F d.code 0 0 0
  | .v2p a => enc4 0x2F 0 a.code 1 0
  | .fadd d a b r t => enc4 0x30 d.code a.code b.code (r.code * 4 + t.code)
  | .fsub d a b r t => enc4 0x31 d.code a.code b.code (r.code * 4 + t.code)
  | .fmul d a b r t => enc4 0x32 d.code a.code b.code (r.code * 4 + t.code)
  | .ffma d a b r t => enc4 0x33 d.code a.code b.code (r.code * 4 + t.code)
  | .fmin d a b t => enc4 0x34 d.code a.code b.code t.code
  | .fmax d a b t => enc4 0x35 d.code a.code b.code t.code
  | .fabs d a t => enc4 0x36 d.code a.code 0 t.code
  | .fneg d a t => enc4 0x36 d.code a.code 1 t.code
  | .frnd d a r t => enc4 0x36 d.code a.code 2 (r.code * 4 + t.code)
  | .fcls d a t => enc4 0x36 d.code a.code 3 t.code
  | .fexp d a t => enc4 0x36 d.code a.code 4 t.code
  | .fmant d a t => enc4 0x36 d.code a.code 5 t.code
  | .fcmp p a b w c => enc4 0x37 p.val a.code b.code (bcode w * 8 + c.code)
  | .fcvt d a x r s => enc4 0x38 d.code a.code x.code (r.code * 4 + bcode s)
  | .rcp d a => enc4 0x39 d.code a.code 0 0
  | .rsq d a => enc4 0x39 d.code a.code 1 0
  | .sqrt d a => enc4 0x39 d.code a.code 2 0
  | .ex2 d a => enc4 0x39 d.code a.code 3 0
  | .lg2 d a => enc4 0x39 d.code a.code 4 0
  | .sinpi d a => enc4 0x39 d.code a.code 5 0
  | .cospi d a => enc4 0x39 d.code a.code 6 0
  | .tanh d a => enc4 0x39 d.code a.code 7 0
  | .twosum d a b => enc4 0x3A d.code a.code b.code 0
  | .twoprod d a b => enc4 0x3B d.code a.code b.code 0
  | .cmul d a b => enc4 0x3C d.code a.code b.code 0
  | .cfma d a b => enc4 0x3D d.code a.code b.code 0
  | .cacc d a => enc4 0x3E d.code a.code 0 0
  | .fdiv d a b => enc4 0x3F d.code a.code b.code 0
  | .shfl d a b w m => enc4 0x40 d.code a.code b.code (bcode w * 4 + m.code)
  | .voteAny d a i => enc4 0x41 d.val a.val 0 (bcode i * 4)
  | .voteAll d a i => enc4 0x41 d.val a.val 0 (bcode i * 4 + 1)
  | .voteBallot d a i => enc4 0x41 d.code a.val 0 (bcode i * 4 + 2)
  | .voteUniform d a => enc4 0x41 d.val a.code 0 3
  | .scan d a e o => enc4 0x42 d.code a.code 0 (bcode e * 4 + o.code)
  | .redw d a o => enc4 0x43 d.code a.code 0 o.code
  | .matchLanes d a w => enc4 0x44 d.code a.code 0 (bcode w)
  | .lget d a b w => enc4 0x45 d.code a.code b.code (bcode w)
  | .prmt d a b => enc4 0x46 d.code a.code b.code 0
  | .lset d a b w => enc4 0x47 d.code a.code b.code (bcode w)
  | .neg a b f c => enc4 0x48 0 a.code b.code (bcode f * 8 + bcode c)
  | .expo a b f u => enc4 0x49 0 a.code b.code (bcode f * 8 + bcode u * 4)
  | .cexpo a b f u => enc4 0x4A 0 a.code b.code (bcode f * 8 + bcode u * 4)
  | .had a b f c n h =>
    enc4 0x4B 0 a.code b.code (bcode f * 8 + bcode c * 4 + bcode n * 2 + bcode h)
  | .accz a f u => enc4 0x4C 0 a.code 0 (bcode f * 8 + bcode u * 4)
  | .accrdReg d a f => enc4 0x4D d.code a.code 0 (bcode f * 8)
  | .accrdF32 a b f => enc4 0x4D 0 a.code b.code (bcode f * 8 + 1)
  | .accrdBf16 a b f => enc4 0x4D 0 a.code b.code (bcode f * 8 + 2)
  | .accrdE4m3 a b f => enc4 0x4D 0 a.code b.code (bcode f * 8 + 3)
  | .accrdE5m2 a b f => enc4 0x4D 0 a.code b.code (bcode f * 8 + 4)
  | .accrdStat d a f => enc4 0x4D d.code a.code 0 (bcode f * 8 + 5)
  | .accld a b f u m => enc4 0x4E 0 a.code b.code (bcode f * 8 + bcode u * 4 + m.code)
  | .negrel a f => enc4 0x4F 0 a.code 0 (bcode f * 8)
  | .ld d a b f s w => enc4 0x50 d.code a.code b.code (bcode f * 8 + bcode s * 4 + w.code)
  | .ldq d a b f => enc4 0x51 d.code a.code b.code (bcode f * 8)
  | .st d a b f w => enc4 0x52 d.code a.code b.code (bcode f * 8 + w.code)
  | .stq d a b f => enc4 0x53 d.code a.code b.code (bcode f * 8)
  | .ldacq d a s f w => enc4 0x54 d.code a.code s.code (bcode f * 8 + w.code)
  | .strel d a s f w => enc4 0x55 d.code a.code s.code (bcode f * 8 + w.code)
  | .atom d a o s f c w =>
    enc11 0x56 d.code a.code (o.code * 128 + s.code * 16 + bcode f * 8 + c.code * 2 + bcode w)
  | .cas d a s f c w => enc4 0x57 d.code a.code s.code (bcode f * 8 + c.code * 2 + bcode w)
  | .red d a o s f n y w =>
    enc11 0x58 d.code a.code (o.code * 128 + s.code * 16 + bcode f * 8 + bcode n * 4 + bcode y * 2 + bcode w)
  | .fence s f k => enc4 0x59 0 0 s.code (bcode f * 8 + k.code)
  | .watch a f => enc4 0x5A 0 a.code 0 (bcode f * 8)
  | .watchClr f => enc4 0x5A 0 0 0 (bcode f * 8 + 1)
  | .waitw d f n => enc4 0x5B d.code 0 0 (bcode f * 8 + bcode n * 4)
  | .pref a b w => enc4 0x5C 0 a.code b.code (bcode w)
  | .cctlWb a f => enc4 0x5D 0 a.code 0 (bcode f * 8)
  | .cctlInv a f => enc4 0x5D 0 a.code 0 (bcode f * 8 + 1)
  | .cctlDemote a f => enc4 0x5D 0 a.code 0 (bcode f * 8 + 2)
  | .cctlIinv f => enc4 0x5D 0 0 0 (bcode f * 8 + 3)
  | .vld d a b f n l w =>
    enc4 0x60 d.code a.code b.code (bcode f * 8 + bcode n * 4 + bcode l * 2 + bcode w)
  | .vst d a b f n w => enc4 0x61 d.code a.code b.code (bcode f * 8 + bcode n * 4 + bcode w)
  | .vfloor a b f => enc4 0x62 0 a.code b.code (bcode f * 8)
  | .vqry d a f => enc4 0x63 d.code a.code 0 (bcode f * 8)
  | .lds d a f m w => enc4 0x68 d.code a.code (bcode f) (m.code * 4 + w.code)
  | .sts d a f m w => enc4 0x69 d.code a.code (bcode f) (m.code * 4 + w.code)
  | .feget d a f => enc4 0x6A d.code a.code 0 (bcode f * 8)
  | .feset a f => enc4 0x6A 0 a.code 1 (bcode f * 8)
  | .feclr a f => enc4 0x6A 0 a.code 2 (bcode f * 8)
  | .fewait a f e => enc4 0x6A 0 a.code 3 (bcode f * 8 + bcode e)
  | .atoms d a b f => enc4 0x6B d.code a.code b.code (bcode f * 8)
  | .splook d a f => enc4 0x6C d.code a.code 0 (bcode f * 8)
  | .sptag d a b f => enc4 0x6D d.code a.code b.code (bcode f * 8)
  | .sptagInv d a f => enc4 0x6D d.code a.code 0 (bcode f * 8 + 1)
  | .spdesc d a f => enc4 0x6E d.code a.code 0 (bcode f * 8)
  | .spdescSet a b f => enc4 0x6E 0 a.code b.code (bcode f * 8 + 1)
  | .shape d a b f => enc4 0x70 d.code a.code b.code (bcode f * 8)
  | .unshape b f => enc4 0x71 0 0 b.code (bcode f * 8)
  | .cpyin d a b f r => enc4 0x72 d.code a.code b.code (bcode f * 8 + bcode r)
  | .cpyout d a b f r => enc4 0x73 d.code a.code b.code (bcode f * 8 + bcode r)
  | .gather d a b f => enc4 0x74 d.code a.code b.code (bcode f * 8)
  | .stage d f => enc4 0x75 d.code 0 0 (bcode f * 8)
  | .ctab d a b f => enc4 0x76 d.code a.code b.code (bcode f * 8)
  | .cpyq d a f => enc4 0x77 d.code a.code 0 (bcode f * 8)
  | .bar a f n s => enc11 0x78 0 a.code (bcode f * 512 + n.toNat * 16 + s.code * 4)
  | .bara d a f n s => enc11 0x78 d.code a.code (bcode f * 512 + n.toNat * 16 + s.code * 4 + 1)
  | .barw a f n s => enc11 0x78 0 a.code (bcode f * 512 + n.toNat * 16 + s.code * 4 + 2)
  | .barq d f n s => enc11 0x78 d.code 0 (bcode f * 512 + n.toNat * 16 + s.code * 4 + 3)
  | .qpush a q f n => enc4 0x79 0 a.code q.toNat (bcode f * 8 + bcode n * 4)
  | .qpop d q f n => enc4 0x79 d.code 0 q.toNat (bcode f * 8 + bcode n * 4 + 1)
  | .qpeek d q f n => enc4 0x79 d.code 0 q.toNat (bcode f * 8 + bcode n * 4 + 2)
  | .qlen d q f => enc4 0x79 d.code 0 q.toNat (bcode f * 8 + 3)
  | .tspawn a b f => enc4 0x7A 0 a.code b.code (bcode f * 8)
  | .tcount d f => enc4 0x7A d.code 0 0 (bcode f * 8 + 1)
  | .dlset a b => enc4 0x7C 0 a.code b.code 0
  | .dlstep a b => enc4 0x7C 0 a.code b.code 1
  | .dlq d => enc4 0x7C d.code 0 0 2
  | .dlend => enc4 0x7C 0 0 0 3
  | .enrd d f => enc4 0x7D d.code 0 0 (bcode f * 8)
  | .ensave d a f => enc4 0x7D d.code a.code 0 (bcode f * 8 + 1)
  | .enload d a b f => enc4 0x7D d.code a.code b.code (bcode f * 8 + 2)
  | .xperm d a b f => enc4 0x7E d.code a.code b.code (bcode f * 8)
  | .xred d a f => enc4 0x7E d.code a.code 0 (bcode f * 8 + 1)
  | .xbc d a f => enc4 0x7E d.code a.code 0 (bcode f * 8 + 2)
  | .xag d a f => enc4 0x7E d.code a.code 0 (bcode f * 8 + 3)
  | .frent d a => enc4 0x7F d.code a.code 0 0
  | .frentLanes d => enc4 0x7F d.code 0 0 1
  | .frsetPc d a => enc4 0x7F d.code a.code 1 0
  | .frsetPark d => enc4 0x7F d.code 0 1 1
  | .frsetUnpark d => enc4 0x7F d.code 0 1 2
  | .halt a => enc4 0x7F 0 a.code 2 0
  | .haltResume a => enc4 0x7F 0 a.code 2 1
  | .tlbinv d a l => enc4 0x7F d.code a.code 3 (bcode l)
  | .quiesce d a => enc4 0x7F d.code a.code 4 0
  | .quiesceStop d a => enc4 0x7F d.code a.code 4 1
  | .ctxswap d a => enc4 0x7F d.code a.code 5 0
  | .vreg d a => enc4 0x7F d.code a.code 6 0
  | .vunreg d a => enc4 0x7F d.code a.code 7 0
  | .pgattr d a => enc4 0x7F d.code a.code 8 0
  | .illegalInstruction w => w.toNat
  | _ => 0

/-- The literal words that follow the instruction word (R26): those of field a, then of field b. -/
def Instr.lits : Instr → List Word
  | .jmpi a => a.lits
  | .iadd _ a b _ _ _ => a.lits ++ b.lits
  | .isub _ a b _ _ _ => a.lits ++ b.lits
  | .imul _ a b _ _ _ => a.lits ++ b.lits
  | .imulh _ a b _ _ => a.lits ++ b.lits
  | .imad _ a b _ _ _ => a.lits ++ b.lits
  | .imin _ a b _ _ => a.lits ++ b.lits
  | .imax _ a b _ _ => a.lits ++ b.lits
  | .iabs _ a _ _ => a.lits
  | .ineg _ a _ _ => a.lits
  | .not _ a _ => a.lits
  | .popc _ a => a.lits
  | .clz _ a => a.lits
  | .brev _ a => a.lits
  | .sxb _ a => a.lits
  | .sxh _ a => a.lits
  | .zxb _ a => a.lits
  | .zxh _ a => a.lits
  | .ffs _ a => a.lits
  | .and _ a b _ => a.lits ++ b.lits
  | .or _ a b _ => a.lits ++ b.lits
  | .xor _ a b _ => a.lits ++ b.lits
  | .andn _ a b _ => a.lits ++ b.lits
  | .shl _ a b _ => a.lits ++ b.lits
  | .shr _ a b _ => a.lits ++ b.lits
  | .sra _ a b _ => a.lits ++ b.lits
  | .rol _ a b _ => a.lits ++ b.lits
  | .bfx _ a b _ => a.lits ++ b.lits
  | .bfi _ a b => a.lits ++ b.lits
  | .icmp _ a b _ => a.lits ++ b.lits
  | .sel _ a b _ _ => a.lits ++ b.lits
  | .lea _ a b _ _ => a.lits ++ b.lits
  | .mov _ a _ => a.lits
  | .iaddi _ a _ => a.lits
  | .andi _ a _ => a.lits
  | .ori _ a _ => a.lits
  | .xori _ a _ => a.lits
  | .shli _ a _ => a.lits
  | .shri _ a _ => a.lits
  | .srai _ a _ => a.lits
  | .roli _ a _ => a.lits
  | .icmpi _ a _ _ => a.lits
  | .v2p a => a.lits
  | .fadd _ a b _ _ => a.lits ++ b.lits
  | .fsub _ a b _ _ => a.lits ++ b.lits
  | .fmul _ a b _ _ => a.lits ++ b.lits
  | .ffma _ a b _ _ => a.lits ++ b.lits
  | .fmin _ a b _ => a.lits ++ b.lits
  | .fmax _ a b _ => a.lits ++ b.lits
  | .fabs _ a _ => a.lits
  | .fneg _ a _ => a.lits
  | .frnd _ a _ _ => a.lits
  | .fcls _ a _ => a.lits
  | .fexp _ a _ => a.lits
  | .fmant _ a _ => a.lits
  | .fcmp _ a b _ _ => a.lits ++ b.lits
  | .fcvt _ a _ _ _ => a.lits
  | .rcp _ a => a.lits
  | .rsq _ a => a.lits
  | .sqrt _ a => a.lits
  | .ex2 _ a => a.lits
  | .lg2 _ a => a.lits
  | .sinpi _ a => a.lits
  | .cospi _ a => a.lits
  | .tanh _ a => a.lits
  | .twosum _ a b => a.lits ++ b.lits
  | .twoprod _ a b => a.lits ++ b.lits
  | .cmul _ a b => a.lits ++ b.lits
  | .cfma _ a b => a.lits ++ b.lits
  | .cacc _ a => a.lits
  | .fdiv _ a b => a.lits ++ b.lits
  | .shfl _ a b _ _ => a.lits ++ b.lits
  | .voteUniform _ a => a.lits
  | .scan _ a _ _ => a.lits
  | .redw _ a _ => a.lits
  | .matchLanes _ a _ => a.lits
  | .lget _ a b _ => a.lits ++ b.lits
  | .prmt _ a b => a.lits ++ b.lits
  | .lset _ a b _ => a.lits ++ b.lits
  | .neg a b _ _ => a.lits ++ b.lits
  | .expo a b _ _ => a.lits ++ b.lits
  | .cexpo a b _ _ => a.lits ++ b.lits
  | .had a b _ _ _ _ => a.lits ++ b.lits
  | .accz a _ _ => a.lits
  | .accrdReg _ a _ => a.lits
  | .accrdF32 a b _ => a.lits ++ b.lits
  | .accrdBf16 a b _ => a.lits ++ b.lits
  | .accrdE4m3 a b _ => a.lits ++ b.lits
  | .accrdE5m2 a b _ => a.lits ++ b.lits
  | .accrdStat _ a _ => a.lits
  | .accld a b _ _ _ => a.lits ++ b.lits
  | .negrel a _ => a.lits
  | .ld _ a b _ _ _ => a.lits ++ b.lits
  | .ldq _ a b _ => a.lits ++ b.lits
  | .st _ a b _ _ => a.lits ++ b.lits
  | .stq _ a b _ => a.lits ++ b.lits
  | .ldacq _ a _ _ _ => a.lits
  | .strel _ a _ _ _ => a.lits
  | .atom _ a _ _ _ _ _ => a.lits
  | .cas _ a _ _ _ _ => a.lits
  | .red _ a _ _ _ _ _ _ => a.lits
  | .watch a _ => a.lits
  | .pref a b _ => a.lits ++ b.lits
  | .cctlWb a _ => a.lits
  | .cctlInv a _ => a.lits
  | .cctlDemote a _ => a.lits
  | .vld _ a b _ _ _ _ => a.lits ++ b.lits
  | .vst _ a b _ _ _ => a.lits ++ b.lits
  | .vfloor a b _ => a.lits ++ b.lits
  | .vqry _ a _ => a.lits
  | .lds _ a _ _ _ => a.lits
  | .sts _ a _ _ _ => a.lits
  | .feget _ a _ => a.lits
  | .feset a _ => a.lits
  | .feclr a _ => a.lits
  | .fewait a _ _ => a.lits
  | .atoms _ a _ _ => a.lits
  | .splook _ a _ => a.lits
  | .sptag _ a b _ => a.lits ++ b.lits
  | .sptagInv _ a _ => a.lits
  | .spdesc _ a _ => a.lits
  | .spdescSet a b _ => a.lits ++ b.lits
  | .shape _ a b _ => a.lits ++ b.lits
  | .unshape b _ => b.lits
  | .cpyin _ a b _ _ => a.lits ++ b.lits
  | .cpyout _ a b _ _ => a.lits ++ b.lits
  | .gather _ a b _ => a.lits ++ b.lits
  | .ctab _ a b _ => a.lits ++ b.lits
  | .cpyq _ a _ => a.lits
  | .bar a _ _ _ => a.lits
  | .bara _ a _ _ _ => a.lits
  | .barw a _ _ _ => a.lits
  | .qpush a _ _ _ => a.lits
  | .tspawn a b _ => a.lits ++ b.lits
  | .dlset a b => a.lits ++ b.lits
  | .dlstep a b => a.lits ++ b.lits
  | .ensave _ a _ => a.lits
  | .enload _ a b _ => a.lits ++ b.lits
  | .xperm _ a b _ => a.lits ++ b.lits
  | .xred _ a _ => a.lits
  | .xbc _ a _ => a.lits
  | .xag _ a _ => a.lits
  | .frent _ a => a.lits
  | .frsetPc _ a => a.lits
  | .halt a => a.lits
  | .haltResume a => a.lits
  | .tlbinv _ a _ => a.lits
  | .quiesce _ a => a.lits
  | .quiesceStop _ a => a.lits
  | .ctxswap _ a => a.lits
  | .vreg _ a => a.lits
  | .vunreg _ a => a.lits
  | .pgattr _ a => a.lits
  | _ => []

/-- The instruction has an encoding: the events of the opcode table have none. -/
def Instr.hasEncoding : Instr → Bool
  | .illegalInstruction _ => false
  | i => i.wordNat != 0

/-- The words of an instruction. -/
def encode (i : Instr) : List Word := BitVec.ofNat 32 i.wordNat :: i.lits

/-! ## Decoding, one definition for each major opcode (R33) -/

/-- Opcode 0x01: BRA. -/
def decode0x01 (iw : Nat) (ls : List Word) : Dec :=
  takeOpt (BraCond.ofCode? (fld iw 18 7)) fun c =>
  .ok (.bra c (BitVec.ofNat 18 (fld iw 0 18)), ls)

/-- Opcode 0x02: BRX. -/
def decode0x02 (iw : Nat) (ls : List Word) : Dec :=
  takeCSrc (fld iw 18 7) fun c =>
  .ok (.brx c (BitVec.ofNat 18 (fld iw 0 18)), ls)

/-- Opcode 0x03: BRZ. -/
def decode0x03 (iw : Nat) (ls : List Word) : Dec :=
  takeCSrc (fld iw 18 7) fun c =>
  .ok (.brz c (BitVec.ofNat 18 (fld iw 0 18)), ls)

/-- Opcode 0x04: CALL. -/
def decode0x04 (iw : Nat) (ls : List Word) : Dec :=
  takeVReg (fld iw 18 7) fun c =>
  .ok (.call c (BitVec.ofNat 18 (fld iw 0 18)), ls)

/-- Opcode 0x05: JMPI. -/
def decode0x05 (iw : Nat) (ls : List Word) : Dec :=
  if fld iw 0 11 = 0 ∧ fld iw 18 7 = 0 then
    takeSrc (fld iw 11 7) ls fun a ls =>
    .ok (.jmpi a, ls)
  else .error .reservedForm

/-- Opcode 0x06: EXIT. -/
def decode0x06 (iw : Nat) (ls : List Word) : Dec :=
  if fld iw 4 21 = 0 then
    takeOpt (ExitCond.ofCode? (fld iw 0 4)) fun c =>
    .ok (.exit c, ls)
  else .error .reservedForm

/-- Opcode 0x07: YIELD. -/
def decode0x07 (iw : Nat) (ls : List Word) : Dec :=
  if fld iw 0 25 = 0 then
    .ok (.yield, ls)
  else .error .reservedForm

/-- Opcode 0x08: NOP. -/
def decode0x08 (iw : Nat) (ls : List Word) : Dec :=
  if fld iw 0 25 = 0 then
    .ok (.nop, ls)
  else .error .reservedForm

/-- Opcode 0x09: WINB. -/
def decode0x09 (iw : Nat) (ls : List Word) : Dec :=
  if fld iw 8 17 = 0 then
    .ok (.winb (BitVec.ofNat 4 (fld iw 4 4)) (BitVec.ofNat 4 (fld iw 0 4)), ls)
  else .error .reservedForm

/-- Opcode 0x0A: IPREF. -/
def decode0x0A (iw : Nat) (ls : List Word) : Dec :=
  .ok (.ipref (BitVec.ofNat 7 (fld iw 18 7)) (BitVec.ofNat 18 (fld iw 0 18)), ls)

/-- Opcode 0x0B: TRAP. -/
def decode0x0B (iw : Nat) (ls : List Word) : Dec :=
  if fld iw 8 17 = 0 then
    .ok (.trap (BitVec.ofNat 8 (fld iw 0 8)), ls)
  else .error .reservedForm

/-- Opcode 0x0C: ELECT. -/
def decode0x0C (iw : Nat) (ls : List Word) : Dec :=
  if fld iw 0 18 = 0 ∧ fld iw 21 4 = 0 then
    takePReg (fld iw 18 3) fun p =>
    .ok (.elect p, ls)
  else .error .reservedForm

/-- Opcode 0x0D: CSRR. -/
def decode0x0D (iw : Nat) (ls : List Word) : Dec :=
  if fld iw 12 6 = 0 then
    takeDst (fld iw 18 7) fun d =>
    .ok (.csrr d (BitVec.ofNat 12 (fld iw 0 12)), ls)
  else .error .reservedForm

/-- Opcode 0x0E: CSRW. -/
def decode0x0E (iw : Nat) (ls : List Word) : Dec :=
  if fld iw 12 6 = 0 then
    takeCSrc (fld iw 18 7) fun d =>
    .ok (.csrw d (BitVec.ofNat 12 (fld iw 0 12)), ls)
  else .error .reservedForm

/-- Opcode 0x0F: ERET. -/
def decode0x0F (iw : Nat) (ls : List Word) : Dec :=
  if fld iw 0 25 = 0 then
    .ok (.eret, ls)
  else .error .reservedForm

/-- Opcode 0x10: IADD. -/
def decode0x10 (iw : Nat) (ls : List Word) : Dec :=
  if fld iw 3 1 = 0 then
    takeDst (fld iw 18 7) fun d =>
    takeSrc (fld iw 11 7) ls fun a ls =>
    takeSrc (fld iw 4 7) ls fun b ls =>
    .ok (.iadd d a b (fbit iw 2) (fbit iw 1) (fbit iw 0), ls)
  else .error .reservedForm

/-- Opcode 0x11: ISUB. -/
def decode0x11 (iw : Nat) (ls : List Word) : Dec :=
  if fld iw 3 1 = 0 then
    takeDst (fld iw 18 7) fun d =>
    takeSrc (fld iw 11 7) ls fun a ls =>
    takeSrc (fld iw 4 7) ls fun b ls =>
    .ok (.isub d a b (fbit iw 2) (fbit iw 1) (fbit iw 0), ls)
  else .error .reservedForm

/-- Opcode 0x12: IMUL. -/
def decode0x12 (iw : Nat) (ls : List Word) : Dec :=
  if fld iw 3 1 = 0 then
    takeDst (fld iw 18 7) fun d =>
    takeSrc (fld iw 11 7) ls fun a ls =>
    takeSrc (fld iw 4 7) ls fun b ls =>
    .ok (.imul d a b (fbit iw 2) (fbit iw 1) (fbit iw 0), ls)
  else .error .reservedForm

/-- Opcode 0x13: IMULH. -/
def decode0x13 (iw : Nat) (ls : List Word) : Dec :=
  if fld iw 2 2 = 0 then
    takeDst (fld iw 18 7) fun d =>
    takeSrc (fld iw 11 7) ls fun a ls =>
    takeSrc (fld iw 4 7) ls fun b ls =>
    .ok (.imulh d a b (fbit iw 1) (fbit iw 0), ls)
  else .error .reservedForm

/-- Opcode 0x14: IMAD. -/
def decode0x14 (iw : Nat) (ls : List Word) : Dec :=
  if fld iw 3 1 = 0 then
    takeDst (fld iw 18 7) fun d =>
    takeSrc (fld iw 11 7) ls fun a ls =>
    takeSrc (fld iw 4 7) ls fun b ls =>
    .ok (.imad d a b (fbit iw 2) (fbit iw 1) (fbit iw 0), ls)
  else .error .reservedForm

/-- Opcode 0x15: IMIN. -/
def decode0x15 (iw : Nat) (ls : List Word) : Dec :=
  if fld iw 2 2 = 0 then
    takeDst (fld iw 18 7) fun d =>
    takeSrc (fld iw 11 7) ls fun a ls =>
    takeSrc (fld iw 4 7) ls fun b ls =>
    .ok (.imin d a b (fbit iw 1) (fbit iw 0), ls)
  else .error .reservedForm

/-- Opcode 0x16: IMAX. -/
def decode0x16 (iw : Nat) (ls : List Word) : Dec :=
  if fld iw 2 2 = 0 then
    takeDst (fld iw 18 7) fun d =>
    takeSrc (fld iw 11 7) ls fun a ls =>
    takeSrc (fld iw 4 7) ls fun b ls =>
    .ok (.imax d a b (fbit iw 1) (fbit iw 0), ls)
  else .error .reservedForm

/-- Opcode 0x17: IABS, INEG, NOT, POPC, CLZ, BREV, SXB, SXH, ZXB, ZXH, FFS. -/
def decode0x17 (iw : Nat) (ls : List Word) : Dec :=
  if fld iw 1 1 = 0 ∧ fld iw 3 8 = 0 then
    takeDst (fld iw 18 7) fun d =>
    takeSrc (fld iw 11 7) ls fun a ls =>
    .ok (.iabs d a (fbit iw 2) (fbit iw 0), ls)
  else if fld iw 1 1 = 0 ∧ fld iw 3 8 = 2 then
    takeDst (fld iw 18 7) fun d =>
    takeSrc (fld iw 11 7) ls fun a ls =>
    .ok (.ineg d a (fbit iw 2) (fbit iw 0), ls)
  else if fld iw 1 10 = 16 then
    takeDst (fld iw 18 7) fun d =>
    takeSrc (fld iw 11 7) ls fun a ls =>
    .ok (.not d a (fbit iw 0), ls)
  else if fld iw 0 11 = 48 then
    takeDst (fld iw 18 7) fun d =>
    takeSrc (fld iw 11 7) ls fun a ls =>
    .ok (.popc d a, ls)
  else if fld iw 0 11 = 64 then
    takeDst (fld iw 18 7) fun d =>
    takeSrc (fld iw 11 7) ls fun a ls =>
    .ok (.clz d a, ls)
  else if fld iw 0 11 = 80 then
    takeDst (fld iw 18 7) fun d =>
    takeSrc (fld iw 11 7) ls fun a ls =>
    .ok (.brev d a, ls)
  else if fld iw 0 11 = 96 then
    takeDst (fld iw 18 7) fun d =>
    takeSrc (fld iw 11 7) ls fun a ls =>
    .ok (.sxb d a, ls)
  else if fld iw 0 11 = 112 then
    takeDst (fld iw 18 7) fun d =>
    takeSrc (fld iw 11 7) ls fun a ls =>
    .ok (.sxh d a, ls)
  else if fld iw 0 11 = 128 then
    takeDst (fld iw 18 7) fun d =>
    takeSrc (fld iw 11 7) ls fun a ls =>
    .ok (.zxb d a, ls)
  else if fld iw 0 11 = 144 then
    takeDst (fld iw 18 7) fun d =>
    takeSrc (fld iw 11 7) ls fun a ls =>
    .ok (.zxh d a, ls)
  else if fld iw 0 11 = 160 then
    takeDst (fld iw 18 7) fun d =>
    takeSrc (fld iw 11 7) ls fun a ls =>
    .ok (.ffs d a, ls)
  else .error .reservedForm

/-- Opcode 0x18: AND. -/
def decode0x18 (iw : Nat) (ls : List Word) : Dec :=
  if fld iw 1 3 = 0 then
    takeDst (fld iw 18 7) fun d =>
    takeSrc (fld iw 11 7) ls fun a ls =>
    takeSrc (fld iw 4 7) ls fun b ls =>
    .ok (.and d a b (fbit iw 0), ls)
  else .error .reservedForm

/-- Opcode 0x19: OR. -/
def decode0x19 (iw : Nat) (ls : List Word) : Dec :=
  if fld iw 1 3 = 0 then
    takeDst (fld iw 18 7) fun d =>
    takeSrc (fld iw 11 7) ls fun a ls =>
    takeSrc (fld iw 4 7) ls fun b ls =>
    .ok (.or d a b (fbit iw 0), ls)
  else .error .reservedForm

/-- Opcode 0x1A: XOR. -/
def decode0x1A (iw : Nat) (ls : List Word) : Dec :=
  if fld iw 1 3 = 0 then
    takeDst (fld iw 18 7) fun d =>
    takeSrc (fld iw 11 7) ls fun a ls =>
    takeSrc (fld iw 4 7) ls fun b ls =>
    .ok (.xor d a b (fbit iw 0), ls)
  else .error .reservedForm

/-- Opcode 0x1B: ANDN. -/
def decode0x1B (iw : Nat) (ls : List Word) : Dec :=
  if fld iw 1 3 = 0 then
    takeDst (fld iw 18 7) fun d =>
    takeSrc (fld iw 11 7) ls fun a ls =>
    takeSrc (fld iw 4 7) ls fun b ls =>
    .ok (.andn d a b (fbit iw 0), ls)
  else .error .reservedForm

/-- Opcode 0x1C: SHL. -/
def decode0x1C (iw : Nat) (ls : List Word) : Dec :=
  if fld iw 1 3 = 0 then
    takeDst (fld iw 18 7) fun d =>
    takeSrc (fld iw 11 7) ls fun a ls =>
    takeSrc (fld iw 4 7) ls fun b ls =>
    .ok (.shl d a b (fbit iw 0), ls)
  else .error .reservedForm

/-- Opcode 0x1D: SHR. -/
def decode0x1D (iw : Nat) (ls : List Word) : Dec :=
  if fld iw 1 3 = 0 then
    takeDst (fld iw 18 7) fun d =>
    takeSrc (fld iw 11 7) ls fun a ls =>
    takeSrc (fld iw 4 7) ls fun b ls =>
    .ok (.shr d a b (fbit iw 0), ls)
  else .error .reservedForm

/-- Opcode 0x1E: SRA. -/
def decode0x1E (iw : Nat) (ls : List Word) : Dec :=
  if fld iw 1 3 = 0 then
    takeDst (fld iw 18 7) fun d =>
    takeSrc (fld iw 11 7) ls fun a ls =>
    takeSrc (fld iw 4 7) ls fun b ls =>
    .ok (.sra d a b (fbit iw 0), ls)
  else .error .reservedForm

/-- Opcode 0x1F: ROL. -/
def decode0x1F (iw : Nat) (ls : List Word) : Dec :=
  if fld iw 1 3 = 0 then
    takeDst (fld iw 18 7) fun d =>
    takeSrc (fld iw 11 7) ls fun a ls =>
    takeSrc (fld iw 4 7) ls fun b ls =>
    .ok (.rol d a b (fbit iw 0), ls)
  else .error .reservedForm

/-- Opcode 0x20: BFX. -/
def decode0x20 (iw : Nat) (ls : List Word) : Dec :=
  if fld iw 0 1 = 0 ∧ fld iw 2 2 = 0 then
    takeDst (fld iw 18 7) fun d =>
    takeSrc (fld iw 11 7) ls fun a ls =>
    takeSrc (fld iw 4 7) ls fun b ls =>
    .ok (.bfx d a b (fbit iw 1), ls)
  else .error .reservedForm

/-- Opcode 0x21: BFI. -/
def decode0x21 (iw : Nat) (ls : List Word) : Dec :=
  if fld iw 0 4 = 0 then
    takeDst (fld iw 18 7) fun d =>
    takeSrc (fld iw 11 7) ls fun a ls =>
    takeSrc (fld iw 4 7) ls fun b ls =>
    .ok (.bfi d a b, ls)
  else .error .reservedForm

/-- Opcode 0x22: ICMP. -/
def decode0x22 (iw : Nat) (ls : List Word) : Dec :=
  if fld iw 21 4 = 0 then
    takePReg (fld iw 18 3) fun p =>
    takeSrc (fld iw 11 7) ls fun a ls =>
    takeSrc (fld iw 4 7) ls fun b ls =>
    takeOpt (Cond.ofCode? (fld iw 0 4)) fun c =>
    .ok (.icmp p a b c, ls)
  else .error .reservedForm

/-- Opcode 0x23: SEL. -/
def decode0x23 (iw : Nat) (ls : List Word) : Dec :=
  takeDst (fld iw 18 7) fun d =>
  takeSrc (fld iw 11 7) ls fun a ls =>
  takeSrc (fld iw 4 7) ls fun b ls =>
  takePReg (fld iw 0 3) fun p =>
  .ok (.sel d a b (fbit iw 3) p, ls)

/-- Opcode 0x24: LEA. -/
def decode0x24 (iw : Nat) (ls : List Word) : Dec :=
  if fld iw 3 1 = 0 then
    takeDst (fld iw 18 7) fun d =>
    takeSrc (fld iw 11 7) ls fun a ls =>
    takeSrc (fld iw 4 7) ls fun b ls =>
    .ok (.lea d a b (fbit iw 2) (BitVec.ofNat 2 (fld iw 0 2)), ls)
  else .error .reservedForm

/-- Opcode 0x25: MOV. -/
def decode0x25 (iw : Nat) (ls : List Word) : Dec :=
  if fld iw 1 10 = 0 then
    takeDst (fld iw 18 7) fun d =>
    takeSrc (fld iw 11 7) ls fun a ls =>
    .ok (.mov d a (fbit iw 0), ls)
  else .error .reservedForm

/-- Opcode 0x26: IADDI. -/
def decode0x26 (iw : Nat) (ls : List Word) : Dec :=
  takeDst (fld iw 18 7) fun d =>
  takeSrc (fld iw 11 7) ls fun a ls =>
  .ok (.iaddi d a (BitVec.ofNat 11 (fld iw 0 11)), ls)

/-- Opcode 0x27: ANDI. -/
def decode0x27 (iw : Nat) (ls : List Word) : Dec :=
  takeDst (fld iw 18 7) fun d =>
  takeSrc (fld iw 11 7) ls fun a ls =>
  .ok (.andi d a (BitVec.ofNat 11 (fld iw 0 11)), ls)

/-- Opcode 0x28: ORI. -/
def decode0x28 (iw : Nat) (ls : List Word) : Dec :=
  takeDst (fld iw 18 7) fun d =>
  takeSrc (fld iw 11 7) ls fun a ls =>
  .ok (.ori d a (BitVec.ofNat 11 (fld iw 0 11)), ls)

/-- Opcode 0x29: XORI. -/
def decode0x29 (iw : Nat) (ls : List Word) : Dec :=
  takeDst (fld iw 18 7) fun d =>
  takeSrc (fld iw 11 7) ls fun a ls =>
  .ok (.xori d a (BitVec.ofNat 11 (fld iw 0 11)), ls)

/-- Opcode 0x2A: SHLI, SHRI, SRAI, ROLI. -/
def decode0x2A (iw : Nat) (ls : List Word) : Dec :=
  if fld iw 5 6 = 0 then
    takeDst (fld iw 18 7) fun d =>
    takeSrc (fld iw 11 7) ls fun a ls =>
    .ok (.shli d a (BitVec.ofNat 5 (fld iw 0 5)), ls)
  else if fld iw 5 6 = 16 then
    takeDst (fld iw 18 7) fun d =>
    takeSrc (fld iw 11 7) ls fun a ls =>
    .ok (.shri d a (BitVec.ofNat 5 (fld iw 0 5)), ls)
  else if fld iw 5 6 = 32 then
    takeDst (fld iw 18 7) fun d =>
    takeSrc (fld iw 11 7) ls fun a ls =>
    .ok (.srai d a (BitVec.ofNat 5 (fld iw 0 5)), ls)
  else if fld iw 5 6 = 48 then
    takeDst (fld iw 18 7) fun d =>
    takeSrc (fld iw 11 7) ls fun a ls =>
    .ok (.roli d a (BitVec.ofNat 5 (fld iw 0 5)), ls)
  else .error .reservedForm

/-- Opcode 0x2B: ICMPI. -/
def decode0x2B (iw : Nat) (ls : List Word) : Dec :=
  if fld iw 21 4 = 0 then
    takePReg (fld iw 18 3) fun p =>
    takeSrc (fld iw 11 7) ls fun a ls =>
    takeOpt (Cond.ofCode? (fld iw 7 4)) fun c =>
    .ok (.icmpi p a c (BitVec.ofNat 7 (fld iw 0 7)), ls)
  else .error .reservedForm

/-- Opcode 0x2C: MOVI. -/
def decode0x2C (iw : Nat) (ls : List Word) : Dec :=
  takeDst (fld iw 18 7) fun d =>
  .ok (.movi d (BitVec.ofNat 18 (fld iw 0 18)), ls)

/-- Opcode 0x2D: MOVHI. -/
def decode0x2D (iw : Nat) (ls : List Word) : Dec :=
  takeDst (fld iw 18 7) fun d =>
  .ok (.movhi d (BitVec.ofNat 18 (fld iw 0 18)), ls)

/-- Opcode 0x2E: PAND, POR, PXOR, PANDN, PNOT, PMOV. -/
def decode0x2E (iw : Nat) (ls : List Word) : Dec :=
  if fld iw 0 4 = 0 ∧ fld iw 7 4 = 0 ∧ fld iw 14 4 = 0 ∧ fld iw 21 4 = 0 then
    takePReg (fld iw 18 3) fun d =>
    takePReg (fld iw 11 3) fun a =>
    takePReg (fld iw 4 3) fun b =>
    .ok (.pand d a b, ls)
  else if fld iw 0 4 = 1 ∧ fld iw 7 4 = 0 ∧ fld iw 14 4 = 0 ∧ fld iw 21 4 = 0 then
    takePReg (fld iw 18 3) fun d =>
    takePReg (fld iw 11 3) fun a =>
    takePReg (fld iw 4 3) fun b =>
    .ok (.por d a b, ls)
  else if fld iw 0 4 = 2 ∧ fld iw 7 4 = 0 ∧ fld iw 14 4 = 0 ∧ fld iw 21 4 = 0 then
    takePReg (fld iw 18 3) fun d =>
    takePReg (fld iw 11 3) fun a =>
    takePReg (fld iw 4 3) fun b =>
    .ok (.pxor d a b, ls)
  else if fld iw 0 4 = 3 ∧ fld iw 7 4 = 0 ∧ fld iw 14 4 = 0 ∧ fld iw 21 4 = 0 then
    takePReg (fld iw 18 3) fun d =>
    takePReg (fld iw 11 3) fun a =>
    takePReg (fld iw 4 3) fun b =>
    .ok (.pandn d a b, ls)
  else if fld iw 0 11 = 4 ∧ fld iw 14 4 = 0 ∧ fld iw 21 4 = 0 then
    takePReg (fld iw 18 3) fun d =>
    takePReg (fld iw 11 3) fun a =>
    .ok (.pnot d a, ls)
  else if fld iw 0 11 = 5 ∧ fld iw 14 4 = 0 ∧ fld iw 21 4 = 0 then
    takePReg (fld iw 18 3) fun d =>
    takePReg (fld iw 11 3) fun a =>
    .ok (.pmov d a, ls)
  else .error .reservedForm

/-- Opcode 0x2F: P2V, V2P. -/
def decode0x2F (iw : Nat) (ls : List Word) : Dec :=
  if fld iw 0 18 = 0 then
    takeDst (fld iw 18 7) fun d =>
    .ok (.p2v d, ls)
  else if fld iw 0 11 = 16 ∧ fld iw 18 7 = 0 then
    takeSrc (fld iw 11 7) ls fun a ls =>
    .ok (.v2p a, ls)
  else .error .reservedForm

/-- Opcode 0x30: FADD. -/
def decode0x30 (iw : Nat) (ls : List Word) : Dec :=
  takeDst (fld iw 18 7) fun d =>
  takeSrc (fld iw 11 7) ls fun a ls =>
  takeSrc (fld iw 4 7) ls fun b ls =>
  takeOpt (RMode.ofCode? (fld iw 2 2)) fun r =>
  takeOpt (FType.ofCode? (fld iw 0 2)) fun t =>
  .ok (.fadd d a b r t, ls)

/-- Opcode 0x31: FSUB. -/
def decode0x31 (iw : Nat) (ls : List Word) : Dec :=
  takeDst (fld iw 18 7) fun d =>
  takeSrc (fld iw 11 7) ls fun a ls =>
  takeSrc (fld iw 4 7) ls fun b ls =>
  takeOpt (RMode.ofCode? (fld iw 2 2)) fun r =>
  takeOpt (FType.ofCode? (fld iw 0 2)) fun t =>
  .ok (.fsub d a b r t, ls)

/-- Opcode 0x32: FMUL. -/
def decode0x32 (iw : Nat) (ls : List Word) : Dec :=
  takeDst (fld iw 18 7) fun d =>
  takeSrc (fld iw 11 7) ls fun a ls =>
  takeSrc (fld iw 4 7) ls fun b ls =>
  takeOpt (RMode.ofCode? (fld iw 2 2)) fun r =>
  takeOpt (FType.ofCode? (fld iw 0 2)) fun t =>
  .ok (.fmul d a b r t, ls)

/-- Opcode 0x33: FFMA. -/
def decode0x33 (iw : Nat) (ls : List Word) : Dec :=
  takeDst (fld iw 18 7) fun d =>
  takeSrc (fld iw 11 7) ls fun a ls =>
  takeSrc (fld iw 4 7) ls fun b ls =>
  takeOpt (RMode.ofCode? (fld iw 2 2)) fun r =>
  takeOpt (FType.ofCode? (fld iw 0 2)) fun t =>
  .ok (.ffma d a b r t, ls)

/-- Opcode 0x34: FMIN. -/
def decode0x34 (iw : Nat) (ls : List Word) : Dec :=
  if fld iw 2 2 = 0 then
    takeDst (fld iw 18 7) fun d =>
    takeSrc (fld iw 11 7) ls fun a ls =>
    takeSrc (fld iw 4 7) ls fun b ls =>
    takeOpt (FType.ofCode? (fld iw 0 2)) fun t =>
    .ok (.fmin d a b t, ls)
  else .error .reservedForm

/-- Opcode 0x35: FMAX. -/
def decode0x35 (iw : Nat) (ls : List Word) : Dec :=
  if fld iw 2 2 = 0 then
    takeDst (fld iw 18 7) fun d =>
    takeSrc (fld iw 11 7) ls fun a ls =>
    takeSrc (fld iw 4 7) ls fun b ls =>
    takeOpt (FType.ofCode? (fld iw 0 2)) fun t =>
    .ok (.fmax d a b t, ls)
  else .error .reservedForm

/-- Opcode 0x36: FABS, FNEG, FRND, FCLS, FEXP, FMANT. -/
def decode0x36 (iw : Nat) (ls : List Word) : Dec :=
  if fld iw 2 9 = 0 then
    takeDst (fld iw 18 7) fun d =>
    takeSrc (fld iw 11 7) ls fun a ls =>
    takeOpt (FType.ofCode? (fld iw 0 2)) fun t =>
    .ok (.fabs d a t, ls)
  else if fld iw 2 9 = 4 then
    takeDst (fld iw 18 7) fun d =>
    takeSrc (fld iw 11 7) ls fun a ls =>
    takeOpt (FType.ofCode? (fld iw 0 2)) fun t =>
    .ok (.fneg d a t, ls)
  else if fld iw 4 7 = 2 then
    takeDst (fld iw 18 7) fun d =>
    takeSrc (fld iw 11 7) ls fun a ls =>
    takeOpt (RMode.ofCode? (fld iw 2 2)) fun r =>
    takeOpt (FType.ofCode? (fld iw 0 2)) fun t =>
    .ok (.frnd d a r t, ls)
  else if fld iw 2 9 = 12 then
    takeDst (fld iw 18 7) fun d =>
    takeSrc (fld iw 11 7) ls fun a ls =>
    takeOpt (FType.ofCode? (fld iw 0 2)) fun t =>
    .ok (.fcls d a t, ls)
  else if fld iw 2 9 = 16 then
    takeDst (fld iw 18 7) fun d =>
    takeSrc (fld iw 11 7) ls fun a ls =>
    takeOpt (FType.ofCode? (fld iw 0 2)) fun t =>
    .ok (.fexp d a t, ls)
  else if fld iw 2 9 = 20 then
    takeDst (fld iw 18 7) fun d =>
    takeSrc (fld iw 11 7) ls fun a ls =>
    takeOpt (FType.ofCode? (fld iw 0 2)) fun t =>
    .ok (.fmant d a t, ls)
  else .error .reservedForm

/-- Opcode 0x37: FCMP. -/
def decode0x37 (iw : Nat) (ls : List Word) : Dec :=
  if fld iw 21 4 = 0 then
    takePReg (fld iw 18 3) fun p =>
    takeSrc (fld iw 11 7) ls fun a ls =>
    takeSrc (fld iw 4 7) ls fun b ls =>
    takeOpt (FCond.ofCode? (fld iw 0 3)) fun c =>
    .ok (.fcmp p a b (fbit iw 3) c, ls)
  else .error .reservedForm

/-- Opcode 0x38: FCVT. -/
def decode0x38 (iw : Nat) (ls : List Word) : Dec :=
  if fld iw 1 1 = 0 then
    takeDst (fld iw 18 7) fun d =>
    takeSrc (fld iw 11 7) ls fun a ls =>
    takeOpt (Conv.ofCode? (fld iw 4 7)) fun x =>
    takeOpt (RMode.ofCode? (fld iw 2 2)) fun r =>
    .ok (.fcvt d a x r (fbit iw 0), ls)
  else .error .reservedForm

/-- Opcode 0x39: RCP, RSQ, SQRT, EX2, LG2, SINPI, COSPI, TANH. -/
def decode0x39 (iw : Nat) (ls : List Word) : Dec :=
  if fld iw 0 11 = 0 then
    takeDst (fld iw 18 7) fun d =>
    takeSrc (fld iw 11 7) ls fun a ls =>
    .ok (.rcp d a, ls)
  else if fld iw 0 11 = 16 then
    takeDst (fld iw 18 7) fun d =>
    takeSrc (fld iw 11 7) ls fun a ls =>
    .ok (.rsq d a, ls)
  else if fld iw 0 11 = 32 then
    takeDst (fld iw 18 7) fun d =>
    takeSrc (fld iw 11 7) ls fun a ls =>
    .ok (.sqrt d a, ls)
  else if fld iw 0 11 = 48 then
    takeDst (fld iw 18 7) fun d =>
    takeSrc (fld iw 11 7) ls fun a ls =>
    .ok (.ex2 d a, ls)
  else if fld iw 0 11 = 64 then
    takeDst (fld iw 18 7) fun d =>
    takeSrc (fld iw 11 7) ls fun a ls =>
    .ok (.lg2 d a, ls)
  else if fld iw 0 11 = 80 then
    takeDst (fld iw 18 7) fun d =>
    takeSrc (fld iw 11 7) ls fun a ls =>
    .ok (.sinpi d a, ls)
  else if fld iw 0 11 = 96 then
    takeDst (fld iw 18 7) fun d =>
    takeSrc (fld iw 11 7) ls fun a ls =>
    .ok (.cospi d a, ls)
  else if fld iw 0 11 = 112 then
    takeDst (fld iw 18 7) fun d =>
    takeSrc (fld iw 11 7) ls fun a ls =>
    .ok (.tanh d a, ls)
  else .error .reservedForm

/-- Opcode 0x3A: TWOSUM. -/
def decode0x3A (iw : Nat) (ls : List Word) : Dec :=
  if fld iw 0 4 = 0 then
    takeDst (fld iw 18 7) fun d =>
    takeSrc (fld iw 11 7) ls fun a ls =>
    takeSrc (fld iw 4 7) ls fun b ls =>
    .ok (.twosum d a b, ls)
  else .error .reservedForm

/-- Opcode 0x3B: TWOPROD. -/
def decode0x3B (iw : Nat) (ls : List Word) : Dec :=
  if fld iw 0 4 = 0 then
    takeDst (fld iw 18 7) fun d =>
    takeSrc (fld iw 11 7) ls fun a ls =>
    takeSrc (fld iw 4 7) ls fun b ls =>
    .ok (.twoprod d a b, ls)
  else .error .reservedForm

/-- Opcode 0x3C: CMUL. -/
def decode0x3C (iw : Nat) (ls : List Word) : Dec :=
  if fld iw 0 4 = 0 then
    takeDst (fld iw 18 7) fun d =>
    takeSrc (fld iw 11 7) ls fun a ls =>
    takeSrc (fld iw 4 7) ls fun b ls =>
    .ok (.cmul d a b, ls)
  else .error .reservedForm

/-- Opcode 0x3D: CFMA. -/
def decode0x3D (iw : Nat) (ls : List Word) : Dec :=
  if fld iw 0 4 = 0 then
    takeDst (fld iw 18 7) fun d =>
    takeSrc (fld iw 11 7) ls fun a ls =>
    takeSrc (fld iw 4 7) ls fun b ls =>
    .ok (.cfma d a b, ls)
  else .error .reservedForm

/-- Opcode 0x3E: CACC. -/
def decode0x3E (iw : Nat) (ls : List Word) : Dec :=
  if fld iw 0 11 = 0 then
    takeDst (fld iw 18 7) fun d =>
    takeSrc (fld iw 11 7) ls fun a ls =>
    .ok (.cacc d a, ls)
  else .error .reservedForm

/-- Opcode 0x3F: FDIV. -/
def decode0x3F (iw : Nat) (ls : List Word) : Dec :=
  if fld iw 0 4 = 0 then
    takeDst (fld iw 18 7) fun d =>
    takeSrc (fld iw 11 7) ls fun a ls =>
    takeSrc (fld iw 4 7) ls fun b ls =>
    .ok (.fdiv d a b, ls)
  else .error .reservedForm

/-- Opcode 0x40: SHFL. -/
def decode0x40 (iw : Nat) (ls : List Word) : Dec :=
  if fld iw 3 1 = 0 then
    takeDst (fld iw 18 7) fun d =>
    takeSrc (fld iw 11 7) ls fun a ls =>
    takeSrc (fld iw 4 7) ls fun b ls =>
    takeOpt (ShflMode.ofCode? (fld iw 0 2)) fun m =>
    .ok (.shfl d a b (fbit iw 2) m, ls)
  else .error .reservedForm

/-- Opcode 0x41: VOTE_ANY, VOTE_ALL, VOTE_BALLOT, VOTE_UNIFORM. -/
def decode0x41 (iw : Nat) (ls : List Word) : Dec :=
  if fld iw 0 2 = 0 ∧ fld iw 3 8 = 0 ∧ fld iw 14 4 = 0 ∧ fld iw 21 4 = 0 then
    takePReg (fld iw 18 3) fun d =>
    takePReg (fld iw 11 3) fun a =>
    .ok (.voteAny d a (fbit iw 2), ls)
  else if fld iw 0 2 = 1 ∧ fld iw 3 8 = 0 ∧ fld iw 14 4 = 0 ∧ fld iw 21 4 = 0 then
    takePReg (fld iw 18 3) fun d =>
    takePReg (fld iw 11 3) fun a =>
    .ok (.voteAll d a (fbit iw 2), ls)
  else if fld iw 0 2 = 2 ∧ fld iw 3 8 = 0 ∧ fld iw 14 4 = 0 then
    takeDst (fld iw 18 7) fun d =>
    takePReg (fld iw 11 3) fun a =>
    .ok (.voteBallot d a (fbit iw 2), ls)
  else if fld iw 0 11 = 3 ∧ fld iw 21 4 = 0 then
    takePReg (fld iw 18 3) fun d =>
    takeSrc (fld iw 11 7) ls fun a ls =>
    .ok (.voteUniform d a, ls)
  else .error .reservedForm

/-- Opcode 0x42: SCAN. -/
def decode0x42 (iw : Nat) (ls : List Word) : Dec :=
  if fld iw 3 8 = 0 then
    takeDst (fld iw 18 7) fun d =>
    takeSrc (fld iw 11 7) ls fun a ls =>
    takeOpt (ScanOp.ofCode? (fld iw 0 2)) fun o =>
    .ok (.scan d a (fbit iw 2) o, ls)
  else .error .reservedForm

/-- Opcode 0x43: REDW. -/
def decode0x43 (iw : Nat) (ls : List Word) : Dec :=
  if fld iw 2 9 = 0 then
    takeDst (fld iw 18 7) fun d =>
    takeSrc (fld iw 11 7) ls fun a ls =>
    takeOpt (ScanOp.ofCode? (fld iw 0 2)) fun o =>
    .ok (.redw d a o, ls)
  else .error .reservedForm

/-- Opcode 0x44: MATCH. -/
def decode0x44 (iw : Nat) (ls : List Word) : Dec :=
  if fld iw 1 10 = 0 then
    takeDst (fld iw 18 7) fun d =>
    takeSrc (fld iw 11 7) ls fun a ls =>
    .ok (.matchLanes d a (fbit iw 0), ls)
  else .error .reservedForm

/-- Opcode 0x45: LGET. -/
def decode0x45 (iw : Nat) (ls : List Word) : Dec :=
  if fld iw 1 3 = 0 then
    takeDst (fld iw 18 7) fun d =>
    takeSrc (fld iw 11 7) ls fun a ls =>
    takeSrc (fld iw 4 7) ls fun b ls =>
    .ok (.lget d a b (fbit iw 0), ls)
  else .error .reservedForm

/-- Opcode 0x46: PRMT. -/
def decode0x46 (iw : Nat) (ls : List Word) : Dec :=
  if fld iw 0 4 = 0 then
    takeDst (fld iw 18 7) fun d =>
    takeSrc (fld iw 11 7) ls fun a ls =>
    takeSrc (fld iw 4 7) ls fun b ls =>
    .ok (.prmt d a b, ls)
  else .error .reservedForm

/-- Opcode 0x47: LSET. -/
def decode0x47 (iw : Nat) (ls : List Word) : Dec :=
  if fld iw 1 3 = 0 then
    takeDst (fld iw 18 7) fun d =>
    takeSrc (fld iw 11 7) ls fun a ls =>
    takeSrc (fld iw 4 7) ls fun b ls =>
    .ok (.lset d a b (fbit iw 0), ls)
  else .error .reservedForm

/-- Opcode 0x48: NEG. -/
def decode0x48 (iw : Nat) (ls : List Word) : Dec :=
  if fld iw 1 2 = 0 ∧ fld iw 18 7 = 0 then
    takeSrc (fld iw 11 7) ls fun a ls =>
    takeSrc (fld iw 4 7) ls fun b ls =>
    .ok (.neg a b (fbit iw 3) (fbit iw 0), ls)
  else .error .reservedForm

/-- Opcode 0x49: EXPO. -/
def decode0x49 (iw : Nat) (ls : List Word) : Dec :=
  if fld iw 0 2 = 0 ∧ fld iw 18 7 = 0 then
    takeSrc (fld iw 11 7) ls fun a ls =>
    takeSrc (fld iw 4 7) ls fun b ls =>
    .ok (.expo a b (fbit iw 3) (fbit iw 2), ls)
  else .error .reservedForm

/-- Opcode 0x4A: CEXPO. -/
def decode0x4A (iw : Nat) (ls : List Word) : Dec :=
  if fld iw 0 2 = 0 ∧ fld iw 18 7 = 0 then
    takeSrc (fld iw 11 7) ls fun a ls =>
    takeSrc (fld iw 4 7) ls fun b ls =>
    .ok (.cexpo a b (fbit iw 3) (fbit iw 2), ls)
  else .error .reservedForm

/-- Opcode 0x4B: HAD. -/
def decode0x4B (iw : Nat) (ls : List Word) : Dec :=
  if fld iw 18 7 = 0 then
    takeSrc (fld iw 11 7) ls fun a ls =>
    takeSrc (fld iw 4 7) ls fun b ls =>
    .ok (.had a b (fbit iw 3) (fbit iw 2) (fbit iw 1) (fbit iw 0), ls)
  else .error .reservedForm

/-- Opcode 0x4C: ACCZ. -/
def decode0x4C (iw : Nat) (ls : List Word) : Dec :=
  if fld iw 0 2 = 0 ∧ fld iw 4 7 = 0 ∧ fld iw 18 7 = 0 then
    takeSrc (fld iw 11 7) ls fun a ls =>
    .ok (.accz a (fbit iw 3) (fbit iw 2), ls)
  else .error .reservedForm

/-- Opcode 0x4D: ACCRD_REG, ACCRD_F32, ACCRD_BF16, ACCRD_E4M3, ACCRD_E5M2, ACCRD_STAT. -/
def decode0x4D (iw : Nat) (ls : List Word) : Dec :=
  if fld iw 0 3 = 0 ∧ fld iw 4 7 = 0 then
    takeDst (fld iw 18 7) fun d =>
    takeSrc (fld iw 11 7) ls fun a ls =>
    .ok (.accrdReg d a (fbit iw 3), ls)
  else if fld iw 0 3 = 1 ∧ fld iw 18 7 = 0 then
    takeSrc (fld iw 11 7) ls fun a ls =>
    takeSrc (fld iw 4 7) ls fun b ls =>
    .ok (.accrdF32 a b (fbit iw 3), ls)
  else if fld iw 0 3 = 2 ∧ fld iw 18 7 = 0 then
    takeSrc (fld iw 11 7) ls fun a ls =>
    takeSrc (fld iw 4 7) ls fun b ls =>
    .ok (.accrdBf16 a b (fbit iw 3), ls)
  else if fld iw 0 3 = 3 ∧ fld iw 18 7 = 0 then
    takeSrc (fld iw 11 7) ls fun a ls =>
    takeSrc (fld iw 4 7) ls fun b ls =>
    .ok (.accrdE4m3 a b (fbit iw 3), ls)
  else if fld iw 0 3 = 4 ∧ fld iw 18 7 = 0 then
    takeSrc (fld iw 11 7) ls fun a ls =>
    takeSrc (fld iw 4 7) ls fun b ls =>
    .ok (.accrdE5m2 a b (fbit iw 3), ls)
  else if fld iw 0 3 = 5 ∧ fld iw 4 7 = 0 then
    takeDst (fld iw 18 7) fun d =>
    takeSrc (fld iw 11 7) ls fun a ls =>
    .ok (.accrdStat d a (fbit iw 3), ls)
  else .error .reservedForm

/-- Opcode 0x4E: ACCLD. -/
def decode0x4E (iw : Nat) (ls : List Word) : Dec :=
  if fld iw 18 7 = 0 then
    takeSrc (fld iw 11 7) ls fun a ls =>
    takeSrc (fld iw 4 7) ls fun b ls =>
    takeOpt (AccldMode.ofCode? (fld iw 0 2)) fun m =>
    .ok (.accld a b (fbit iw 3) (fbit iw 2) m, ls)
  else .error .reservedForm

/-- Opcode 0x4F: NEGREL. -/
def decode0x4F (iw : Nat) (ls : List Word) : Dec :=
  if fld iw 0 3 = 0 ∧ fld iw 4 7 = 0 ∧ fld iw 18 7 = 0 then
    takeSrc (fld iw 11 7) ls fun a ls =>
    .ok (.negrel a (fbit iw 3), ls)
  else .error .reservedForm

/-- Opcode 0x50: LD. -/
def decode0x50 (iw : Nat) (ls : List Word) : Dec :=
  takeDst (fld iw 18 7) fun d =>
  takeSrc (fld iw 11 7) ls fun a ls =>
  takeSrc (fld iw 4 7) ls fun b ls =>
  takeOpt (MemW.ofCode? (fld iw 0 2)) fun w =>
  .ok (.ld d a b (fbit iw 3) (fbit iw 2) w, ls)

/-- Opcode 0x51: LDQ. -/
def decode0x51 (iw : Nat) (ls : List Word) : Dec :=
  if fld iw 0 3 = 0 then
    takeDst (fld iw 18 7) fun d =>
    takeSrc (fld iw 11 7) ls fun a ls =>
    takeSrc (fld iw 4 7) ls fun b ls =>
    .ok (.ldq d a b (fbit iw 3), ls)
  else .error .reservedForm

/-- Opcode 0x52: ST. -/
def decode0x52 (iw : Nat) (ls : List Word) : Dec :=
  if fld iw 2 1 = 0 then
    takeCSrc (fld iw 18 7) fun d =>
    takeSrc (fld iw 11 7) ls fun a ls =>
    takeSrc (fld iw 4 7) ls fun b ls =>
    takeOpt (MemW.ofCode? (fld iw 0 2)) fun w =>
    .ok (.st d a b (fbit iw 3) w, ls)
  else .error .reservedForm

/-- Opcode 0x53: STQ. -/
def decode0x53 (iw : Nat) (ls : List Word) : Dec :=
  if fld iw 0 3 = 0 then
    takeCSrc (fld iw 18 7) fun d =>
    takeSrc (fld iw 11 7) ls fun a ls =>
    takeSrc (fld iw 4 7) ls fun b ls =>
    .ok (.stq d a b (fbit iw 3), ls)
  else .error .reservedForm

/-- Opcode 0x54: LDACQ. -/
def decode0x54 (iw : Nat) (ls : List Word) : Dec :=
  if fld iw 2 1 = 0 ∧ fld iw 7 4 = 0 then
    takeDst (fld iw 18 7) fun d =>
    takeSrc (fld iw 11 7) ls fun a ls =>
    takeOpt (Scope.ofCode? (fld iw 4 3)) fun s =>
    takeOpt (AcqW.ofCode? (fld iw 0 2)) fun w =>
    .ok (.ldacq d a s (fbit iw 3) w, ls)
  else .error .reservedForm

/-- Opcode 0x55: STREL. -/
def decode0x55 (iw : Nat) (ls : List Word) : Dec :=
  if fld iw 2 1 = 0 ∧ fld iw 7 4 = 0 then
    takeCSrc (fld iw 18 7) fun d =>
    takeSrc (fld iw 11 7) ls fun a ls =>
    takeOpt (Scope.ofCode? (fld iw 4 3)) fun s =>
    takeOpt (AcqW.ofCode? (fld iw 0 2)) fun w =>
    .ok (.strel d a s (fbit iw 3) w, ls)
  else .error .reservedForm

/-- Opcode 0x56: ATOM. -/
def decode0x56 (iw : Nat) (ls : List Word) : Dec :=
  takeDst (fld iw 18 7) fun d =>
  takeSrc (fld iw 11 7) ls fun a ls =>
  takeOpt (AtomOp.ofCode? (fld iw 7 4)) fun o =>
  takeOpt (Scope.ofCode? (fld iw 4 3)) fun s =>
  takeOpt (Ord.ofCode? (fld iw 1 2)) fun c =>
  .ok (.atom d a o s (fbit iw 3) c (fbit iw 0), ls)

/-- Opcode 0x57: CAS. -/
def decode0x57 (iw : Nat) (ls : List Word) : Dec :=
  if fld iw 7 4 = 0 then
    takeDst (fld iw 18 7) fun d =>
    takeSrc (fld iw 11 7) ls fun a ls =>
    takeOpt (Scope.ofCode? (fld iw 4 3)) fun s =>
    takeOpt (Ord.ofCode? (fld iw 1 2)) fun c =>
    .ok (.cas d a s (fbit iw 3) c (fbit iw 0), ls)
  else .error .reservedForm

/-- Opcode 0x58: RED. -/
def decode0x58 (iw : Nat) (ls : List Word) : Dec :=
  takeCSrc (fld iw 18 7) fun d =>
  takeSrc (fld iw 11 7) ls fun a ls =>
  takeOpt (AtomOp.ofCode? (fld iw 7 4)) fun o =>
  takeOpt (Scope.ofCode? (fld iw 4 3)) fun s =>
  .ok (.red d a o s (fbit iw 3) (fbit iw 2) (fbit iw 1) (fbit iw 0), ls)

/-- Opcode 0x59: FENCE. -/
def decode0x59 (iw : Nat) (ls : List Word) : Dec :=
  if fld iw 2 1 = 0 ∧ fld iw 7 18 = 0 then
    takeOpt (Scope.ofCode? (fld iw 4 3)) fun s =>
    takeOpt (FenceK.ofCode? (fld iw 0 2)) fun k =>
    .ok (.fence s (fbit iw 3) k, ls)
  else .error .reservedForm

/-- Opcode 0x5A: WATCH, WATCH_CLR. -/
def decode0x5A (iw : Nat) (ls : List Word) : Dec :=
  if fld iw 0 3 = 0 ∧ fld iw 4 7 = 0 ∧ fld iw 18 7 = 0 then
    takeSrc (fld iw 11 7) ls fun a ls =>
    .ok (.watch a (fbit iw 3), ls)
  else if fld iw 0 3 = 1 ∧ fld iw 4 21 = 0 then
    .ok (.watchClr (fbit iw 3), ls)
  else .error .reservedForm

/-- Opcode 0x5B: WAITW. -/
def decode0x5B (iw : Nat) (ls : List Word) : Dec :=
  if fld iw 0 2 = 0 ∧ fld iw 4 14 = 0 then
    takeDst (fld iw 18 7) fun d =>
    .ok (.waitw d (fbit iw 3) (fbit iw 2), ls)
  else .error .reservedForm

/-- Opcode 0x5C: PREF. -/
def decode0x5C (iw : Nat) (ls : List Word) : Dec :=
  if fld iw 1 3 = 0 ∧ fld iw 18 7 = 0 then
    takeSrc (fld iw 11 7) ls fun a ls =>
    takeSrc (fld iw 4 7) ls fun b ls =>
    .ok (.pref a b (fbit iw 0), ls)
  else .error .reservedForm

/-- Opcode 0x5D: CCTL_WB, CCTL_INV, CCTL_DEMOTE, CCTL_IINV. -/
def decode0x5D (iw : Nat) (ls : List Word) : Dec :=
  if fld iw 0 3 = 0 ∧ fld iw 4 7 = 0 ∧ fld iw 18 7 = 0 then
    takeSrc (fld iw 11 7) ls fun a ls =>
    .ok (.cctlWb a (fbit iw 3), ls)
  else if fld iw 0 3 = 1 ∧ fld iw 4 7 = 0 ∧ fld iw 18 7 = 0 then
    takeSrc (fld iw 11 7) ls fun a ls =>
    .ok (.cctlInv a (fbit iw 3), ls)
  else if fld iw 0 3 = 2 ∧ fld iw 4 7 = 0 ∧ fld iw 18 7 = 0 then
    takeSrc (fld iw 11 7) ls fun a ls =>
    .ok (.cctlDemote a (fbit iw 3), ls)
  else if fld iw 0 3 = 3 ∧ fld iw 4 21 = 0 then
    .ok (.cctlIinv (fbit iw 3), ls)
  else .error .reservedForm

/-- Opcode 0x60: VLD. -/
def decode0x60 (iw : Nat) (ls : List Word) : Dec :=
  takeDst (fld iw 18 7) fun d =>
  takeSrc (fld iw 11 7) ls fun a ls =>
  takeSrc (fld iw 4 7) ls fun b ls =>
  .ok (.vld d a b (fbit iw 3) (fbit iw 2) (fbit iw 1) (fbit iw 0), ls)

/-- Opcode 0x61: VST. -/
def decode0x61 (iw : Nat) (ls : List Word) : Dec :=
  if fld iw 1 1 = 0 then
    takeCSrc (fld iw 18 7) fun d =>
    takeSrc (fld iw 11 7) ls fun a ls =>
    takeSrc (fld iw 4 7) ls fun b ls =>
    .ok (.vst d a b (fbit iw 3) (fbit iw 2) (fbit iw 0), ls)
  else .error .reservedForm

/-- Opcode 0x62: VFLOOR. -/
def decode0x62 (iw : Nat) (ls : List Word) : Dec :=
  if fld iw 0 3 = 0 ∧ fld iw 18 7 = 0 then
    takeSrc (fld iw 11 7) ls fun a ls =>
    takeSrc (fld iw 4 7) ls fun b ls =>
    .ok (.vfloor a b (fbit iw 3), ls)
  else .error .reservedForm

/-- Opcode 0x63: VQRY. -/
def decode0x63 (iw : Nat) (ls : List Word) : Dec :=
  if fld iw 0 3 = 0 ∧ fld iw 4 7 = 0 then
    takeDst (fld iw 18 7) fun d =>
    takeSrc (fld iw 11 7) ls fun a ls =>
    .ok (.vqry d a (fbit iw 3), ls)
  else .error .reservedForm

/-- Opcode 0x68: LDS. -/
def decode0x68 (iw : Nat) (ls : List Word) : Dec :=
  if fld iw 5 6 = 0 then
    takeDst (fld iw 18 7) fun d =>
    takeSrc (fld iw 11 7) ls fun a ls =>
    takeOpt (FeMode.ofCode? (fld iw 2 2)) fun m =>
    takeOpt (SpadW.ofCode? (fld iw 0 2)) fun w =>
    .ok (.lds d a (fbit iw 4) m w, ls)
  else .error .reservedForm

/-- Opcode 0x69: STS. -/
def decode0x69 (iw : Nat) (ls : List Word) : Dec :=
  if fld iw 5 6 = 0 then
    takeCSrc (fld iw 18 7) fun d =>
    takeSrc (fld iw 11 7) ls fun a ls =>
    takeOpt (FeMode.ofCode? (fld iw 2 2)) fun m =>
    takeOpt (SpadW.ofCode? (fld iw 0 2)) fun w =>
    .ok (.sts d a (fbit iw 4) m w, ls)
  else .error .reservedForm

/-- Opcode 0x6A: FEGET, FESET, FECLR, FEWAIT. -/
def decode0x6A (iw : Nat) (ls : List Word) : Dec :=
  if fld iw 0 3 = 0 ∧ fld iw 4 7 = 0 then
    takeDst (fld iw 18 7) fun d =>
    takeSrc (fld iw 11 7) ls fun a ls =>
    .ok (.feget d a (fbit iw 3), ls)
  else if fld iw 0 3 = 0 ∧ fld iw 4 7 = 1 ∧ fld iw 18 7 = 0 then
    takeSrc (fld iw 11 7) ls fun a ls =>
    .ok (.feset a (fbit iw 3), ls)
  else if fld iw 0 3 = 0 ∧ fld iw 4 7 = 2 ∧ fld iw 18 7 = 0 then
    takeSrc (fld iw 11 7) ls fun a ls =>
    .ok (.feclr a (fbit iw 3), ls)
  else if fld iw 1 2 = 0 ∧ fld iw 4 7 = 3 ∧ fld iw 18 7 = 0 then
    takeSrc (fld iw 11 7) ls fun a ls =>
    .ok (.fewait a (fbit iw 3) (fbit iw 0), ls)
  else .error .reservedForm

/-- Opcode 0x6B: ATOMS. -/
def decode0x6B (iw : Nat) (ls : List Word) : Dec :=
  if fld iw 0 3 = 0 then
    takeDst (fld iw 18 7) fun d =>
    takeSrc (fld iw 11 7) ls fun a ls =>
    takeOpt (AtomsOp.ofCode? (fld iw 4 7)) fun b =>
    .ok (.atoms d a b (fbit iw 3), ls)
  else .error .reservedForm

/-- Opcode 0x6C: SPLOOK. -/
def decode0x6C (iw : Nat) (ls : List Word) : Dec :=
  if fld iw 0 3 = 0 ∧ fld iw 4 7 = 0 then
    takeDst (fld iw 18 7) fun d =>
    takeSrc (fld iw 11 7) ls fun a ls =>
    .ok (.splook d a (fbit iw 3), ls)
  else .error .reservedForm

/-- Opcode 0x6D: SPTAG, SPTAG_INV. -/
def decode0x6D (iw : Nat) (ls : List Word) : Dec :=
  if fld iw 0 3 = 0 then
    takeDst (fld iw 18 7) fun d =>
    takeSrc (fld iw 11 7) ls fun a ls =>
    takeSrc (fld iw 4 7) ls fun b ls =>
    .ok (.sptag d a b (fbit iw 3), ls)
  else if fld iw 0 3 = 1 ∧ fld iw 4 7 = 0 then
    takeDst (fld iw 18 7) fun d =>
    takeSrc (fld iw 11 7) ls fun a ls =>
    .ok (.sptagInv d a (fbit iw 3), ls)
  else .error .reservedForm

/-- Opcode 0x6E: SPDESC, SPDESC_SET. -/
def decode0x6E (iw : Nat) (ls : List Word) : Dec :=
  if fld iw 0 3 = 0 ∧ fld iw 4 7 = 0 then
    takeDst (fld iw 18 7) fun d =>
    takeSrc (fld iw 11 7) ls fun a ls =>
    .ok (.spdesc d a (fbit iw 3), ls)
  else if fld iw 0 3 = 1 ∧ fld iw 18 7 = 0 then
    takeSrc (fld iw 11 7) ls fun a ls =>
    takeSrc (fld iw 4 7) ls fun b ls =>
    .ok (.spdescSet a b (fbit iw 3), ls)
  else .error .reservedForm

/-- Opcode 0x70: SHAPE. -/
def decode0x70 (iw : Nat) (ls : List Word) : Dec :=
  if fld iw 0 3 = 0 then
    takeDst (fld iw 18 7) fun d =>
    takeSrc (fld iw 11 7) ls fun a ls =>
    takeSrc (fld iw 4 7) ls fun b ls =>
    .ok (.shape d a b (fbit iw 3), ls)
  else .error .reservedForm

/-- Opcode 0x71: UNSHAPE. -/
def decode0x71 (iw : Nat) (ls : List Word) : Dec :=
  if fld iw 0 3 = 0 ∧ fld iw 11 14 = 0 then
    takeSrc (fld iw 4 7) ls fun b ls =>
    .ok (.unshape b (fbit iw 3), ls)
  else .error .reservedForm

/-- Opcode 0x72: CPYIN. -/
def decode0x72 (iw : Nat) (ls : List Word) : Dec :=
  if fld iw 1 2 = 0 then
    takeDst (fld iw 18 7) fun d =>
    takeSrc (fld iw 11 7) ls fun a ls =>
    takeSrc (fld iw 4 7) ls fun b ls =>
    .ok (.cpyin d a b (fbit iw 3) (fbit iw 0), ls)
  else .error .reservedForm

/-- Opcode 0x73: CPYOUT. -/
def decode0x73 (iw : Nat) (ls : List Word) : Dec :=
  if fld iw 1 2 = 0 then
    takeDst (fld iw 18 7) fun d =>
    takeSrc (fld iw 11 7) ls fun a ls =>
    takeSrc (fld iw 4 7) ls fun b ls =>
    .ok (.cpyout d a b (fbit iw 3) (fbit iw 0), ls)
  else .error .reservedForm

/-- Opcode 0x74: GATHER. -/
def decode0x74 (iw : Nat) (ls : List Word) : Dec :=
  if fld iw 0 3 = 0 then
    takeDst (fld iw 18 7) fun d =>
    takeSrc (fld iw 11 7) ls fun a ls =>
    takeSrc (fld iw 4 7) ls fun b ls =>
    .ok (.gather d a b (fbit iw 3), ls)
  else .error .reservedForm

/-- Opcode 0x75: STAGE. -/
def decode0x75 (iw : Nat) (ls : List Word) : Dec :=
  if fld iw 0 3 = 0 ∧ fld iw 4 14 = 0 then
    takeDst (fld iw 18 7) fun d =>
    .ok (.stage d (fbit iw 3), ls)
  else .error .reservedForm

/-- Opcode 0x76: CTAB. -/
def decode0x76 (iw : Nat) (ls : List Word) : Dec :=
  if fld iw 0 3 = 0 then
    takeDst (fld iw 18 7) fun d =>
    takeSrc (fld iw 11 7) ls fun a ls =>
    takeSrc (fld iw 4 7) ls fun b ls =>
    .ok (.ctab d a b (fbit iw 3), ls)
  else .error .reservedForm

/-- Opcode 0x77: CPYQ. -/
def decode0x77 (iw : Nat) (ls : List Word) : Dec :=
  if fld iw 0 3 = 0 ∧ fld iw 4 7 = 0 then
    takeDst (fld iw 18 7) fun d =>
    takeSrc (fld iw 11 7) ls fun a ls =>
    .ok (.cpyq d a (fbit iw 3), ls)
  else .error .reservedForm

/-- Opcode 0x78: BAR, BARA, BARW, BARQ. -/
def decode0x78 (iw : Nat) (ls : List Word) : Dec :=
  if fld iw 0 2 = 0 ∧ fld iw 10 1 = 0 ∧ fld iw 18 7 = 0 then
    takeSrc (fld iw 11 7) ls fun a ls =>
    takeOpt (BarScope.ofCode? (fld iw 2 2)) fun s =>
    .ok (.bar a (fbit iw 9) (BitVec.ofNat 5 (fld iw 4 5)) s, ls)
  else if fld iw 0 2 = 1 ∧ fld iw 10 1 = 0 then
    takeDst (fld iw 18 7) fun d =>
    takeSrc (fld iw 11 7) ls fun a ls =>
    takeOpt (BarScope.ofCode? (fld iw 2 2)) fun s =>
    .ok (.bara d a (fbit iw 9) (BitVec.ofNat 5 (fld iw 4 5)) s, ls)
  else if fld iw 0 2 = 2 ∧ fld iw 10 1 = 0 ∧ fld iw 18 7 = 0 then
    takeSrc (fld iw 11 7) ls fun a ls =>
    takeOpt (BarScope.ofCode? (fld iw 2 2)) fun s =>
    .ok (.barw a (fbit iw 9) (BitVec.ofNat 5 (fld iw 4 5)) s, ls)
  else if fld iw 0 2 = 3 ∧ fld iw 10 8 = 0 then
    takeDst (fld iw 18 7) fun d =>
    takeOpt (BarScope.ofCode? (fld iw 2 2)) fun s =>
    .ok (.barq d (fbit iw 9) (BitVec.ofNat 5 (fld iw 4 5)) s, ls)
  else .error .reservedForm

/-- Opcode 0x79: QPUSH, QPOP, QPEEK, QLEN. -/
def decode0x79 (iw : Nat) (ls : List Word) : Dec :=
  if fld iw 0 2 = 0 ∧ fld iw 8 3 = 0 ∧ fld iw 18 7 = 0 then
    takeSrc (fld iw 11 7) ls fun a ls =>
    .ok (.qpush a (BitVec.ofNat 4 (fld iw 4 4)) (fbit iw 3) (fbit iw 2), ls)
  else if fld iw 0 2 = 1 ∧ fld iw 8 10 = 0 then
    takeDst (fld iw 18 7) fun d =>
    .ok (.qpop d (BitVec.ofNat 4 (fld iw 4 4)) (fbit iw 3) (fbit iw 2), ls)
  else if fld iw 0 2 = 2 ∧ fld iw 8 10 = 0 then
    takeDst (fld iw 18 7) fun d =>
    .ok (.qpeek d (BitVec.ofNat 4 (fld iw 4 4)) (fbit iw 3) (fbit iw 2), ls)
  else if fld iw 0 3 = 3 ∧ fld iw 8 10 = 0 then
    takeDst (fld iw 18 7) fun d =>
    .ok (.qlen d (BitVec.ofNat 4 (fld iw 4 4)) (fbit iw 3), ls)
  else .error .reservedForm

/-- Opcode 0x7A: TSPAWN, TCOUNT. -/
def decode0x7A (iw : Nat) (ls : List Word) : Dec :=
  if fld iw 0 3 = 0 ∧ fld iw 18 7 = 0 then
    takeSrc (fld iw 11 7) ls fun a ls =>
    takeSrc (fld iw 4 7) ls fun b ls =>
    .ok (.tspawn a b (fbit iw 3), ls)
  else if fld iw 0 3 = 1 ∧ fld iw 4 14 = 0 then
    takeDst (fld iw 18 7) fun d =>
    .ok (.tcount d (fbit iw 3), ls)
  else .error .reservedForm

/-- Opcode 0x7C: DLSET, DLSTEP, DLQ, DLEND. -/
def decode0x7C (iw : Nat) (ls : List Word) : Dec :=
  if fld iw 0 4 = 0 ∧ fld iw 18 7 = 0 then
    takeSrc (fld iw 11 7) ls fun a ls =>
    takeSrc (fld iw 4 7) ls fun b ls =>
    .ok (.dlset a b, ls)
  else if fld iw 0 4 = 1 ∧ fld iw 18 7 = 0 then
    takeSrc (fld iw 11 7) ls fun a ls =>
    takeSrc (fld iw 4 7) ls fun b ls =>
    .ok (.dlstep a b, ls)
  else if fld iw 0 18 = 2 then
    takeDst (fld iw 18 7) fun d =>
    .ok (.dlq d, ls)
  else if fld iw 0 25 = 3 then
    .ok (.dlend, ls)
  else .error .reservedForm

/-- Opcode 0x7D: ENRD, ENSAVE, ENLOAD. -/
def decode0x7D (iw : Nat) (ls : List Word) : Dec :=
  if fld iw 0 3 = 0 ∧ fld iw 4 14 = 0 then
    takeDst (fld iw 18 7) fun d =>
    .ok (.enrd d (fbit iw 3), ls)
  else if fld iw 0 3 = 1 ∧ fld iw 4 7 = 0 then
    takeDst (fld iw 18 7) fun d =>
    takeSrc (fld iw 11 7) ls fun a ls =>
    .ok (.ensave d a (fbit iw 3), ls)
  else if fld iw 0 3 = 2 then
    takeDst (fld iw 18 7) fun d =>
    takeSrc (fld iw 11 7) ls fun a ls =>
    takeSrc (fld iw 4 7) ls fun b ls =>
    .ok (.enload d a b (fbit iw 3), ls)
  else .error .reservedForm

/-- Opcode 0x7E: XPERM, XRED, XBC, XAG. -/
def decode0x7E (iw : Nat) (ls : List Word) : Dec :=
  if fld iw 0 3 = 0 then
    takeDst (fld iw 18 7) fun d =>
    takeSrc (fld iw 11 7) ls fun a ls =>
    takeSrc (fld iw 4 7) ls fun b ls =>
    .ok (.xperm d a b (fbit iw 3), ls)
  else if fld iw 0 3 = 1 ∧ fld iw 4 7 = 0 then
    takeDst (fld iw 18 7) fun d =>
    takeSrc (fld iw 11 7) ls fun a ls =>
    .ok (.xred d a (fbit iw 3), ls)
  else if fld iw 0 3 = 2 ∧ fld iw 4 7 = 0 then
    takeDst (fld iw 18 7) fun d =>
    takeSrc (fld iw 11 7) ls fun a ls =>
    .ok (.xbc d a (fbit iw 3), ls)
  else if fld iw 0 3 = 3 ∧ fld iw 4 7 = 0 then
    takeDst (fld iw 18 7) fun d =>
    takeSrc (fld iw 11 7) ls fun a ls =>
    .ok (.xag d a (fbit iw 3), ls)
  else .error .reservedForm

/-- Opcode 0x7F: FRENT, FRENT_LANES, FRSET_PC, FRSET_PARK, FRSET_UNPARK, HALT, HALT_RESUME, TLBINV, QUIESCE, QUIESCE_STOP, CTXSWAP, VREG, VUNREG, PGATTR. -/
def decode0x7F (iw : Nat) (ls : List Word) : Dec :=
  if fld iw 0 11 = 0 then
    takeDst (fld iw 18 7) fun d =>
    takeSrc (fld iw 11 7) ls fun a ls =>
    .ok (.frent d a, ls)
  else if fld iw 0 18 = 1 then
    takeDst (fld iw 18 7) fun d =>
    .ok (.frentLanes d, ls)
  else if fld iw 0 11 = 16 then
    takeDst (fld iw 18 7) fun d =>
    takeSrc (fld iw 11 7) ls fun a ls =>
    .ok (.frsetPc d a, ls)
  else if fld iw 0 18 = 17 then
    takeDst (fld iw 18 7) fun d =>
    .ok (.frsetPark d, ls)
  else if fld iw 0 18 = 18 then
    takeDst (fld iw 18 7) fun d =>
    .ok (.frsetUnpark d, ls)
  else if fld iw 0 11 = 32 ∧ fld iw 18 7 = 0 then
    takeSrc (fld iw 11 7) ls fun a ls =>
    .ok (.halt a, ls)
  else if fld iw 0 11 = 33 ∧ fld iw 18 7 = 0 then
    takeSrc (fld iw 11 7) ls fun a ls =>
    .ok (.haltResume a, ls)
  else if fld iw 1 10 = 24 then
    takeDst (fld iw 18 7) fun d =>
    takeSrc (fld iw 11 7) ls fun a ls =>
    .ok (.tlbinv d a (fbit iw 0), ls)
  else if fld iw 0 11 = 64 then
    takeDst (fld iw 18 7) fun d =>
    takeSrc (fld iw 11 7) ls fun a ls =>
    .ok (.quiesce d a, ls)
  else if fld iw 0 11 = 65 then
    takeDst (fld iw 18 7) fun d =>
    takeSrc (fld iw 11 7) ls fun a ls =>
    .ok (.quiesceStop d a, ls)
  else if fld iw 0 11 = 80 then
    takeDst (fld iw 18 7) fun d =>
    takeSrc (fld iw 11 7) ls fun a ls =>
    .ok (.ctxswap d a, ls)
  else if fld iw 0 11 = 96 then
    takeDst (fld iw 18 7) fun d =>
    takeSrc (fld iw 11 7) ls fun a ls =>
    .ok (.vreg d a, ls)
  else if fld iw 0 11 = 112 then
    takeDst (fld iw 18 7) fun d =>
    takeSrc (fld iw 11 7) ls fun a ls =>
    .ok (.vunreg d a, ls)
  else if fld iw 0 11 = 128 then
    takeDst (fld iw 18 7) fun d =>
    takeSrc (fld iw 11 7) ls fun a ls =>
    .ok (.pgattr d a, ls)
  else .error .reservedForm

/-- The decoder that the major opcode, bits [31:25], selects (R33). -/
def decodeOp (op w : Nat) (ls : List Word) : Dec :=
  match op with
  | 0x01 => decode0x01 w ls
  | 0x02 => decode0x02 w ls
  | 0x03 => decode0x03 w ls
  | 0x04 => decode0x04 w ls
  | 0x05 => decode0x05 w ls
  | 0x06 => decode0x06 w ls
  | 0x07 => decode0x07 w ls
  | 0x08 => decode0x08 w ls
  | 0x09 => decode0x09 w ls
  | 0x0A => decode0x0A w ls
  | 0x0B => decode0x0B w ls
  | 0x0C => decode0x0C w ls
  | 0x0D => decode0x0D w ls
  | 0x0E => decode0x0E w ls
  | 0x0F => decode0x0F w ls
  | 0x10 => decode0x10 w ls
  | 0x11 => decode0x11 w ls
  | 0x12 => decode0x12 w ls
  | 0x13 => decode0x13 w ls
  | 0x14 => decode0x14 w ls
  | 0x15 => decode0x15 w ls
  | 0x16 => decode0x16 w ls
  | 0x17 => decode0x17 w ls
  | 0x18 => decode0x18 w ls
  | 0x19 => decode0x19 w ls
  | 0x1A => decode0x1A w ls
  | 0x1B => decode0x1B w ls
  | 0x1C => decode0x1C w ls
  | 0x1D => decode0x1D w ls
  | 0x1E => decode0x1E w ls
  | 0x1F => decode0x1F w ls
  | 0x20 => decode0x20 w ls
  | 0x21 => decode0x21 w ls
  | 0x22 => decode0x22 w ls
  | 0x23 => decode0x23 w ls
  | 0x24 => decode0x24 w ls
  | 0x25 => decode0x25 w ls
  | 0x26 => decode0x26 w ls
  | 0x27 => decode0x27 w ls
  | 0x28 => decode0x28 w ls
  | 0x29 => decode0x29 w ls
  | 0x2A => decode0x2A w ls
  | 0x2B => decode0x2B w ls
  | 0x2C => decode0x2C w ls
  | 0x2D => decode0x2D w ls
  | 0x2E => decode0x2E w ls
  | 0x2F => decode0x2F w ls
  | 0x30 => decode0x30 w ls
  | 0x31 => decode0x31 w ls
  | 0x32 => decode0x32 w ls
  | 0x33 => decode0x33 w ls
  | 0x34 => decode0x34 w ls
  | 0x35 => decode0x35 w ls
  | 0x36 => decode0x36 w ls
  | 0x37 => decode0x37 w ls
  | 0x38 => decode0x38 w ls
  | 0x39 => decode0x39 w ls
  | 0x3A => decode0x3A w ls
  | 0x3B => decode0x3B w ls
  | 0x3C => decode0x3C w ls
  | 0x3D => decode0x3D w ls
  | 0x3E => decode0x3E w ls
  | 0x3F => decode0x3F w ls
  | 0x40 => decode0x40 w ls
  | 0x41 => decode0x41 w ls
  | 0x42 => decode0x42 w ls
  | 0x43 => decode0x43 w ls
  | 0x44 => decode0x44 w ls
  | 0x45 => decode0x45 w ls
  | 0x46 => decode0x46 w ls
  | 0x47 => decode0x47 w ls
  | 0x48 => decode0x48 w ls
  | 0x49 => decode0x49 w ls
  | 0x4A => decode0x4A w ls
  | 0x4B => decode0x4B w ls
  | 0x4C => decode0x4C w ls
  | 0x4D => decode0x4D w ls
  | 0x4E => decode0x4E w ls
  | 0x4F => decode0x4F w ls
  | 0x50 => decode0x50 w ls
  | 0x51 => decode0x51 w ls
  | 0x52 => decode0x52 w ls
  | 0x53 => decode0x53 w ls
  | 0x54 => decode0x54 w ls
  | 0x55 => decode0x55 w ls
  | 0x56 => decode0x56 w ls
  | 0x57 => decode0x57 w ls
  | 0x58 => decode0x58 w ls
  | 0x59 => decode0x59 w ls
  | 0x5A => decode0x5A w ls
  | 0x5B => decode0x5B w ls
  | 0x5C => decode0x5C w ls
  | 0x5D => decode0x5D w ls
  | 0x60 => decode0x60 w ls
  | 0x61 => decode0x61 w ls
  | 0x62 => decode0x62 w ls
  | 0x63 => decode0x63 w ls
  | 0x68 => decode0x68 w ls
  | 0x69 => decode0x69 w ls
  | 0x6A => decode0x6A w ls
  | 0x6B => decode0x6B w ls
  | 0x6C => decode0x6C w ls
  | 0x6D => decode0x6D w ls
  | 0x6E => decode0x6E w ls
  | 0x70 => decode0x70 w ls
  | 0x71 => decode0x71 w ls
  | 0x72 => decode0x72 w ls
  | 0x73 => decode0x73 w ls
  | 0x74 => decode0x74 w ls
  | 0x75 => decode0x75 w ls
  | 0x76 => decode0x76 w ls
  | 0x77 => decode0x77 w ls
  | 0x78 => decode0x78 w ls
  | 0x79 => decode0x79 w ls
  | 0x7A => decode0x7A w ls
  | 0x7C => decode0x7C w ls
  | 0x7D => decode0x7D w ls
  | 0x7E => decode0x7E w ls
  | 0x7F => decode0x7F w ls
  | _ => .error .reservedOpcode

/-- The instruction a word and the words after it spell, before the checks of WellFormed. -/
def decodeRaw (w : Nat) (ls : List Word) : Dec := decodeOp (w / 2 ^ 25 % 128) w ls

/-- The decoder: an instruction that passes every static check, and the words it did not consume.
Reserved encodings, illegal operand codes and ill-formed shapes are refused by name (R34). -/
def decode (w : Word) (ls : List Word) : Dec :=
  if w = 0 then .error .zeroWord
  else
    match decodeRaw w.toNat ls with
    | .ok (i, rest) => if i.wellFormed then .ok (i, rest) else .error (.illFormed i.firstFailed)
    | .error e => .error e

/-- Bytes to words, little-endian (R11); a tail shorter than a word is dropped. -/
def wordsOf : List Byte → List Word
  | b0 :: b1 :: b2 :: b3 :: bs => (b3 ++ b2 ++ b1 ++ b0) :: wordsOf bs
  | _ => []

/-- The bytes of a word at ascending addresses (R11). -/
def bytesOf (w : Word) : List Byte :=
  [w.setWidth 8, (w >>> 8).setWidth 8, (w >>> 16).setWidth 8, (w >>> 24).setWidth 8]

/-- The decoder on the bytes of the code segment. -/
def decodeBytes (bs : List Byte) : Dec :=
  match wordsOf bs with
  | w :: ls => decode w ls
  | [] => .error .short

/-- The bytes of an instruction of the opcode table whose first `nbits` bits are `w`, followed by
zero words up to the longest instruction (three words). -/
def tableBytes (nbits w : Nat) : List Byte :=
  bytesOf (BitVec.ofNat 32 (w % 2 ^ nbits)) ++ bytesOf (BitVec.ofNat 32 (w % 2 ^ nbits / 2 ^ 32))
    ++ bytesOf (BitVec.ofNat 32 (w % 2 ^ nbits / 2 ^ 64))

/-- The instruction the decoder reads from an instruction with these bits. -/
def decodeTableWord (nbits w : Nat) : Option Instr :=
  match decodeBytes (tableBytes nbits w) with
  | .ok (i, _) => some i
  | .error _ => none

end Sys2Proof
end

