-- ==== Sys2Proof/Machine/Info.lean ====
section
/-!
DEFINITION. What the checks at issue need to know of an instruction before its meaning runs: the
registers it reads and writes, its set slot, its opcode, its energy class, its role and its
privilege.
-/
namespace Sys2Proof

/-- Register operands with the size of each group: sources a and b, field d where it is read, and
the destination. `slot` says that the instruction is long-latency and whether it selects slot B. -/
structure Use where
  a : Option (Src × Nat)
  b : Option (Src × Nat)
  d : Option (Src × Nat)
  w : Option (Dst × Nat)
  slot : Option Bool
  deriving DecidableEq, Repr

def Dst.toSrc : Dst → Src
  | .v n => .v n
  | .s n => .s n

def use0 : Use := ⟨none, none, none, none, none⟩
/-- destination from two sources -/
def use3 (d : Dst) (gd : Nat) (a : Src) (ga : Nat) (b : Src) (gb : Nat) : Use :=
  ⟨some (a, ga), some (b, gb), none, some (d, gd), none⟩
def use2 (d : Dst) (gd : Nat) (a : Src) (ga : Nat) : Use :=
  ⟨some (a, ga), none, none, some (d, gd), none⟩
def useD (d : Dst) (gd : Nat) : Use := ⟨none, none, none, some (d, gd), none⟩
def useA (a : Src) (ga : Nat) : Use := ⟨some (a, ga), none, none, none, none⟩
def useAB (a : Src) (ga : Nat) (b : Src) (gb : Nat) : Use :=
  ⟨some (a, ga), some (b, gb), none, none, none⟩
/-- field d is read -/
def Use.readD (u : Use) (d : Src) (g : Nat) : Use := { u with d := some (d, g) }
/-- long-latency with the .fb bit -/
def Use.long (u : Use) (f : Bool) : Use := { u with slot := some f }

/-- The register use of each instruction, from the operand lines of its entry. -/
def Instr.use : Instr → Use
  | .brx c _ => useA c.toSrc 1
  | .brz c _ => useA c.toSrc 1
  | .call c _ => useD (.v c) 1
  | .jmpi a => useA a 1
  | .csrr d _ => useD d 1
  | .csrw d _ => use0.readD d.toSrc 1
  | .iadd d a b _ _ w => use3 d (grp w) a (grp w) b (grp w)
  | .isub d a b _ _ w => use3 d (grp w) a (grp w) b (grp w)
  | .imul d a b _ _ w => use3 d (grp w) a (grp w) b (grp w)
  | .imulh d a b _ w => use3 d (grp w) a (grp w) b (grp w)
  | .imad d a b _ _ w => (use3 d (grp w) a (grp w) b (grp w)).readD d.toSrc (grp w)
  | .imin d a b _ w => use3 d (grp w) a (grp w) b (grp w)
  | .imax d a b _ w => use3 d (grp w) a (grp w) b (grp w)
  | .iabs d a _ w => use2 d (grp w) a (grp w)
  | .ineg d a _ w => use2 d (grp w) a (grp w)
  | .not d a w => use2 d (grp w) a (grp w)
  | .popc d a => use2 d 1 a 1
  | .clz d a => use2 d 1 a 1
  | .brev d a => use2 d 1 a 1
  | .sxb d a => use2 d 1 a 1
  | .sxh d a => use2 d 1 a 1
  | .zxb d a => use2 d 1 a 1
  | .zxh d a => use2 d 1 a 1
  | .ffs d a => use2 d 1 a 1
  | .and d a b w => use3 d (grp w) a (grp w) b (grp w)
  | .or d a b w => use3 d (grp w) a (grp w) b (grp w)
  | .xor d a b w => use3 d (grp w) a (grp w) b (grp w)
  | .andn d a b w => use3 d (grp w) a (grp w) b (grp w)
  | .shl d a b w => use3 d (grp w) a (grp w) b 1
  | .shr d a b w => use3 d (grp w) a (grp w) b 1
  | .sra d a b w => use3 d (grp w) a (grp w) b 1
  | .rol d a b w => use3 d (grp w) a (grp w) b 1
  | .bfx d a b _ => use3 d 1 a 1 b 1
  | .bfi d a b => (use3 d 1 a 1 b 1).readD d.toSrc 1
  | .icmp _ a b _ => useAB a 1 b 1
  | .sel d a b _ _ => use3 d 1 a 1 b 1
  | .lea d a b l _ => use3 d (grp l) a (grp l) b 1
  | .mov d a w => use2 d (grp w) a (grp w)
  | .iaddi d a _ => use2 d 1 a 1
  | .andi d a _ => use2 d 1 a 1
  | .ori d a _ => use2 d 1 a 1
  | .xori d a _ => use2 d 1 a 1
  | .shli d a _ => use2 d 1 a 1
  | .shri d a _ => use2 d 1 a 1
  | .srai d a _ => use2 d 1 a 1
  | .roli d a _ => use2 d 1 a 1
  | .icmpi _ a _ _ => useA a 1
  | .movi d _ => useD d 1
  | .movhi d _ => (useD d 1).readD d.toSrc 1
  | .p2v d => useD d 1
  | .v2p a => useA a 1
  | .fadd d a b _ t => use3 d t.regs a t.regs b t.regs
  | .fsub d a b _ t => use3 d t.regs a t.regs b t.regs
  | .fmul d a b _ t => use3 d t.regs a t.regs b t.regs
  | .ffma d a b _ t => (use3 d t.regs a t.regs b t.regs).readD d.toSrc t.regs
  | .fmin d a b t => use3 d t.regs a t.regs b t.regs
  | .fmax d a b t => use3 d t.regs a t.regs b t.regs
  | .fabs d a t => use2 d t.regs a t.regs
  | .fneg d a t => use2 d t.regs a t.regs
  | .frnd d a _ t => use2 d t.regs a t.regs
  | .fcls d a t => use2 d 1 a t.regs
  | .fexp d a t => use2 d 1 a t.regs
  | .fmant d a t => use2 d t.regs a t.regs
  | .fcmp _ a b w _ => useAB a (grp w) b (grp w)
  | .fcvt d a x _ _ =>
    let u := use2 d x.shape.2 a x.shape.1
    if x == .e2m1x4loF32x4 || x == .e2m1x4hiF32x4 then u.readD d.toSrc 1 else u
  | .rcp d a => use2 d 1 a 1
  | .rsq d a => use2 d 1 a 1
  | .sqrt d a => use2 d 1 a 1
  | .ex2 d a => use2 d 1 a 1
  | .lg2 d a => use2 d 1 a 1
  | .sinpi d a => use2 d 1 a 1
  | .cospi d a => use2 d 1 a 1
  | .tanh d a => use2 d 1 a 1
  | .twosum d a b => use3 d 2 a 1 b 1
  | .twoprod d a b => use3 d 2 a 1 b 1
  | .cmul d a b => use3 d 2 a 2 b 2
  | .cfma d a b => (use3 d 2 a 2 b 2).readD d.toSrc 2
  | .cacc d a => (use2 d 4 a 2).readD d.toSrc 4
  | .fdiv d a b => use3 d 1 a 1 b 1
  | .shfl d a b w _ => use3 d (grp w) a (grp w) b 1
  | .voteBallot d _ _ => useD d 1
  | .voteUniform _ a => useA a 1
  | .scan d a _ _ => use2 d 1 a 1
  | .redw d a _ => use2 d 1 a 1
  | .matchLanes d a w => use2 d 1 a (grp w)
  | .lget d a b w => use3 d (grp w) a (grp w) b 1
  | .prmt d a b => use3 d 1 a 2 b 1
  | .lset d a b w => use3 d (grp w) a (grp w) b 1
  | .neg a b f _ => (useAB a 1 b 1).long f
  | .expo a b f _ => (useAB a 1 b 1).long f
  | .cexpo a b f _ => (useAB a 1 b 1).long f
  | .had a b f _ _ _ => (useAB a 1 b 1).long f
  | .accz a f _ => (useA a 1).long f
  | .accrdReg d a f => (use2 d 8 a 1).long f
  | .accrdF32 a b f => (useAB a 1 b 1).long f
  | .accrdBf16 a b f => (useAB a 1 b 1).long f
  | .accrdE4m3 a b f => (useAB a 1 b 1).long f
  | .accrdE5m2 a b f => (useAB a 1 b 1).long f
  | .accrdStat d a f => (use2 d 1 a 1).long f
  | .accld a b f _ _ => (useAB a 1 b 1).long f
  | .negrel a f => (useA a 1).long f
  | .ld d a b f _ w => (use3 d w.regs a 2 b 1).long f
  | .ldq d a b f => (use3 d 4 a 2 b 1).long f
  | .st d a b f w => ((useAB a 2 b 1).readD d.toSrc w.regs).long f
  | .stq d a b f => ((useAB a 2 b 1).readD d.toSrc 4).long f
  | .ldacq d a _ f w => (use2 d w.regs a 2).long f
  | .strel d a _ f w => ((useA a 2).readD d.toSrc w.regs).long f
  | .atom d a _ _ f _ w => ((use2 d (grp w) a 2).readD d.toSrc (grp w)).long f
  | .cas d a _ f _ w =>
    ((use2 d (grp w) a 2).readD d.toSrc (2 * grp w)).long f
  | .red d a _ _ f _ _ w => ((useA a 2).readD d.toSrc (grp w)).long f
  | .fence _ f _ => use0.long f
  | .watch a f => (useA a 2).long f
  | .watchClr f => use0.long f
  | .waitw d f _ => (useD d 1).long f
  | .pref a b _ => useAB a 2 b 1
  | .cctlWb a f => (useA a 2).long f
  | .cctlInv a f => (useA a 2).long f
  | .cctlDemote a f => (useA a 2).long f
  | .cctlIinv f => use0.long f
  | .vld d a b f _ _ w => (use3 d (grp w) a 2 b 1).long f
  | .vst d a b f _ w => ((useAB a 2 b 1).readD d.toSrc (grp w)).long f
  | .vfloor a b f => (useAB a 2 b 1).long f
  | .vqry d a f => (use2 d 4 a 2).long f
  | .lds d a f _ w => (use2 d w.regs a 1).long f
  | .sts d a f _ w => ((useA a 1).readD d.toSrc w.regs).long f
  | .feget d a f => (use2 d 1 a 1).long f
  | .feset a f => (useA a 2).long f
  | .feclr a f => (useA a 2).long f
  | .fewait a f _ => (useA a 2).long f
  | .atoms d a b f =>
    ((use2 d 1 a 1).readD d.toSrc (if b == .cas then 2 else 1)).long f
  | .splook d a f => (use2 d 1 a 1).long f
  | .sptag d a b f => (use3 d 1 a 1 b 1).long f
  | .sptagInv d a f => (use2 d 1 a 1).long f
  | .spdesc d a f => (use2 d 1 a 1).long f
  | .spdescSet a b f => (useAB a 1 b 1).long f
  | .shape d a b f => (use3 d 1 a 2 b 1).long f
  | .unshape b f => ({ use0 with b := some (b, 1) }).long f
  | .cpyin d a b f _ => (use3 d 1 a 4 b 2).long f
  | .cpyout d a b f _ => (use3 d 1 a 4 b 2).long f
  | .gather d a b f => (use3 d 1 a 2 b 2).long f
  | .stage d f => (useD d 1).long f
  | .ctab d a b f => (use3 d 1 a 1 b 1).long f
  | .cpyq d a f => (use2 d 1 a 1).long f
  | .bar a f _ _ => (useA a 1).long f
  | .bara d a f _ _ => (use2 d 1 a 1).long f
  | .barw a f _ _ => (useA a 1).long f
  | .barq d f _ _ => (useD d 2).long f
  | .qpush a _ f _ => (useA a 2).long f
  | .qpop d _ f _ => (useD d 2).long f
  | .qpeek d _ f _ => (useD d 2).long f
  | .qlen d _ f => (useD d 1).long f
  | .tspawn a b f => (useAB a 1 b 2).long f
  | .tcount d f => (useD d 1).long f
  | .dlset a b => useAB a 1 b 1
  | .dlstep a b => useAB a 1 b 1
  | .dlq d => useD d 2
  | .enrd d f => (useD d 2).long f
  | .ensave d a f => (use2 d 2 a 1).long f
  | .enload d a b f => (use3 d 1 a 1 b 2).long f
  | .xperm d a b f => (use3 d 1 a 2 b 1).long f
  | .xred d a f => (use2 d 1 a 2).long f
  | .xbc d a f => (use2 d 1 a 2).long f
  | .xag d a f => (use2 d 1 a 2).long f
  | .frent d a => use2 d 4 a 1
  | .frentLanes d => useD d 4
  | .frsetPc d a => (useA a 1).readD d.toSrc 1
  | .frsetPark d => use0.readD d.toSrc 1
  | .frsetUnpark d => use0.readD d.toSrc 1
  | .halt a => useA a 1
  | .haltResume a => useA a 1
  | .tlbinv d a _ => use2 d 4 a 4
  | .quiesce d a => use2 d 1 a 2
  | .quiesceStop d a => use2 d 1 a 2
  | .ctxswap d a => use2 d 1 a 2
  | .vreg d a => use2 d 2 a 2
  | .vunreg d a => use2 d 1 a 1
  | .pgattr d a => use2 d 1 a 4
  | _ => use0

/-- The major opcode (R33), of a word that decodes to nothing too; 0 for an event. -/
def Instr.op : Instr → Nat
  | .illegalInstruction w => w.toNat / 2 ^ 25
  | i => i.wordNat / 2 ^ 25 % 128

/-- The set slot that a word of a long-latency opcode selects by its bit 3 (R17, R21), decoded or not. -/
def wordSlot (w : Nat) : Option Bool :=
  let op := w / 2 ^ 25 % 128
  if (0x48 ≤ op && op ≤ 0x5B) || op == 0x5D || (0x60 ≤ op && op ≤ 0x63) || (0x68 ≤ op && op ≤ 0x6E) ||
      (0x70 ≤ op && op ≤ 0x7A) || op == 0x7D || op == 0x7E then some (w.testBit 3)
  else none

/-- Scope and number of a BAR form. -/
def Instr.barOf : Instr → Option (BarScope × Nat)
  | .bar _ _ n sc => some (sc, n.toNat)
  | .bara _ _ _ n sc => some (sc, n.toNat)
  | .barw _ _ n sc => some (sc, n.toNat)
  | .barq _ _ n sc => some (sc, n.toNat)
  | _ => none

/-- The CSR an instruction names, and whether it writes it. -/
def Instr.csrOf : Instr → Option (Nat × Bool)
  | .csrr _ c => some (c.toNat, false)
  | .csrw _ c => some (c.toNat, true)
  | _ => none

/-- CSR numbers that some chapter assigns (R47, R107, R113, R115, R235, R242, R264, R265, R295, R309,
R344, R376, R394, R405). -/
def csrKnown (n : Nat) : Bool :=
  n ≤ 0x009 || (0x010 ≤ n && n ≤ 0x023) || n == 0x028 || (0x030 ≤ n && n ≤ 0x038) ||
    (0x040 ≤ n && n ≤ 0x045) || (0x120 ≤ n && n ≤ 0x123) || (0x200 ≤ n && n ≤ 0x215) ||
    (0x220 ≤ n && n ≤ 0x276) || (0x2E0 ≤ n && n ≤ 0x2E6) || (0x2F0 ≤ n && n ≤ 0x2F5) ||
    n == 0x300 || n == 0x301 || n == 0x310 || n == 0x311 || (0x31C ≤ n && n ≤ 0x31E) ||
    (0x320 ≤ n && n ≤ 0x325) || (0x3E0 ≤ n && n ≤ 0x3E2) || (0x400 ≤ n && n ≤ 0x408) ||
    (0x410 ≤ n && n ≤ 0x418) || n == 0x420 || n == 0x421 || (0x430 ≤ n && n ≤ 0x438) ||
    (0x440 ≤ n && n ≤ 0x45F)

/-- CSR ranges of system contexts alone (R32). -/
def csrPrivileged (n : Nat) : Bool := 0x100 ≤ n

/-- CSR numbers whose CSRW is illegal whatever it writes (R32, R107, R113, R115, R242, R309, R376, R394);
the trap record's writable fields are so outside trap mode. -/
def csrReadOnly (trapMode : Bool) (n : Nat) : Bool :=
  n ≤ 0x006 || n == 0x009 || (!trapMode && n ≤ 0x01F) || n == 0x022 || n == 0x023 ||
    (0x030 ≤ n && n ≤ 0x045) || (0x3E0 ≤ n && n ≤ 0x3E2) || n == 0x310 || n == 0x31D ||
    (0x400 ≤ n && n ≤ 0x416) || n == 0x418 || n == 0x421 || (0x440 ≤ n && n ≤ 0x45F)

/-- Releases, which wait for the weft's instructions in the enlarger (R216, R252): arrivals, STS.fill,
FESET, FECLR, QPUSH, TSPAWN, STREL, FENCE, atomics with a release part, the versioned stores and floors
(R332, R335), VREG (R328) and the collectives (R404). -/
def Instr.releases : Instr → Bool
  | .bar _ _ _ _ => true | .bara _ _ _ _ _ => true
  | .sts _ _ _ m _ => m == .one || m == .both
  | .feset _ _ => true | .feclr _ _ => true | .qpush _ _ _ _ => true | .tspawn _ _ _ => true
  | .strel _ _ _ _ _ => true
  | .fence _ _ kind => kind != .acq
  | .atom _ _ _ _ _ c _ => c == .rel || c == .ar
  | .cas _ _ _ _ c _ => c == .rel || c == .ar
  | .red _ _ _ _ _ rel _ _ => rel
  | .vst _ _ _ _ _ _ => true | .vfloor _ _ _ => true | .vreg _ _ => true
  | .xperm _ _ _ _ => true | .xred _ _ _ => true | .xbc _ _ _ => true | .xag _ _ _ => true
  | _ => false

/-- Instructions of the enlarger that read scratchpad (R215). -/
def Instr.enlargerReads : Instr → Bool
  | .neg _ _ _ _ => true | .expo _ _ _ _ => true | .cexpo _ _ _ _ => true
  | .had _ _ _ _ _ _ => true | .accld _ _ _ _ _ => true
  | _ => false

/-- BRA, BRX, BRZ, CALL, JMPI, EXIT, YIELD, TRAP, ERET and HALT end their clause (R20). -/
def Instr.endsClause : Instr → Bool
  | .bra _ _ => true | .brx _ _ => true | .brz _ _ => true | .call _ _ => true | .jmpi _ => true
  | .exit _ => true | .yield => true | .trap _ => true | .eret => true
  | .halt _ => true | .haltResume _ => true
  | _ => false

/-- Privileged instructions (R31). -/
def Instr.privileged : Instr → Bool
  | .halt _ => true | .haltResume _ => true | .tlbinv _ _ _ => true | .quiesce _ _ => true
  | .quiesceStop _ _ => true | .ctxswap _ _ => true | .vreg _ _ => true | .vunreg _ _ => true
  | .pgattr _ _ => true | .ensave _ _ _ => true | .enload _ _ _ _ => true
  | _ => false

/-- Instructions of trap mode alone (R31). -/
def Instr.trapOnly : Instr → Bool
  | .frent _ _ => true | .frentLanes _ => true | .frsetPc _ _ => true | .frsetPark _ => true
  | .frsetUnpark _ => true | .eret => true
  | _ => false

/-- Opcodes every role permits, and those a role adds (R161). -/
def rolePermits (r : Machine.Role) (op : Nat) : Bool :=
  (1 ≤ op && op ≤ 0x2F) || (0x40 ≤ op && op ≤ 0x47) || (0x68 ≤ op && op ≤ 0x6E) || op == 0x75 ||
    op == 0x77 || (0x78 ≤ op && op ≤ 0x7A) || op == 0x7C || op == 0x7D || op == 0x7F ||
  match r with
  | .general => true
  | .load => op == 0x70 || op == 0x71 || op == 0x72 || op == 0x74 || op == 0x76
  | .math => (0x30 ≤ op && op ≤ 0x3F) || (0x48 ≤ op && op ≤ 0x4F)
  | .store => op == 0x70 || op == 0x71 || op == 0x73

/-- Opcodes the control core may issue (R262). -/
def controlPermits (op : Nat) : Bool :=
  (1 ≤ op && op ≤ 0x2F) || (0x50 ≤ op && op ≤ 0x5D) || op == 0x7C || op == 0x7D || op == 0x7F

/-- Conversions with an FP64 source or destination (R73). -/
def Conv.isF64 : Conv → Bool
  | .f64F32 | .f32F64 | .i32F64 | .u32F64 | .i64F64 | .u64F64 | .f64I32 | .f64U32 | .f64I64
  | .f64U64 | .f64x2F16x2 | .f64x2Bf16x2 => true
  | _ => false

/-- Whether the instruction is of the FP64 class of R73. -/
def Instr.isF64 : Instr → Bool
  | .fadd _ _ _ _ t | .fsub _ _ _ _ t | .fmul _ _ _ _ t | .ffma _ _ _ _ t => t == .f64
  | .fmin _ _ _ t | .fmax _ _ _ t => t == .f64
  | .fabs _ _ t | .fneg _ _ t | .frnd _ _ _ t | .fcls _ _ t | .fexp _ _ t | .fmant _ _ t => t == .f64
  | .fcmp _ _ _ w _ => w
  | .fcvt _ _ x _ _ => x.isF64
  | _ => false

/-- Exposures in the dual state (R290, classes 6 and 15). -/
def Instr.isDual : Instr → Bool
  | .expo _ _ _ u => u
  | .cexpo _ _ _ u => u
  | _ => false

/-- The energy class by opcode (R290); class 0 for a reserved opcode. -/
def energyClass (op : Nat) (f64 dual : Bool) : Nat :=
  if op ≤ 0x0F then 0
  else if op ≤ 0x2F then 1
  else if op == 0x39 || op == 0x3F then 4
  else if op ≤ 0x3F then (if f64 then 3 else 2)
  else if op ≤ 0x47 then 5
  else if op == 0x49 || op == 0x4A then (if dual then 15 else 6)
  else if op ≤ 0x4F then 7
  else if op == 0x50 || op == 0x51 || op == 0x54 || op == 0x60 then 8
  else if op == 0x52 || op == 0x53 || op == 0x55 || op == 0x61 then 9
  else if op == 0x56 || op == 0x57 || op == 0x58 then 10
  else if (0x59 ≤ op && op ≤ 0x5D) || op == 0x62 || op == 0x63 then 13
  else if 0x68 ≤ op && op ≤ 0x6E then 11
  else if 0x70 ≤ op && op ≤ 0x77 then 12
  else if 0x78 ≤ op && op ≤ 0x7A then 13
  else if op == 0x7E then 14
  else 0

/-- Whether the form of the word's opcode has a source operand in field a and in field b. -/
def operandForms (w : Nat) : Bool × Bool :=
  let op := w / 2 ^ 25 % 128
  let x := w / 16 % 128
  let m := w % 16
  let aForm : Bool :=
    op == 0x05 || (0x10 ≤ op && op ≤ 0x2B && op != 0x2C) || op == 0x2F || (0x30 ≤ op && op ≤ 0x40) ||
      (op == 0x41 && m % 4 == 3) || (0x42 ≤ op && op ≤ 0x58) || op == 0x5A || op == 0x5C ||
      op == 0x5D || (0x60 ≤ op && op ≤ 0x63) || (0x68 ≤ op && op ≤ 0x6E) ||
      op == 0x70 || (0x72 ≤ op && op ≤ 0x74) || op == 0x76 || op == 0x77 ||
      (op == 0x78 && m % 4 != 3) || (op == 0x79 && m % 4 == 0) || (op == 0x7A && m % 2 == 0) ||
      (op == 0x7C && m % 4 ≤ 1) || (op == 0x7D && (m % 4 == 1 || m % 4 == 2)) || op == 0x7E ||
      (op == 0x7F && (x == 0 || x == 1) && m == 0) || (op == 0x7F && 2 ≤ x && x ≤ 8)
  let bForm : Bool :=
    (0x10 ≤ op && op ≤ 0x16) || (0x18 ≤ op && op ≤ 0x24) || (0x30 ≤ op && op ≤ 0x35) || op == 0x37 ||
      (0x3A ≤ op && op ≤ 0x3D) || op == 0x3F || op == 0x40 || (0x45 ≤ op && op ≤ 0x4B) ||
      op == 0x4E || (op == 0x4D && 1 ≤ m % 8 && m % 8 ≤ 4) || (0x50 ≤ op && op ≤ 0x53) || op == 0x5C || (0x60 ≤ op && op ≤ 0x62) ||
      op == 0x6D || op == 0x6E || (0x70 ≤ op && op ≤ 0x74) || op == 0x76 ||
      (op == 0x7A && m % 2 == 0) || (op == 0x7C && m % 4 ≤ 1) || (op == 0x7D && m % 4 == 2) ||
      (op == 0x7E && m % 4 == 0)
  (aForm, bForm)

/-- Whether the word demands a literal for field a and for field b (R26): the operand is used by its
opcode's form and its code is 127. -/
def literalDemand (w : Nat) : Bool × Bool :=
  ((operandForms w).1 && w / 2048 % 128 == 127, (operandForms w).2 && w / 16 % 128 == 127)

/-- Literal words the word at a place demands. -/
def literalCount (w : Nat) : Nat :=
  (if (literalDemand w).1 then 1 else 0) + (if (literalDemand w).2 then 1 else 0)

/-- A word of the group that R20 lets stand only last in its clause. -/
def endsWord (w : Nat) : Bool :=
  let op := w / 2 ^ 25 % 128
  (1 ≤ op && op ≤ 7) || op == 0x0B || op == 0x0F || (op == 0x7F && w / 16 % 128 == 2)

end Sys2Proof
end

