-- ==== Sys2Proof/Machine/Memory.lean ====
section
/-!
DEFINITION. Reaching the parts of State, and memory as the agents see it: where a write stands
(R248 to R250), its place at the home with what follows from it (R318, R319, R259, R301, R347,
R406), the interleave (R307, R308), page-table walks and TLBs (R310 to R315).
-/
namespace Sys2Proof.Machine

/-! ## Reaching the parts of State -/

def State.swatch? (s : State) (sid : Nat) : Option Swatch := s.swatches.get? sid

def State.weft? (s : State) (sid wid : Nat) : Option Weft :=
  match s.swatch? sid with
  | some sw => sw.wefts.get? wid
  | none => none

def State.modSwatch (s : State) (sid : Nat) (f : Swatch → Swatch) : State :=
  { s with swatches := s.swatches.modify sid f }

def Swatch.modWeft (sw : Swatch) (wid : Nat) (f : Weft → Weft) : Swatch :=
  { sw with wefts := sw.wefts.modify wid f }

def State.modWeft (s : State) (sid wid : Nat) (f : Weft → Weft) : State :=
  s.modSwatch sid fun sw => sw.modWeft wid f

/-- A core, cluster or die that no table lists stands at its reset value. -/
def State.core (s : State) (c : Nat) : Core := s.cores.getD c Core.reset
def State.cluster (s : State) (c : Nat) : Cluster := s.clusters.getD c Cluster.reset
def State.die (s : State) (d : Nat) : Die := s.dies.getD d Die.reset

def State.modCore (s : State) (c : Nat) (f : Core → Core) : State :=
  { s with cores := s.cores.put c (f (s.core c)) }
def State.modCluster (s : State) (c : Nat) (f : Cluster → Cluster) : State :=
  { s with clusters := s.clusters.put c (f (s.cluster c)) }
def State.modDie (s : State) (d : Nat) (f : Die → Die) : State :=
  { s with dies := s.dies.put d (f (s.die d)) }
def State.modLaunch (s : State) (l : Nat) (f : Launch → Launch) : State :=
  { s with launches := s.launches.modify l f }
def State.modCtx (s : State) (c : Word) (f : Ctx → Ctx) : State :=
  { s with ctxs := s.ctxs.modify c.toNat f }
def State.ctx? (s : State) (c : Word) : Option Ctx := s.ctxs.get? c.toNat
def State.modPkg (s : State) (f : Package → Package) : State := { s with pkg := f s.pkg }

def clusterOfCore (c : Nat) : Nat := c / 6
def dieOfCore (c : Nat) : Nat := c / 48
def dieOfCluster (c : Nat) : Nat := c / 8

/-- Cluster a swatch belongs to: where it is placed, or where its bolt is assigned (R357). -/
def Swatch.clu (sw : Swatch) : Nat :=
  match sw.control, sw.place with
  | some c, _ => c
  | none, .placed core _ => clusterOfCore core
  | none, .shadow core _ => clusterOfCore core
  | none, _ => sw.cluster

def Swatch.core? (sw : Swatch) : Option Nat :=
  match sw.control, sw.place with
  | none, .placed core _ => some core
  | _, _ => none

/-- A context is a system context (R31, R345); the control core's always is (R262). -/
def State.isSys (s : State) (sw : Swatch) : Bool :=
  match sw.control, s.ctx? sw.ctx with
  | some _, _ => true
  | none, some c => c.sys
  | none, none => false

/-! ## Where addresses lie -/

def pkgOf (a : Nat) : Nat := a / 2 ^ 48 % 4096
def dieOf (a : Nat) : Nat := a / 2 ^ 46 % 4
def dieAddr (a : Nat) : Nat := a % 2 ^ 46

/-- The smallest module of an interleave set in GiB. -/
def minModule (links : Tab Nat) : Nat :=
  match links with
  | [] => 0
  | l :: ls => ls.foldl (fun m p => min m p.2) l.2

/-- P of R307: the populated size of a die in bytes. -/
def Die.populated (d : Die) : Nat := d.links.length * minModule d.links * 2 ^ 30

/-- SB of R309. -/
def Die.sidecar (d : Die) : Nat := 15 * d.populated / 16

/-- A destination's route has a port that is not fenced (R389, R395). -/
def Package.reaches (p : Package) (dest : Nat) : Bool :=
  match p.routes.get? dest with
  | some ps => ps.any fun i => !(p.ports.getD i Port.reset).fenced
  | none => false

/-- Where the byte at a die address is placed: position in the interleave set, and module address (R307). -/
def Die.place (d : Die) (a : Nat) : Nat × Nat :=
  let n := max d.links.length 1
  (a / 4096 % n, a / 4096 / n * 4096 + a % 4096)

/-- The link at a position of the interleave set. -/
def Die.linkAt (d : Die) (pos : Nat) : Nat := ((d.links[pos]?).map fun p => p.1).getD 0

/-- The populated size of the die that an address names; other packages' are free (R307, log 16). -/
def State.populatedAt (s : State) (a : Nat) : Nat :=
  if pkgOf a = s.pkg.fpkg then (s.die (dieOf a)).populated else Config.awayPopulated (a / 2 ^ 46)

/-- The sidecar's base on the die that an address names (R309). -/
def State.sidecarAt (s : State) (a : Nat) : Nat := 15 * s.populatedAt a / 16

/-- Whether a global physical address has memory behind it: below P on a link that has not failed
(R307, R308), or on a package that a route reaches (R395). -/
def State.present (s : State) (a : Nat) : Bool :=
  if pkgOf a = s.pkg.fpkg then
    let d := s.die (dieOf a)
    decide (dieAddr a < d.populated) &&
      !(s.pkg.flink.getD (dieOf a) 0).testBit (d.linkAt (d.place (dieAddr a)).1)
  else s.pkg.reaches (pkgOf a)

/-! ## Wakes -/

def Pending.any (p : Pending) : Bool :=
  !p.copyError.isEmpty || !p.arrayMismatch.isEmpty || !p.deadlineRisk.isEmpty || p.hang

/-- A wait of R8 (R182): all but those of HALT, QUIESCE, TLBINV and PGATTR (R367). -/
def WaitForm.isR8 : WaitForm → Bool
  | .halt _ => false
  | .quiesce _ => false
  | .tlbinv _ _ _ => false
  | _ => true

/-- The weft is not waiting (R230): no wait of R8 or one that has ended, a pending trap it may take, a trap
recorded in its image, and no classified loop whose watch has not fired. -/
def Weft.runs (w : Weft) : Bool :=
  !w.ended && w.halted.isNone && (w.late.isSome || (!w.trapMode && w.pend.any) ||
    match w.wait with
    | some x => x.woken || !x.form.isR8
    | none => !w.loupe.polling || w.loupe.fired)

/-- The turn at which a weft came to be runnable is noted (R231). -/
def Weft.noted (w : Weft) (t : Nat) (old : Weft) : Weft :=
  if w.runs && !old.runs then { w with runSince := t } else w

/-- An event has ended a weft's wait (R232, R241); a poller that it wakes loses its classification (R237). -/
def Weft.wake (w : Weft) (t : Nat) : Weft :=
  ({ w with
    wait := w.wait.map fun x => { x with woken := true }
    loupe := if w.loupe.polling then Loupe.idle else w.loupe } : Weft).noted t w

/-- Make every absent waiting weft of a swatch runnable, pollers too (R236, R238). -/
def Swatch.wakeAbsent (sw : Swatch) (t : Nat) : Swatch :=
  { sw with
    wefts := sw.wefts.map fun p =>
      (p.1, if p.2.place == .absent && (p.2.wait.isSome || p.2.loupe.polling) then p.2.wake t else p.2) }

/-- A wake record enters the core's queue of 256 records, or, when that is full, every absent
waiter of the swatch becomes runnable (R235, R236). -/
def State.pushWake (s : State) (core : Nat) (r : WakeRec) : State :=
  if (s.core core).wakeQ.length < Config.wakeQueue then
    s.modCore core fun c => { c with wakeQ := c.wakeQ ++ [r] }
  else s.modSwatch r.sid fun sw => sw.wakeAbsent s.turn

/-- A condition a weft waits on has come about: a resident weft, or one whose swatch is not placed,
repeats its test; an absent one of a placed swatch gets a wake record (R229, R236, R241). -/
def State.wakeWeft (s : State) (sid wid kind arg : Nat) (value : Word) : State :=
  match s.swatch? sid, s.weft? sid wid with
  | some sw, some w =>
    match sw.core?, w.place with
    | some core, .absent => s.pushWake core ⟨kind, arg, sid, some wid, value⟩
    | _, _ => s.modWeft sid wid fun w => w.wake s.turn
  | _, _ => s

/-! ## Writes at the home -/

/-- The loupe's implicit watch (R238, R301): a write to a sector that a classified loop watches fires it, and one
to a sector that the running or the last iteration has loaded is remembered until the next load of it. -/
def Loupe.see (l : Loupe) (spad : Bool) (sec : Nat) : Loupe :=
  let near := l.tracking && (l.loads ++ l.lastLoads.getD []).any fun x => x.sectors.contains (spad, sec)
  { l with
    fired := l.fired || (l.polling && l.watch.contains (spad, sec))
    stale := if near && !l.stale.contains (spad, sec) then l.stale ++ [(spad, sec)] else l.stale }

/-- A write as a resident weft's loupe sees it: it wakes the sleeping poller, which loses its classification; one
of several entries stays classified until it is saved (R237, R238). An absent poller gets a wake record. -/
def Weft.seePoll (w : Weft) (spad : Bool) (sec t : Nat) : Weft :=
  if w.place = .absent then w
  else
    let l := w.loupe.see spad sec
    ({ w with loupe := if l.fired && w.frontier.length == 1 then Loupe.idle else l } : Weft).noted t w

/-- A write to a sector fires an entry: of that sector, or of its hash where the table was full (R259). -/
def WatchEntry.sees (e : WatchEntry) (sec : Nat) : Bool :=
  e.sector == sec || (e.hashed && Config.sectorHash e.sector == Config.sectorHash sec)

/-- A write to a global sector as one weft's watches see it (R259, R301). -/
def Weft.seeWrite (w : Weft) (sec t : Nat) : Weft :=
  { w.seePoll false sec t with
    watch := w.watch.map fun e => if e.sees sec then { e with fired := true } else e }

/-- The weft waits for a watch entry that this sector fires. -/
def Weft.watchWaits (w : Weft) (sec : Nat) : Bool :=
  match w.wait with
  | some x => x.form == .watch && w.watch.any fun e => e.sees sec
  | none => false

/-- Watches of one swatch after a write to a sector. -/
def Swatch.seeWrite (sw : Swatch) (sec t : Nat) : Swatch :=
  { sw with wefts := sw.wefts.map fun p => (p.1, p.2.seeWrite sec t) }

/-- Wefts that a write to a sector wakes: waiters of WAITW (kind 2) and absent pollers (kind 6). -/
def watchWakes (t : Tab Swatch) (sec : Nat) : List (Nat × Nat × Nat) :=
  t.flatMap fun p => p.2.wefts.flatMap fun q =>
    (if q.2.watchWaits sec then [(p.1, q.1, 2)] else []) ++
      (if q.2.loupe.polling && q.2.place == .absent && q.2.loupe.watch.contains (false, sec) then
        [(p.1, q.1, 6)] else [])

/-- Some weft of the swatch watches the sector, by WATCH or through the loupe. -/
def Swatch.watches (sw : Swatch) (sec : Nat) : Bool :=
  sw.wefts.any fun q => (q.2.watch.any fun e => e.sector == sec) ||
    (q.2.loupe.polling && q.2.loupe.watch.contains (false, sec))

/-- A die that watches a sector keeps no older copy of it, so the next load there returns the write or a later one
(R238, R260). -/
def State.dropWatched (s : State) (sec : Nat) : State :=
  (dedup ((s.swatches.filter fun p => p.2.watches sec).map fun p => dieOfCluster p.2.clu)).foldl
    (fun s d => s.modDie d fun x => { x with copies := x.copies.del sec }) s

/-- Fire the watches on a sector (R259). -/
def State.fireWatches (s : State) (sec : Nat) : State :=
  (watchWakes s.swatches sec).foldl (fun s x => s.wakeWeft x.1 x.2.1 x.2.2 0 (w32 sec))
    { s.dropWatched sec with swatches := s.swatches.map fun p => (p.1, p.2.seeWrite sec s.turn) }

/-- A clock of four counters of 48 bits with one advanced (R319). -/
def bumpClock (c : List Nat) (d : Nat) : List Nat := c.set d ((c.getD d 0 + 1) % 2 ^ 48)

/-! ## Causal application of notices (R318, R319) -/

/-- Whether a die may apply a notice now (R319). -/
def Die.mayApply (d : Die) (n : Notice) : Bool :=
  [0, 1, 2, 3].all fun k =>
    if k = n.writer then n.stamp.getD k 0 == (d.clock.getD k 0 + 1) % 2 ^ 48
    else decide ((d.clock.getD k 0 + 2 ^ 48 - n.stamp.getD k 0) % 2 ^ 48 < 2 ^ 47)

/-- Apply one notice: the clock advances; the copy changes only for a later sequence number. -/
def Die.apply (d : Die) (n : Notice) : Die :=
  { d with
    clock := d.clock.set n.writer (n.stamp.getD n.writer 0)
    copies :=
      match n.update with
      | some u => d.copies.modify n.sector fun c => if c.seq < u.seq then u else c
      | none => d.copies }

/-- The first notice that may be applied, removed. -/
def takeNotice (d : Die) : List Notice → Option (Notice × List Notice)
  | [] => none
  | n :: ns =>
    if d.mayApply n then some (n, ns)
    else
      match takeNotice d ns with
      | some (m, rest) => some (m, n :: rest)
      | none => none

/-- Apply notices until none may be applied. -/
def Die.applyAll : Nat → Die → Die
  | 0, d => d
  | f + 1, d =>
    match takeNotice d d.notices with
    | some (n, rest) => Die.applyAll f (({ d with notices := rest } : Die).apply n)
    | none => d

def State.applyNotices (s : State) (d : Nat) : State :=
  if (s.die d).notices.isEmpty then s else s.modDie d fun x => x.applyAll x.notices.length

/-- An acquire wider than swatch scope: the die has applied every stamped write that precedes what the
acquire reads (R253, R320, R322). -/
def State.acquire (s : State) (die : Nat) (wide : Bool) : State :=
  if wide then s.applyNotices die else s

/-- Merge written bytes over a sector's bytes. -/
def mergeBytes (old : List Byte) (new : Tab Byte) : List Byte :=
  new.foldl (fun l p => l.set p.1 p.2) old

/-- A die's stamps run no further than 2^47 ahead of what the other dies have applied: before they would, these
apply what is under way (R319). -/
def State.stampRoom (s : State) (w : Nat) : State :=
  let own := (s.die w).clock.getD w 0
  if [0, 1, 2, 3].any fun d => decide (2 ^ 47 ≤ (own + 1 + 2 ^ 48 - (s.die d).clock.getD w 0) % 2 ^ 48) then
    [0, 1, 2, 3].foldl (fun s d => s.applyNotices d) s
  else s

/-- A write takes its place in its sector's order at the home: the bytes change, the sector's
sequence number rises, a stamped write sends its notices (R318, R319), watches fire (R259), and a
queue parked on its tail word becomes eligible again (R347, R352). `writer` is the writing die. -/
def State.placeWrite (s : State) (writer : Option Nat) (sec : Nat) (new : Tab Byte) : State :=
  let home := dieOf sec
  let w := writer.getD home
  let s := s.stampRoom w
  let bytes := mergeBytes (memBytes s.mem sec 32) new
  let seq := (s.die home).seqs.getD sec 0 + 1
  let holders := [0, 1, 2, 3].filter fun d => d != home && ((s.die d).copies.get? sec).isSome
  let stamped := home != w || holders.any fun d => d != w
  let clock := if stamped then bumpClock (s.die w).clock w else (s.die w).clock
  let note := fun (d : Nat) (die : Die) =>
    if stamped && d != w then
      { die with
        notices := die.notices ++
          [⟨w, clock, sec, if (die.copies.get? sec).isSome then some ⟨bytes, seq⟩ else none⟩] }
    else die
  let own := fun (die : Die) =>
    { die with clock := clock, copies := die.copies.modify sec fun _ => ⟨bytes, seq⟩ }
  let s := { s with
    mem := memPutBytes s.mem sec bytes
    bad := if 32 ≤ new.length then s.bad.filter fun b => b != sec else s.bad }
  let s := s.modDie home fun d => { d with seqs := d.seqs.put sec seq }
  let s := s.modDie w own
  let s := if stamped then [0, 1, 2, 3].foldl (fun s d => s.modDie d (note d)) s else s
  let s := { s with
    queues := s.queues.map fun (q : QState) =>
      match s.ctx? q.ctx with
      | some c =>
        { q with
          parked := q.parked && !(sectorOf (c.qtab + 64 * q.q + 0x10) == sec &&
            new.any fun p => decide (0x10 ≤ p.1 % 32) && decide (p.1 % 32 < 0x14)) }
      | none => q }
  s.fireWatches sec

/-- The migration bitmap's bit for a written sector, set after the write (R406). -/
def State.markDirty (s : State) (sec : Nat) : State :=
  let m := (s.die (dieOf sec)).mig
  let page := dieAddr sec / 65536
  let i := page - m.base.toNat
  let lo := m.bmap.toNat
  let byte := lo + i / 8
  if m.track && decide (m.base.toNat ≤ page) && decide (i < m.pages.toNat) &&
      !(decide (lo ≤ sec) && decide (sec < lo + 8 * ((m.pages.toNat + 63) / 64))) then
    let b := memByte s.mem byte ||| BitVec.ofNat 8 (2 ^ (i % 8))
    s.placeWrite none (sectorOf byte) [(byte % 32, b)]
  else s

/-- Consecutive bytes of a sparse write, as runs from their first offset. -/
def runsOf : Tab Byte → List (Nat × List Byte)
  | [] => []
  | (o, b) :: t =>
    match runsOf t with
    | (o', bs) :: rs => if o' = o + 1 then (o, b :: bs) :: rs else (o, [b]) :: (o', bs) :: rs
    | [] => [(o, [b])]

/-- A message from a die of this package; a request takes the next transaction tag and waits for its answer
(R391). -/
def Package.request (p : Package) (m : Msg) : Package :=
  let m := { m with txn := p.nextTxn }
  { p with sent := p.sent ++ [m], unacked := p.unacked ++ [m], nextTxn := (p.nextTxn + 1) % 2 ^ 20 }

/-- Every write and atomic sent to another package's home has its answer (R249, R316). -/
def Package.acked (p : Package) : Bool := p.unacked.all fun m => m.mkind != 3 && m.mkind != 5

/-- The write messages that carry a write to another package's home (R391, R395). -/
def Package.sendWrite (p : Package) (writer : Option Nat) (sec : Nat) (new : Tab Byte) : Package :=
  (runsOf new).foldl (fun p r => p.request
    ⟨pkgOf sec, dieOf sec, false, p.fpkg, writer.getD 0, false, 3, 0, sec + r.1, r.2⟩) p

/-- The address is homed on this package. -/
def State.here (s : State) (a : Nat) : Bool := pkgOf a == s.pkg.fpkg

/-- A write that goes to another package's home, where it takes its place; this package keeps the bytes as what its
front ends have seen of that memory (R395, log 16). -/
def State.awayWrite (s : State) (writer : Option Nat) (sec : Nat) (new : Tab Byte) : State :=
  let s := s.modPkg fun p => p.sendWrite writer sec new
  ({ s with mem := memPutBytes s.mem sec (mergeBytes (memBytes s.mem sec 32) new) } : State).fireWatches sec

/-- A write reaches its home: discarded and counted where no memory stands (R308, R395), sent as messages when the
home is another package's (R395). -/
def State.homeWrite (s : State) (writer : Option Nat) (sec : Nat) (new : Tab Byte) : State :=
  if new.isEmpty then s
  else if !s.present sec then s.modPkg fun p => { p with discarded := p.discarded + 1 }
  else if s.here sec then (s.placeWrite writer sec new).markDirty sec
  else s.awayWrite writer sec new

/-- Bytes of one sector out of a run of bytes at an address. -/
def sectorPart (a : Nat) (bs : List Byte) (sec : Nat) : Tab Byte :=
  (bs.zip (rangeFrom a bs.length)).foldl
    (fun t p => if sectorOf p.2 = sec then t.put (p.2 - sec) p.1 else t) []

/-- The sectors of a run of bytes, ascending. -/
def sectorsOf (a n : Nat) : List Nat :=
  if n = 0 then []
  else (List.range ((a + n - 1) / 32 - a / 32 + 1)).map fun i => sectorOf a + 32 * i

/-- A run of bytes written at their homes, sector by sector. -/
def State.homeWriteBytes (s : State) (writer : Option Nat) (a : Nat) (bs : List Byte) : State :=
  (sectorsOf a bs.length).foldl (fun s sec => s.homeWrite writer sec (sectorPart a bs sec)) s

/-- The sector at its home, and whether it delivers uncorrectable data (R308, R122). -/
def State.homeRead (s : State) (sec : Nat) : List Byte × Bool :=
  (memBytes s.mem sec 32, s.bad.contains sec || !s.present sec)

/-- Bytes read at their homes. -/
def State.homeBytes (s : State) (a n : Nat) : List Byte := memBytes s.mem a n

def State.homeWord (s : State) (a : Nat) : Nat := leNat (s.homeBytes a 4)
def State.homeDword (s : State) (a : Nat) : Nat := leNat (s.homeBytes a 8)

/-! ## The cache slice as an array of lines (R247) -/

/-- Sets and ways of a slice (R247). -/
def sliceSets : Nat := 8192
def sliceWays : Nat := 16

/-- The home slice of a sector: its home die's, by physical address bits [14:12] (R247). -/
def homeSlice (a : Nat) : Nat := 8 * dieOf a + a / 4096 % 8

/-- What an access makes of a sector in its slice: it reads it, owns it (PREF.wr), or writes it. -/
inductive Touch
  | read | own | write
  deriving DecidableEq, Repr

/-- The line of a bolt's barrier records is never replaced (R247). -/
def SliceLine.pinned (x : SliceLine) : Bool :=
  match x.tag with
  | .bolt _ _ => true
  | _ => false

/-- Room for a line in its set: the least recently used line that is not pinned goes; a set of pinned lines has
none. -/
def sliceRoom (l : List SliceLine) (line : Nat) : Option (List SliceLine) :=
  let same := l.filter fun x => x.line % sliceSets == line % sliceSets
  if same.length < sliceWays then some l
  else (same.find? fun x => !x.pinned).map fun x => l.erase x

/-- A sector is used in a slice: its line becomes the most recently used of its set. -/
def sliceUse (l : List SliceLine) (tag : SliceTag) (sec : Nat) (t : Touch) : List SliceLine :=
  let line := sec / 128
  let old := (l.find? fun x => x.line == line && x.tag == tag).getD ⟨line, [], [], [], tag⟩
  let new : SliceLine := { old with
    valid := insNat sec old.valid
    owned := if t = .read then old.owned else insNat sec old.owned
    dirty := if t = .write then insNat sec old.dirty else old.dirty }
  match sliceRoom (l.filter fun x => !(x.line == line && x.tag == tag)) line with
  | some rest => rest ++ [new]
  | none => l

/-- A sector of memory leaves a slice. -/
def sliceDrop (l : List SliceLine) (sec : Nat) : List SliceLine :=
  (l.map fun x =>
    if x.line = sec / 128 && x.tag = .mem then
      { x with
        valid := x.valid.filter fun y => y != sec, owned := x.owned.filter fun y => y != sec
        dirty := x.dirty.filter fun y => y != sec }
    else x).filter fun x => x.tag != .mem || !x.valid.isEmpty

/-- A sector is held with ownership no longer: what was dirty has been written back. -/
def sliceShare (l : List SliceLine) (sec : Nat) : List SliceLine :=
  l.map fun x => if x.tag ≠ .mem then x else { x with
    owned := x.owned.filter fun y => y != sec, dirty := x.dirty.filter fun y => y != sec }

/-- An access of a cluster to a sector of this package: held with ownership in one slice of the die, it is held in
no other (R247); a copy of another die's is never dirty (R318), and a sector of another package stays in no slice
(R318, R395). -/
def State.sliceTouch (s : State) (clu sec : Nat) (t : Touch) : State :=
  if pkgOf sec ≠ s.pkg.fpkg then s
  else
    let t := if dieOf sec = dieOfCluster clu then t else .read
    let s : State := { s with clusters := s.clusters.map fun p =>
      (p.1, if p.1 ≠ clu && dieOfCluster p.1 = dieOfCluster clu then
        { p.2 with slice := if t = .read then sliceShare p.2.slice sec else sliceDrop p.2.slice sec } else p.2) }
    s.modCluster clu fun c => { c with slice := sliceUse c.slice .mem sec t }

/-- Some other slice of the die holds the sector. -/
def State.heldElsewhere (s : State) (clu sec : Nat) : Bool :=
  s.clusters.any fun p => p.1 != clu && dieOfCluster p.1 == dieOfCluster clu &&
    p.2.slice.any fun l => l.tag == .mem && l.valid.contains sec

/-! ## Write buffers (R248, R252) -/

/-- The first write on its way from a die to another die's home takes its place there (R318). -/
def State.remoteWrite (s : State) (d : Nat) : State :=
  match (s.die d).out with
  | [] => s
  | r :: rs => (s.modDie d fun x => { x with out := rs }).homeWrite (some d) r.sector r.bytes

def State.flushGo (d : Nat) : Nat → State → State
  | 0, s => s
  | n + 1, s => State.flushGo d n (s.remoteWrite d)

/-- Every write on its way from a die takes its place. -/
def State.flushOut (s : State) (d : Nat) : State := State.flushGo d (s.die d).out.length s

/-- One entry leaves a core's write buffer: to its home at once on the writer's die, else on its way
to the other die or package (R248, R318, R395). -/
def State.drainEntry (s : State) (core sec : Nat) : State :=
  match (s.core core).wbuf.find? fun e => e.sector == sec with
  | none => s
  | some e =>
    let s := s.modCore core fun c => { c with wbuf := c.wbuf.filter fun x => x.sector != sec }
    let d := dieOfCore core
    if pkgOf sec = s.pkg.fpkg && dieOf sec = d then
      (s.sliceTouch (clusterOfCore core) sec .write).homeWrite (some d) sec e.bytes
    else s.modDie d fun x => { x with out := x.out ++ [⟨core, sec, e.bytes⟩] }

/-- A release wider than swatch scope: the whole buffer and what it sent stand at their homes (R252). -/
def State.drainCore (s : State) (core : Nat) : State :=
  let s := (s.core core).wbuf.foldl (fun s e => s.drainEntry core e.sector) s
  s.flushOut (dieOfCore core)

/-- The buffer's entry for a sector and what this core sent towards its home stand there first (R248). -/
def State.settle (s : State) (core : Option Nat) (sec : Nat) : State :=
  match core with
  | none => s
  | some c =>
    let s := s.drainEntry c sec
    if (s.die (dieOfCore c)).out.isEmpty then s else s.flushOut (dieOfCore c)

/-- A release at its scope (R252): at swatch scope every write already stands in the buffer. -/
def State.release (s : State) (core : Option Nat) (wide : Bool) : State :=
  match core with
  | some c => if wide then s.drainCore c else s
  | none => s

/-- A store's bytes enter the write buffer, combining per sector; a full buffer first drains its
oldest entry (R248). The control core has no buffer and writes at the home. -/
def State.bufferWrite (s : State) (core : Option Nat) (die sec : Nat) (new : Tab Byte) : State :=
  match core with
  | none => s.homeWrite (some die) sec new
  | some c =>
    let b := (s.core c).wbuf
    if b.any fun e => e.sector == sec then
      s.modCore c fun k => { k with
        wbuf := k.wbuf.map fun e =>
          if e.sector = sec then { e with bytes := new.foldl (fun t p => t.put p.1 p.2) e.bytes }
          else e }
    else
      let s := if Config.writeBuffer ≤ b.length then
          match b with
          | e :: _ => s.drainEntry c e.sector
          | [] => s
        else s
      s.modCore c fun k => { k with wbuf := k.wbuf ++ [⟨sec, new⟩] }

/-! ## Reads of another package (R395) -/

/-- The answer to a read of a sector. -/
def readAnswer (l : List Away) (sec : Nat) : Option (List Byte × Bool) :=
  (l.find? fun a => a.lane.isNone && a.addr == sec).bind fun a => a.answer

/-- Sectors of a range that another package holds and has not yet answered for. -/
def State.unanswered (s : State) (l : List Away) (a n : Nat) : List Nat :=
  (sectorsOf a n).filter fun sec => !s.here sec && s.present sec && (readAnswer l sec).isNone

/-- Reads of sectors are sent, each once, behind this core's own writes to them (R151, R392). -/
def State.askReads (s : State) (core : Option Nat) (die : Nat) (l : List Away) (secs : List Nat) :
    State × List Away :=
  secs.foldl (fun (x : State × List Away) sec =>
    if x.2.any fun a => a.lane.isNone && a.addr == sec then x
    else
      let s := x.1.settle core sec
      (s.modPkg fun p => p.request ⟨pkgOf sec, dieOf sec, false, p.fpkg, die, false, 1, 0, sec, []⟩,
        x.2 ++ [⟨none, sec, s.pkg.nextTxn, none⟩])) (s, l)

/-- The first of the sources of R250 that holds a sector, as an agent of a core or a control core
sees it. A miss on another die's sector first applies the notices that may precede it and installs a
copy (R318, R320); `atHome` is a read that an acquire at .pk or wider makes (R320). Another package's sector is what
its home has answered (R395). -/
def State.loadSector (s : State) (core : Option Nat) (die : Nat) (ans : List Away) (sec : Nat) (atHome : Bool) :
    State × List Byte × Bool :=
  let local_ := s.here sec && dieOf sec != die
  let past := fun (s : State) (bs : List Byte) =>
    match core with
    | none => bs
    | some c =>
      let bs := (s.die die).out.foldl
        (fun bs r => if r.core = c && r.sector = sec then mergeBytes bs r.bytes else bs) bs
      match (s.core c).wbuf.find? fun e => e.sector == sec with
      | some e => mergeBytes bs e.bytes
      | none => bs
  let full := fun (s : State) =>
    match core with
    | none => false
    | some c => ((s.core c).wbuf.find? fun e => e.sector == sec).any fun e => 32 ≤ e.bytes.length
  let h := if s.here sec then s.homeRead sec
    else (readAnswer ans sec).getD (List.replicate 32 0, !s.present sec)
  if local_ && !h.2 then
    match (s.die die).copies.get? sec with
    | some c => if atHome then
        let s := s.applyNotices die
        (s, past s h.1, false) else (s, past s c.bytes, false)
    | none =>
      let s := s.applyNotices die
      let seq := (s.die (dieOf sec)).seqs.getD sec 0
      let s := s.modDie die fun x => { x with copies := x.copies.put sec ⟨h.1, seq⟩ }
      (s, past s h.1, false)
  else (s, past s h.1, h.2 && !full s)

/-- Bytes at an address as such an agent sees them, and the first bad sector. -/
def State.loadBytes (s : State) (core : Option Nat) (die : Nat) (ans : List Away) (a n : Nat) (atHome : Bool) :
    State × List Byte × Option Nat :=
  (sectorsOf a n).foldl
    (fun (x : State × List Byte × Option Nat) sec =>
      let r := x.1.loadSector core die ans sec atHome
      let lo := max a sec
      let hi := min (a + n) (sec + 32)
      (r.1, x.2.1 ++ (r.2.1.drop (lo - sec)).take (hi - lo),
        match x.2.2 with
        | some b => some b
        | none => if r.2.2 then some sec else none))
    (s, [], none)

/-! ## Translation -/

/-- Bits [63:57] equal bit 56 (R6). -/
def canonical (a : DWord) : Bool := (a.setWidth 57).signExtend 64 == a

/-- The canonical virtual address of the low 57 bits (R6). -/
def canonicalVa (va : Nat) : DWord := (BitVec.ofNat 57 va).signExtend 64

/-- A table entry's fields (R311). -/
def pteAddr (e : Nat) : Nat := e / 2 ^ 12 % 2 ^ 48 * 2 ^ 12
def pteSys (e : Nat) : Bool := e.testBit 11
def pteDesc (e : Nat) : Bool := e.testBit 10
def pteVer (e : Nat) : Bool := e.testBit 9
def pteAp (e : Nat) : Nat := e / 2 ^ 7 % 4
def pteX (e : Nat) : Bool := e.testBit 6
def pteW (e : Nat) : Bool := e.testBit 5
def pteR (e : Nat) : Bool := e.testBit 4
def pteLeaf (e : Nat) : Bool := e.testBit 1
def pteV (e : Nat) : Bool := e.testBit 0

/-- A valid entry is malformed (R312). `lv` is the level, `lo` the low bit its index ends at. -/
def State.malformed (s : State) (lv lo e : Nat) : Bool :=
  let addr := pteAddr e
  let nextAlign := if lv ≤ 2 then 2 ^ 13 else 2 ^ 12
  e / 2 ^ 60 != 0 || e / 4 % 4 != 0 || (lv == 1 && pteLeaf e) || (lv == 4 && !pteLeaf e) ||
    (if pteLeaf e then
      addr % 2 ^ lo != 0 || pteAp e == 3 || (pteAp e == 2 && !pteSys e) ||
        (pteVer e && (pteDesc e || pteX e || pteAp e != 0)) || (pteDesc e && pteX e) ||
        (pteDesc e && decide (s.sidecarAt addr ≤ dieAddr addr ∧ dieAddr addr < s.populatedAt addr))
    else e / 4 % 1024 != 0 || addr % nextAlign != 0 || pkgOf addr != s.pkg.fpkg)

/-- The levels of the radix tree: level, high and low bit of its index (R310). -/
def walkLevels : List (Nat × Nat × Nat) := [(1, 56, 45), (2, 44, 35), (3, 34, 25), (4, 24, 16)]

/-- A walk over the remaining levels (R313): the leaf with the address of its entry and its page
shift, or a fault cause. -/
def State.walkGo (s : State) (va t : Nat) : List (Nat × Nat × Nat) → Except Nat (Nat × Nat × Nat)
  | [] => .error 0x08
  | (lv, hi, lo) :: ls =>
    let at_ := t + 8 * nbits va hi lo
    let e := s.homeDword at_
    if !pteV e then .error 0x08
    else if s.malformed lv lo e then .error 0x09
    else if pteLeaf e then .ok (e, at_, lo)
    else s.walkGo va (pteAddr e) ls

def State.walk (s : State) (root va : Nat) : Except Nat (Nat × Nat × Nat) :=
  s.walkGo (va % 2 ^ 57) root walkLevels

/-- A translation: the leaf entry and the physical address. -/
structure Trans where
  leaf : Nat
  shift : Nat
  pa : Nat
  deriving DecidableEq, Repr

def mkTrans (leaf shift va : Nat) : Trans :=
  ⟨leaf, shift, pteAddr leaf / 2 ^ shift * 2 ^ shift + va % 2 ^ shift⟩

/-- A TLB entry covers the address (R315). -/
def TlbEntry.covers (t : TlbEntry) (ctx : Word) (va : Nat) : Bool :=
  t.ctx == ctx && t.va / 2 ^ t.shift == va / 2 ^ t.shift

/-- Insert into a TLB of `cap` entries, for each page size or in all, dropping the oldest. -/
def tlbInsert (cap : Nat) (bySize : Bool) (l : List TlbEntry) (e : TlbEntry) : List TlbEntry :=
  let same := l.filter fun x => !bySize || x.shift == e.shift
  let l := if cap ≤ same.length then
      match same with
      | x :: _ => l.erase x
      | [] => l
    else l
  l ++ [e]

/-- Translate for an agent of a cluster (and core): TLB first, then a walk whose leaf is kept
(R313 to R315). A fault is kept nowhere. -/
def State.translate (s : State) (core : Option Nat) (clu : Nat) (ctx : Word) (va : Nat) :
    State × Except Nat Trans :=
  let va := va % 2 ^ 57
  let hit := match core with
    | some c => (s.core c).tlb.find? fun t : TlbEntry => t.covers ctx va
    | none => none
  match hit.or ((s.cluster clu).tlb.find? fun t : TlbEntry => t.covers ctx va) with
  | some t => (s, .ok (mkTrans t.leaf.toNat t.shift va))
  | none =>
    match s.ctx? ctx with
    | none => (s, .error 0x08)
    | some c =>
      match s.walk c.root va with
      | .error e => (s, .error e)
      | .ok (leaf, _, shift) =>
        let ent : TlbEntry := ⟨ctx, c.gen, va / 2 ^ shift * 2 ^ shift, shift, w64 leaf⟩
        let s := s.modCluster clu fun k => { k with tlb := tlbInsert Config.clusterTlb false k.tlb ent }
        let s := match core with
          | some c => s.modCore c fun k => { k with tlb := tlbInsert Config.coreTlb true k.tlb ent }
          | none => s
        (s, .ok (mkTrans leaf shift va))

/-- Kinds of access for the permission rows of R314. -/
inductive Acc
  | load | store | atomic | fetch | vload | vstore
  deriving DecidableEq, Repr

/-- The page admits the access (R314, R331). -/
def pageAdmits (a : Acc) (leaf : Nat) : Bool :=
  match a with
  | .load => pteR leaf && !pteVer leaf
  | .store => pteW leaf && !pteVer leaf
  | .atomic => pteR leaf && pteW leaf && !pteVer leaf
  | .fetch => pteX leaf
  | .vload => pteR leaf && pteVer leaf
  | .vstore => pteW leaf && pteVer leaf

/-- A faulting access's page stands in no TLB of its core and cluster, so a replay walks again (R314, R315). -/
def State.dropCovering (s : State) (core : Option Nat) (clu : Nat) (ctx : Word) (va : Nat) : State :=
  let keep := fun (l : List TlbEntry) => l.filter fun t => !t.covers ctx (va % 2 ^ 57)
  let s := s.modCluster clu fun k => { k with tlb := keep k.tlb }
  match core with
  | some c => s.modCore c fun k => { k with tlb := keep k.tlb }
  | none => s

/-- Translate and check permission: a physical address or a cause of R314. -/
def State.access (s : State) (core : Option Nat) (clu : Nat) (ctx : Word) (k : Acc) (va : Nat) :
    State × Except Nat Trans :=
  match s.translate core clu ctx va with
  | (s, .error e) => (s, .error e)
  | (s, .ok t) => if pageAdmits k t.leaf then (s, .ok t) else (s.dropCovering core clu ctx va, .error 0x09)

/-- Translate and check an access to a word of code, whose address is the code base plus an offset (R6, R314). -/
def State.fetchAccess (s : State) (clu : Nat) (ctx : Word) (off : Nat) : State × Except Nat Trans :=
  match s.ctx? ctx with
  | none => (s, .error 0x08)
  | some c =>
    if canonical (w64 (c.code + off)) then s.access none clu ctx .fetch (c.code + off) else (s, .error 0x09)

/-- A walk without a TLB, for the front end and for debug reads: physical address. -/
def State.walkPa (s : State) (ctx : Word) (va : Nat) : Except Nat Trans :=
  match s.ctx? ctx with
  | none => .error 0x08
  | some c =>
    match s.walk c.root (va % 2 ^ 57) with
    | .error e => .error e
    | .ok (leaf, _, shift) => .ok (mkTrans leaf shift (va % 2 ^ 57))

end Sys2Proof.Machine
end

