-- ==== Sys2Proof/Machine/Ops.lean ====
section
/-!
DEFINITION. The named operations the meanings share: event records, the issuing site, code words,
the frontier, registers and their map, traps and their return, barriers' wake messages, and the
issue of an instruction with every check that precedes its meaning.
-/
namespace Sys2Proof
namespace Machine

/-! ## Records to the host and to the control core -/

/-- Low 32 bits of global time. -/
def State.tim32 (s : State) : Word := w32 s.tim

/-- The lowest set bit of a cluster mask. -/
def lowCluster (m : Nat) : Nat := ((List.range 32).find? fun i => m.testBit i).getD 0

/-- The die whose front end serves a context (the die of its partition's lowest cluster). -/
def State.frontDie (s : State) (ctx : Word) : Nat :=
  match s.ctx? ctx with
  | some c =>
    match s.parts.get? c.part with
    | some p => dieOfCluster (lowCluster p.clusters)
    | none => 0
  | none => 0

/-- A fabric interrupt (R398): cause, context and the time of sending, to the adapter of fhost. -/
def State.interrupt (s : State) (cause : Nat) (ctx : Word) : State :=
  let d := s.frontDie ctx
  s.modPkg fun p => { p with sent := p.sent ++
    [⟨(s.die d).fhost.toNat, 0, true, p.fpkg, d, false, 9, 0, 0,
      natBytes 4 cause ++ wordBytes ctx ++ natBytes 8 s.tim⟩] }

/-- Write one record into the ring, before tail advances past it; `none` when the ring is full or its
page is not reached (R354, R355). -/
def State.ringWrite (s : State) (r : RingRec) : Option State :=
  match s.ctx? r.ctx with
  | none => none
  | some c =>
    match s.walkPa r.ctx (c.ering % 2 ^ 57) with
    | .error _ => none
    | .ok h =>
      let tail := s.homeWord h.pa
      let head := s.homeWord (h.pa + 4)
      if (tail + 2 ^ 32 - head) % 2 ^ 32 ≥ 2 ^ c.elsize then none
      else
        match s.walkPa r.ctx (c.ering + 64 + 32 * (tail % 2 ^ c.elsize)) with
        | .error _ => none
        | .ok t =>
          let s := s.homeWriteBytes none t.pa (r.words.flatMap wordBytes)
          some (s.homeWriteBytes none h.pa (wordBytes (w32 (tail + 1))))

/-- A full ring sets ovf, with one interrupt for each transition, and may count a lost record (R355). -/
def State.ringFull (s : State) (ctx : Word) (lose : Bool) : State :=
  match s.ctx? ctx with
  | none => s
  | some c =>
    match s.walkPa ctx (c.ering % 2 ^ 57) with
    | .error _ => s
    | .ok h =>
      let w := s.homeWord (h.pa + 8)
      let lost := if lose then min (w / 65536 + 1) 65535 else w / 65536
      let s := s.homeWriteBytes none (h.pa + 8) (wordBytes (w32 (lost * 65536 + w % 65536 / 2 * 2 + 1)))
      if w % 2 = 0 then s.interrupt 1 ctx else s

/-- Post a record: into the ring, or behind those that wait for room (R355). Queue-error records are
sticky and never dropped. -/
def State.post (s : State) (r : RingRec) : State :=
  let d := s.frontDie r.ctx
  let waiting := (s.die d).pendEv.any fun x => x.ctx == r.ctx
  match if waiting then none else s.ringWrite r with
  | some s => s
  | none =>
    let drop := r.queue.isNone &&
      Config.pendingEvents ≤ ((s.die d).pendEv.filter fun x => x.queue.isNone).length
    let s := s.ringFull r.ctx drop
    if drop then s else s.modDie d fun x => { x with pendEv := x.pendEv ++ [r] }

/-- Words of a record of R354; every kind but the hang record puts tim at 0x18. -/
def State.record (s : State) (kind sub : Nat) (ctx : Word) (a b c d f : Word) : RingRec :=
  ⟨ctx, [w32 (kind + 256 * sub), ctx, a, b, c, d, s.tim32, f], none⟩

/-- The control core's event queue: a record that finds it full is dropped and counted (R263). -/
def State.evPush (s : State) (clu : Nat) (r : EvRec) : State :=
  s.modCluster clu fun c =>
    if c.evq.length < Config.eventQueue then { c with evq := c.evq ++ [r] }
    else { c with evOvf := true, evLost := min 1023 (c.evLost + 1) }

/-! ## The issuing site -/

/-- Everything an instruction sees of where it issues: the weft's entry and clause, its active
lanes, and the special sources of R23 sampled at issue. -/
structure Site where
  sid : Nat
  wid : Nat
  sw : Swatch
  w : Weft
  e : Entry
  cl : Clause
  act : Mask
  clk : Word
  tim : Word
  stp : Word
  targ : DWord
  lrec : DWord
  sys : Bool
  core : Option Nat
  clu : Nat
  die : Nat
  deriving DecidableEq, Repr

/-- Lanes of tdone that skip the word at a pc when it first issues again after ERET (R119). -/
def Weft.skipAt (w : Weft) (pc : Word) : Mask := if w.trapMode then 0 else w.replay.getD pc.toNat 0

/-- The lanes an entry performs an instruction for: its mask without the lanes that a replayed
instruction has already performed (R119) or that its wait has (R409). -/
def activeLanes (w : Weft) (e : Entry) : Mask :=
  e.mask &&& ~~~(w.skipAt e.pc ||| (w.wait.map fun x => x.done).getD 0)

/-- An entry at its clause's header runs the clause from its first following word (R101). -/
def Entry.atWord (e : Entry) : Entry := if e.pc = e.hdr then { e with pc := e.hdr + 8 } else e

/-- The site of a weft at an entry of a clause. -/
def State.siteAt (s : State) (sid wid : Nat) (sw : Swatch) (w : Weft) (e : Entry) (cl : Clause) : Site :=
  let clu := sw.clu
  let l := if sw.control.isSome then none else s.launches.get? sw.launch
  let e := e.atWord
  { sid := sid, wid := wid, sw := sw, w := w, e := e, cl := cl, act := activeLanes w e
    clk := w32 (s.cluster clu).clk, tim := s.tim32
    stp := (((s.cluster clu).deadlines.get? sw.ctx.toNat).map fun d => d.n).getD 0
    targ := (l.map fun x => x.args).getD 0
    lrec := (l.map fun x => w64 x.lrec).getD 0
    sys := s.isSys sw, core := sw.core?, clu := clu, die := dieOfCluster clu }

/-- The entry that waits at a BAR stands first. -/
def barFirst (fr : List Entry) : List Entry :=
  (fr.filter fun e => e.barWait) ++ fr.filter fun e => !e.barWait

/-- The site of a weft that stands at an instruction of its running clause, or at the BAR at which it waits
again after ERET (R120). -/
def State.siteOf (s : State) (sid wid : Nat) : Option Site :=
  match s.swatch? sid, s.weft? sid wid with
  | some sw, some w =>
    match (if w.clause.isNone then barFirst w.frontier else w.frontier),
      w.clause.or (w.wait.map fun x => x.cl) with
    | e :: _, some cl => some (s.siteAt sid wid sw w e cl)
    | _, _ => none
  | _, _ => none

/-- The site of the issuing weft; none when no weft stands at an instruction. -/
def State.site? (s : State) : Option Site :=
  match s.issuer with
  | none => none
  | some (sid, wid) => s.siteOf sid wid

/-- Position of the word at the entry's pc among the following words of its clause (R18). -/
def Site.pos (k : Site) : Nat := ((k.e.pc - k.e.hdr).toNat - 8) / 4

/-- Words of a clause after its header, from header word 0 (R17). -/
def clauseLen (h0 : Word) : Nat := h0.toNat % 8 + 1

/-- Where a clause falls through to, as an exact offset (R16, R22). -/
def nextOffset (hdr h0 : Word) : Int := ((hdr.toNat + roundUp (8 + 4 * clauseLen h0) 8 : Nat) : Int)

/-- The next clause header in fall-through order (R16). -/
def nextHeader (hdr h0 : Word) : Word := hdr + w32 (roundUp (8 + 4 * clauseLen h0) 8)

def hdrPrio (h0 : Nat) : Nat := h0 / 2 ^ 25 % 128

/-- The set slot's flag, if its valid bit is set (R17, R21). -/
def slotFlag (h0 : Word) (b : Bool) : Option Nat :=
  let x := h0.toNat
  if b then (if x.testBit 24 then some (nbits x 23 20) else none)
  else (if x.testBit 19 then some (nbits x 18 15) else none)

/-! ## Code -/

/-- Code segment limits of a context; an unknown context has none. -/
def State.codeSize (s : State) (ctx : Word) : Nat := ((s.ctx? ctx).map fun c => c.csize).getD 0

/-- A target that R22 refuses: misaligned, at a negative offset, or not within the code segment. -/
def badOffset (csize : Nat) (t : Int) : Bool :=
  t % 8 != 0 || decide (t < 0) || decide ((csize : Int) ≤ t)

/-- The offset of a header that R22 refuses. -/
def badTarget (csize : Nat) (t : Word) : Bool := badOffset csize t.toNat

/-- The word at a code offset as the cluster's instruction cache holds it (R261). -/
def State.cachedWord (s : State) (clu : Nat) (ctx : Word) (off : Nat) : Option Word :=
  match (s.cluster clu).icache.find? fun l => l.ctx == ctx && l.line == off / 64 * 64 with
  | some l => l.words[off % 64 / 4]?
  | none => none

/-- The word at a code offset in memory, by a walk of the context's tables. -/
def State.codeWord (s : State) (ctx : Word) (off : Nat) : Option Word :=
  match s.ctx? ctx with
  | none => none
  | some c =>
    match s.walkPa ctx (c.code + off) with
    | .ok t => if pteX t.leaf then some (w32 (s.homeWord t.pa)) else none
    | .error _ => none

/-- Priority read from the header at a target: the cached word, else memory's, else 0 (R102). -/
def State.prioAt (s : State) (clu : Nat) (ctx : Word) (t : Word) : Nat :=
  match (s.cachedWord clu ctx t.toNat).or (s.codeWord ctx t.toNat) with
  | some h => hdrPrio h.toNat
  | none => 0

/-! ## The frontier (R100 to R102) -/

/-- Selection order: higher priority first, then lower pc (R101). -/
def Entry.before (a b : Entry) : Bool :=
  decide (b.prio < a.prio) || (a.prio == b.prio && decide (a.pc.toNat ≤ b.pc.toNat))

def insertEntry (e : Entry) : List Entry → List Entry
  | [] => [e]
  | x :: xs => if e.before x then e :: x :: xs else x :: insertEntry e xs

def sortFrontier : List Entry → List Entry
  | [] => []
  | e :: es => insertEntry e (sortFrontier es)

/-- Lanes that stand at a pc join its entry or form one (R102). -/
def joinAt (fr : List Entry) (e : Entry) : List Entry :=
  if e.mask = 0 then fr
  else if fr.any fun x => x.pc == e.pc then
    fr.map fun x => if x.pc = e.pc then { x with mask := x.mask ||| e.mask, barWait := x.barWait || e.barWait } else x
  else fr ++ [e]

/-- Lanes not parked and not exited (R12). -/
def Weft.parkedMask (w : Weft) : Mask := maskOf fun l => (w.parked.get? l).isSome
def Weft.live (w : Weft) : Mask := ~~~(w.exited ||| w.parkedMask)

/-- The union of the frontier's masks. -/
def frontierMask (fr : List Entry) : Mask := fr.foldl (fun m e => m ||| e.mask) 0

/-- The running entry leaves its clause: its lanes move to their targets and regroup (R102). -/
def State.regroup (s : State) (k : Site) (moves : List (Word × Mask)) (rest : List Entry) :
    List Entry :=
  sortFrontier (moves.foldl
    (fun fr m => joinAt fr ⟨m.1, m.1, s.prioAt k.clu k.sw.ctx m.1, m.2, false⟩) rest)

/-! ## Registers (R108 to R112, R122) -/

/-- A logical register: vector or scalar, with its index. -/
inductive Reg
  | v (n : Nat)
  | s (n : Nat)
  deriving DecidableEq, Repr

/-- The logical registers a source names, through the windows (R23, R27). -/
def Weft.regsOf (w : Weft) (a : Src) (g : Nat) : List Reg :=
  match a with
  | .v n => (rangeFrom (16 * w.vwin + n.val) g).map Reg.v
  | .s n => (rangeFrom (16 * w.swin + n.val) g).map Reg.s
  | _ => []

/-- A vector register's lanes; an unwritten or freed one reads 0 (R46, R112). -/
def Weft.vget (w : Weft) (n : Nat) : Lanes :=
  match w.vregs.get? n with
  | some (.live x) => x
  | _ => lanesZero

def Weft.sget (w : Weft) (n : Nat) : Word :=
  match w.sregs.get? n with
  | some (.live x) => x
  | _ => 0

def Weft.isFreed (w : Weft) : Reg → Bool
  | .v n => w.vregs.get? n == some .freed
  | .s n => w.sregs.get? n == some .freed

def VCell.isLive : VCell → Bool
  | .live _ => true
  | .freed => false

def SCell.isLive : SCell → Bool
  | .live _ => true
  | .freed => false

/-- The register holds a physical register. -/
def Weft.allocated (w : Weft) : Reg → Bool
  | .v n => ((w.vregs.get? n).map VCell.isLive).getD false
  | .s n => ((w.sregs.get? n).map SCell.isLive).getD false

/-- Registers allocated now (valloc and salloc, R113). -/
def Weft.valloc (w : Weft) : Nat := (w.vregs.filter fun p => p.2.isLive).length
def Weft.salloc (w : Weft) : Nat := (w.sregs.filter fun p => p.2.isLive).length

def Weft.poisoned (w : Weft) : Reg → Option Poison
  | .v n => w.vpoison.get? n
  | .s n => w.spoison.get? n

/-- The map once a logical register has a physical one: the lowest that the weft's share has free (R99, R109,
log 2). -/
def physOf (m : Tab Nat) (n : Nat) : Tab Nat :=
  if (m.get? n).isSome then m
  else m.put n (((List.range (m.length + 1)).find? fun i => !m.any fun p => p.2 == i).getD 0)

/-- Allocate a register at zero unless it is allocated (R109). -/
def Weft.alloc (w : Weft) : Reg → Weft
  | .v n => if w.allocated (.v n) then w else
      { w with vregs := w.vregs.put n (.live lanesZero), vmap := physOf w.vmap n }
  | .s n => if w.allocated (.s n) then w else
      { w with sregs := w.sregs.put n (.live 0), smap := physOf w.smap n }

/-- Lanes of a mask take new values; the others keep theirs (R73). -/
def mergeLanes (m : Mask) (new old : Lanes) : Lanes :=
  lanesFn fun l => if m.getLsbD l then laneAt new l else laneAt old l

/-- Write a vector register in the lanes of a mask: allocates on first write and clears a poison
mark (R73, R109, R122). -/
def Weft.vput (w : Weft) (n : Nat) (m : Mask) (x : Lanes) : Weft :=
  { w with
    vregs := w.vregs.put n (.live (mergeLanes m x (w.vget n))), vpoison := w.vpoison.del n
    vmap := physOf w.vmap n }

def Weft.sput (w : Weft) (n : Nat) (x : Word) : Weft :=
  { w with sregs := w.sregs.put n (.live x), spoison := w.spoison.del n, smap := physOf w.smap n }

/-- A last-use bit frees a register that has been written (R110). -/
def Weft.free (w : Weft) : Reg → Weft
  | .v n => if (w.vregs.get? n).isSome then
      { w with vregs := w.vregs.put n .freed, vpoison := w.vpoison.del n, vmap := w.vmap.del n } else w
  | .s n => if (w.sregs.get? n).isSome then
      { w with sregs := w.sregs.put n .freed, spoison := w.spoison.del n, smap := w.smap.del n } else w

def Weft.markPoison (w : Weft) (p : Poison) : Reg → Weft
  | .v n => { w with vpoison := w.vpoison.put n p }
  | .s n => { w with spoison := w.spoison.put n p }

/-- Predicates: one mask each, absent false. -/
def Weft.pred (w : Weft) (p : Nat) : Mask := w.preds.getD p 0

/-- Set a predicate in the lanes of a mask. -/
def Weft.pput (w : Weft) (p : Nat) (m v : Mask) : Weft :=
  { w with preds := w.preds.store p ((w.pred p &&& ~~~m) ||| (v &&& m)) 0 }

/-! ## Completion flags (R103) -/

def Weft.flag (w : Weft) (f : Nat) : Nat := w.flags.getD f 0
def Weft.flagInc (w : Weft) (f : Nat) : Weft := { w with flags := w.flags.store f (w.flag f + 1) 0 }
def Weft.flagDec (w : Weft) (f : Nat) : Weft := { w with flags := w.flags.store f (w.flag f - 1) 0 }

/-- A flight that an earlier word of the clause has begun, for an entry that stands in mid-clause: its count
never blocks the clause (R104). -/
def Flight.own (f : Flight) (e : Entry) : Bool :=
  decide (e.hdr.toNat + 8 ≤ f.pc.toNat) && decide (f.pc.toNat < e.pc.toNat) && (f.lanes &&& e.mask) != 0

/-- Counts of a flag that the clause's own instructions have raised. -/
def Weft.ownCount (w : Weft) (e : Entry) (i : Nat) : Nat :=
  (w.flights.filter fun f => f.flag == i && f.own e).length

/-- Every flag the wait field selects is zero but for the clause's own counts (R104). -/
def Weft.waitMet (w : Weft) (e : Entry) (h0 : Word) : Bool :=
  (List.range 12).all fun i => !h0.toNat.testBit (3 + i) || decide (w.flag i ≤ w.ownCount e i)

/-- Registers of instructions in flight (R105). -/
def Weft.pendingRegs (w : Weft) : List Reg :=
  w.flights.flatMap fun f => (f.vwr.map fun x => Reg.v x.1) ++ f.swr.map fun x => Reg.s x.1

/-! ## Traps (R114 to R121) -/

/-- A precise trap's row of R116 with every active lane of the entry. -/
def mkTrap (cause : Nat) (lanes : Mask) (info : Word) : Trap := ⟨cause, lanes, 0, info, 0⟩

/-- The handler's address of a weft's launch; the control core restarts its code at its entry. -/
def State.trapvec (s : State) (sw : Swatch) : Word :=
  match sw.control with
  | some c => (s.cluster c).fwEntry
  | none => ((s.launches.get? sw.launch).map fun l => l.trapvec).getD 0

/-- The first header and frontier of a handler (R114, step 5). -/
def handlerEntry (vec : Word) (m : Mask) : Entry := ⟨vec, vec, 127, m, false⟩

/-- The count that a BAR keeps while no entry of the frontier waits at it: it falls when the phase ends
(R103, R120, R138). -/
def Wait.held (x : Wait) (pc : Word) (m : Mask) : List Flight :=
  match x.form with
  | .bar sc n p => [⟨x.flag, pc, [], [], none, 0, .barHeld sc n p, m, 0⟩]
  | _ => []

/-- The weft waits at its BAR again: the wait takes over the count, or raises it again where the phase has
ended, until the BAR's next test. -/
def Weft.resumeBar (w : Weft) (x : Wait) : Weft :=
  let mine := fun (f : Flight) => (x.held 0 0).any fun g => g.kind == f.kind
  let w := if w.flights.any mine then { w with flights := w.flights.filter fun f => !mine f }
    else w.flagInc x.flag
  { w with wait := some { x with woken := true } }

/-- Enter the handler: the frontier is snapshotted with the trapping entry at tpc, windows and fstat
are saved, the reuse latch is discarded, both windows become zero (R114). A waiting instruction gives
back its flag count (R374); the loupe withdraws and the safelight resets (R237, R124). -/
def Weft.enterTrap (w : Weft) (vec : Word) (t : Trap) (async : Bool) (tpc : Word) (bar : Bool) : Weft :=
  let m := (w.frontier.head?.map fun e => e.mask).getD 0
  let snap := match w.frontier with
    | e :: es => { e with pc := tpc, barWait := bar } :: es
    | [] => []
  let w := match w.wait with
    | some x => if bar then { w with flights := w.flights ++ x.held tpc m } else w.flagDec x.flag
    | none => w
  { w with
    trapMode := true
    trec := { w.trec with
      tcause := w32 (t.cause + if async then 256 else 0), tpc := tpc, tlanes := t.lanes
      tdone := t.done, taddr := t.addr, tinfo := t.info, twinV := w.vwin, twinS := w.swin
      tfst := w.fstat, snap := snap }
    vwin := 0, swin := 0, latch := [], clause := none, wait := none, away := [], replay := w.replay.del tpc.toNat
    loupe := Loupe.idle, safelight := 0, hangPosted := false, leaving := none, passed := false
    barSaved := if bar then w.wait else none
    frontier := [handlerEntry vec (frontierMask w.frontier)] }

/-- The double trap (R121): the weft halts with its first record kept and the host gets a context
fault; the control core restarts from its firmware entry instead (R262). -/
def State.doubleTrap (s : State) (sid wid : Nat) (sw : Swatch) (w : Weft) (t : Trap) : State :=
  let r := s.record 0x22 0x1C sw.ctx (w32 sw.swi) (w32 wid) (w.trec.tcause &&& 0xFF) w.trec.tpc
    (w32 t.cause)
  let s := match sw.control with
    | some c =>
      let e := (s.cluster c).fwEntry
      s.modWeft sid wid fun w => { w with
        trapMode := false, clause := none, wait := none, vwin := 0, swin := 0, latch := [], replay := []
        frontier := [⟨e, e, s.prioAt c sw.ctx e, 1, false⟩] }
    | none =>
      s.modWeft sid wid fun w =>
        let w := match w.wait with
          | some x => w.flagDec x.flag
          | none => w
        { w with halted := some (.double t.cause), wait := none }
  s.post r

/-- TAKING A PRECISE TRAP, the one operation every meaning uses (R114): entry to the handler, or the
double trap in trap mode (R121). -/
def State.takeTrap (s : State) (sid wid : Nat) (t : Trap) (tpc : Word) : State :=
  match s.swatch? sid, s.weft? sid wid with
  | some sw, some w =>
    if w.trapMode then s.doubleTrap sid wid sw w t
    else s.modWeft sid wid fun w => w.enterTrap (s.trapvec sw) t false tpc false
  | _, _ => s

/-- Group the live unparked lanes of a snapshot by pc: what ERET makes of it (R119). -/
def State.rebuildFrontier (s : State) (clu : Nat) (ctx : Word) (w : Weft) : List Entry :=
  sortFrontier (w.trec.snap.foldl
    (fun fr e => joinAt fr { e with
      mask := e.mask &&& w.live, prio := s.prioAt clu ctx e.hdr }) [])

/-- Whether some entry keeps the barrier-wait bit (R138). -/
def anyBarWait (fr : List Entry) : Bool := fr.any fun e => e.barWait

/-- THE RETURN FROM A TRAP (R119): the frontier is rebuilt from the snapshot as edited, windows and
fstat come from the record, the latch is empty, and lanes of tdone will skip the word at tpc. A weft
with no live lane ends. -/
def State.eret (s : State) (clu : Nat) (ctx : Word) (w : Weft) : Weft :=
  let fr := s.rebuildFrontier clu ctx w
  let replay := if w.trec.tdone = 0 then w.replay else w.replay.put w.trec.tpc.toNat w.trec.tdone
  let w := match w.barSaved with
    | some x => if anyBarWait fr then w.resumeBar x else w
    | none => w
  { w with
    barSaved := none
    trapMode := false, vwin := w.trec.twinV, swin := w.trec.twinS, fstat := w.trec.tfst, latch := []
    frontier := fr, clause := none, replay := replay, ended := fr.isEmpty }

/-! ## A weft at its start -/

/-- A weft that has not run (R46, R113, R159): live lanes at the entry, no register written, predicates
false, windows and fstat zero. -/
def Weft.init (role : Role) (entry : Word) (prio : Nat) (lanes : Mask) (hang frt : Bool)
    (vbud sbud turn : Nat) (task : Option (List DWord)) : Weft :=
  { role := role, task := task, place := .absent, started := false, ended := false, halted := none
    leaving := none, frontier := [⟨entry, entry, prio, lanes, false⟩], parked := []
    exited := ~~~lanes, clause := none, vregs := [], sregs := [], vmap := [], smap := [], preds := [], flags := [], vwin := 0
    swin := 0, fstat := 0, hangen := hang, ctlfrt := frt, hng := false, frd := false, vbud := vbud
    sbud := sbud, vpoison := [], spoison := [], latch := [], trapMode := false
    trec := TrapRec.empty, replay := [], pend := Pending.none, late := none, wait := none
    barSaved := none, flights := [], watch := [], away := [], slip := 0, dstall := 0, rot := 0, safelight := 0
    hangPosted := false, topMask := 0, loupe := Loupe.idle, readySince := turn, candSince := turn
    runSince := turn, resSince := turn, absentSince := turn, spilled := false, fresh := false
    passed := false }

/-- A swatch of a launch at indices 0, with no resource and no weft. -/
def Swatch.plain (ctx : Word) (launch : Nat) : Swatch :=
  { ctx := ctx, launch := launch, control := none, place := .waiting, swi := 0, boi := 0, bai := 0
    linear := 0, cluster := 0, spline := 0, spsize := 0, accMap := [], negMap := [], cap := 0, nwf := 1
    barriers := 0, queues := 0, heavy := 0, deferTo := none, firstPlaced := false
    jobs := 0, jobLog := [], descFaults := [], sched := [], schedPos := 0, schedPass := 0, spad := []
    spadBad := [], full := [], descs := [], bars := [], parts := [], hwq := [], tags := [], shapes := []
    tiles := [], negs := [], savedJobs := [], wefts := [] }

/-- A launch of one swatch with a general role of one weft. -/
def Launch.plain (ctx : Word) (vregs sregs : Nat) : Launch :=
  { ctx := ctx, part := 0, num := 0, lrec := 0, origin := none, node := none, coreset := [0], roles := 1
    roleRec := [(0, (0, vregs, sregs, 1))], swatches := 1, bolts := 1, bales := 1
    hang := false, frt := false, stagger := 0, trapvec := 0, args := 0, dline := none, roll := none, sched := none, startedOn := [0], left := 1
    pool := [], liveTasks := 0, bars := [], parts := [], done := false }

/-! ## Issue -/

/-- What a meaning does once every check has passed. -/
inductive Eff
  /-- the instruction has completed: results written, a count held by its wait given back -/
  | done (s : State)
  /-- a long-latency instruction has begun -/
  | fly (s : State) (f : Flight)
  /-- the clause ends: lanes move to the targets given -/
  | leave (s : State) (moves : List (Word × Mask))
  /-- the weft's whole next state stands in s -/
  | past (s : State)
  /-- a precise trap -/
  | trap (s : State) (t : Trap)
  /-- the instruction waits in a form of R8, with the lanes it has already performed -/
  | wait (s : State) (f : WaitForm) (done : Mask)
  /-- a dependence stall: nothing issues -/
  | stall (s : State)
  /-- nothing has been performed yet: the weft holds the word while writes are on their way or another package
  answers, and the state before the issue changes so meanwhile -/
  | hold (s : State) (f : State → State)

/-- The instruction goes on behind a release of its core's writes, which at a far scope other packages acknowledge
first (R249, R252). -/
def Site.withRelease (k : Site) (s : State) (wide far : Bool) (go : State → Eff) : Eff :=
  if far && !(s.release k.core wide).pkg.acked then .hold s fun s => s.release k.core wide
  else go (s.release k.core wide)

/-- A flight with nothing to write. -/
def Site.flight (k : Site) : Flight := ⟨0, k.e.pc, [], [], none, 0, .plain, k.e.mask, 0⟩

/-- Charge one issue to the weft's context (R284, R289 to R291, R304): its account entry in the
cluster if bound, else the unattributed count; the open deadline step counts the issue. -/
def Account.charge (a : Account) (q : Nat) : Account :=
  if a.count + q < 2 ^ 48 then { a with count := a.count + q, read := false }
  else { a with count := 2 ^ 48 - 1, sat := true, read := false }

def Cluster.charge (c : Cluster) (ctx : Word) (q : Nat) : Cluster :=
  if c.accounts.any fun a => a.ctx == ctx then
    { c with accounts := c.accounts.map fun a => if a.ctx = ctx then a.charge q else a }
  else { c with unattr := (c.unattr + q) % 2 ^ 64 }

/-- Reset weights of the sixteen classes (R290). -/
def resetWeights : List Nat := [6, 12, 18, 72, 30, 16, 900, 120, 60, 55, 70, 20, 40, 10, 200, 1800]

/-- A class weight: as last written, else as loaded at reset (R290, R295). -/
def Cluster.weight (c : Cluster) (cls : Nat) : Nat := c.weights.getD cls (resetWeights.getD cls 0)

/-- The open deadline step of a context counts an issue; so does the governor's window (R284, R285). -/
def Cluster.countIssue (c : Cluster) (ctx : Word) (tim : Nat) : Cluster :=
  { c with deadlines := c.deadlines.modify ctx.toNat fun d => { d with
      issues := if d.opened then (d.issues + 1) % 2 ^ 64 else d.issues
      log := match d.log with
        | x :: xs => if x.stop = tim then { x with issues := x.issues + 1 } :: xs else ⟨tim, tim, 1, 0⟩ :: x :: xs
        | [] => [⟨tim, tim, 1, 0⟩] } }

/-- The ballast injector sees an issue's weight (R281). -/
def Cluster.noteLoad (c : Cluster) (ctx : Word) (q : Nat) : Cluster :=
  { c with ballast := { c.ballast with
      cur := c.ballast.cur.put ctx.toNat (c.ballast.cur.getD ctx.toNat 0 + q) } }

def State.chargeIssue (s : State) (k : Site) (op : Nat) (f64 dual : Bool) : State :=
  s.modCluster k.clu fun c =>
    let q := c.weight (energyClass op f64 dual)
    let c := (c.countIssue k.sw.ctx s.tim).noteLoad k.sw.ctx q
    match k.sw.control with
    | some _ => { c with unattr := (c.unattr + q) % 2 ^ 64 }
    | none => c.charge k.sw.ctx q

end Machine

/-- Source targ differs from lane to lane in a task weft (R23). -/
def Src.isTarg : Src → Bool
  | .sp .targ => true
  | _ => false

/-- Operands that must be scalar read targ, which a task weft reads per lane (R23, R28). -/
def Instr.targIllegal (i : Instr) : Bool :=
  let u := i.use
  let reads := (u.a.map fun x => x.1.isTarg).getD false || (u.b.map fun x => x.1.isTarg).getD false ||
    (u.d.map fun x => x.1.isTarg).getD false
  let scalarDst := match u.w with
    | some (.s _, _) => true
    | _ => false
  let free := match i with
    | .redw _ _ _ => true | .lget _ _ b _ => !b.isTarg | .csrr _ _ => true
    | _ => false
  let mustScalar := i.checks.any fun c => c.1 == .mustBeScalar
  reads && ((scalarDst && !free) || mustScalar && !free)

namespace Machine

/-- The number of barriers a scope has (R196). -/
def Swatch.barLimit (sw : Swatch) : BarScope → Nat
  | .sw => sw.barriers
  | _ => 32

/-- Registers an instruction reads: sources a and b, and field d where it is read. -/
def Weft.reads (w : Weft) (u : Use) : List Reg :=
  (match u.a with | some (a, g) => w.regsOf a g | none => []) ++
    (match u.b with | some (a, g) => w.regsOf a g | none => []) ++
    (match u.d with | some (a, g) => w.regsOf a g | none => [])

def Weft.writes (w : Weft) (u : Use) : List Reg :=
  match u.w with
  | some (.v n, g) => w.regsOf (.v n) g
  | some (.s n, g) => w.regsOf (.s n) g
  | none => []

/-- The argument pointer a lane reads through targ: its own task's in a task weft (R23). -/
def Site.targAt (k : Site) (l : Nat) : DWord :=
  match k.w.task with
  | some t => t.getD l 0
  | none => k.targ

/-- Word j of a special source in a lane (R23, R27). None gives the roll index that R3 speaks of, since R23 assigns it
no code (log 109). -/
def Site.special (k : Site) (x : Special) (j l : Nat) : Word :=
  match x, j with
  | .targ, 1 => hiWord (k.targAt l)
  | .lrec, 1 => hiWord k.lrec
  | .targ, 0 => loWord (k.targAt l)
  | .lrec, 0 => loWord k.lrec
  | .lid, 0 => w32 l
  | .wid, 0 => if k.w.task.isSome then 0xFFFFFFFF else w32 k.wid
  | .nwf, 0 => w32 k.sw.nwf
  | .swi, 0 => w32 k.sw.swi
  | .boi, 0 => w32 k.sw.boi
  | .bai, 0 => w32 k.sw.bai
  | .amask, 0 => k.e.mask
  | .clk, 0 => k.clk
  | .tim, 0 => k.tim
  | .ctx, 0 => k.sw.ctx
  | .stp, 0 => k.stp
  | _, _ => 0

/-- Register j of a source group in a lane; a literal in a 64-bit position is sign-extended (R26). -/
def Site.word (k : Site) (a : Src) (j l : Nat) : Word :=
  match a with
  | .v n => laneAt (k.w.vget (16 * k.w.vwin + n.val + j)) l
  | .s n => k.w.sget (16 * k.w.swin + n.val + j)
  | .sp x => k.special x j l
  | .lit w => if j = 0 then w else if w.msb then 0xFFFFFFFF else 0

/-- A scalar operand read once for the weft (R218, R296): lane 0 stands for every lane. -/
def Site.scalar (k : Site) (a : Src) : Word := k.word a 0 0

/-- A source of the instruction is pending (R105). -/
def Site.pendingSrc (k : Site) (i : Instr) : Bool :=
  let p := k.w.pendingRegs
  (k.w.reads i.use).any fun r => p.contains r

/-- Illegal-instruction conditions that the weft's state decides: targ where a scalar must stand (R23), an
opcode beyond the control core's (R262), a barrier number out of range (R197), a CSR number that may
not be accessed so (R32), a snapshot index out of range (R137), read once its register is not pending (R105;
outside trap mode FRENT is privileged and its index is not read). -/
def Site.stateIllegal (k : Site) (i : Instr) : Bool :=
  (k.w.task.isSome && i.targIllegal) || (k.sw.control.isSome && !controlPermits i.op) ||
    (match i.barOf with
      | some (sc, n) => decide (k.sw.barLimit sc ≤ n)
      | none => false) ||
    (match i.csrOf with
      | some (n, wr) => !csrKnown n || (wr && csrReadOnly k.w.trapMode n)
      | none => false) ||
    match i with
    | .frent _ a => k.w.trapMode && !k.pendingSrc i && decide (k.w.trec.snap.length ≤ (k.scalar a).toNat)
    | _ => false

/-- Privileged conditions of R31 and R32. -/
def Site.privilegeFault (k : Site) (i : Instr) : Bool :=
  (i.privileged && !k.sys) || (i.trapOnly && !k.w.trapMode) ||
    match i.csrOf with
    | some (n, _) => csrPrivileged n && !k.sys
    | none => false

/-- The role check (R161); the BAR family in a task weft (R363). -/
def Site.roleFault (k : Site) (i : Instr) : Bool :=
  (!k.w.trapMode && k.sw.control.isNone && !rolePermits k.w.role i.op) ||
    (k.w.task.isSome && i.barOf.isSome)

/-- The instruction is long-latency and the slot it selects has no flag (R21). -/
def Site.badSlot (k : Site) (slot : Option Bool) : Bool :=
  match slot with
  | some b => (slotFlag k.cl.h0 b).isNone
  | none => false

/-- The static conditions of R35, in its order: zero word, set slot (R21), illegal, privileged, role. -/
def Site.staticTrap (k : Site) (i : Instr) : Option Trap :=
  let word := w32 i.wordNat
  match i with
  | .illegalInstruction w =>
    if w ≠ 0 ∧ k.badSlot (wordSlot w.toNat) then some (mkTrap 0x1A k.act k.cl.h0)
    else some (mkTrap (if w = 0 then 0x02 else 0x01) k.act w)
  | _ =>
    if k.badSlot i.use.slot then some (mkTrap 0x1A k.act k.cl.h0)
    else if !i.wellFormed || k.stateIllegal i then some (mkTrap 0x01 k.act word)
    else if k.privilegeFault i then some (mkTrap 0x03 k.act word)
    else if k.roleFault i then some (mkTrap 0x07 k.act word)
    else none

/-- The negative slot that an exposure in flight reads (R214). -/
def FlightKind.exposes : FlightKind → Option Nat
  | .exposure n => some n
  | _ => none

/-- An instruction of the enlarger that has not completed. -/
def FlightKind.isEnlarger : FlightKind → Bool
  | .enlarger => true
  | .exposure _ => true
  | .spadWrite _ _ => true
  | _ => false

/-- A release waits for the weft's enlarger instructions (R216); an enlarger instruction that reads
scratchpad waits for the weft's HAD and ACCRD that write it (R215). -/
def Site.enlargerHeld (k : Site) (i : Instr) : Bool :=
  (i.releases && k.w.wait.isNone && k.w.flights.any fun f => f.kind.isEnlarger) ||
    (i.enlargerReads && k.w.flights.any fun f => match f.kind with
      | .spadWrite _ _ => true
      | _ => false)

/-- A register dependence on an instruction in flight holds the word (R105), or its flag stands at
63 (R103), or the enlarger holds it, or another package has not answered it (R395). -/
def Site.interlocked (k : Site) (i : Instr) : Bool :=
  let p := k.w.pendingRegs
  let full := match i.use.slot with
    | some b =>
      match slotFlag k.cl.h0 b with
      | some f => k.w.wait.isNone && decide (63 ≤ k.w.flag f)
      | none => false
    | none => false
  full || k.enlargerHeld i || (k.w.away.any fun a => a.answer.isNone) || ((k.w.reads i.use ++ k.w.writes i.use).any fun r => p.contains r)

/-- tinfo of the freed-read and budget traps: [16] scalar, [15:8] index (R116). -/
def Reg.info : Reg → Word
  | .v n => w32 (256 * n)
  | .s n => w32 (65536 + 256 * n)

/-- The first of the registers to be allocated that would pass the weft's budget (R109). A group is of
one kind. -/
def Weft.overBudget (w : Weft) (fresh : List Reg) : Option Reg :=
  match fresh with
  | [] => none
  | .v n :: rs => (.v n :: rs)[w.vbud - w.valloc]?
  | .s n :: rs => (.s n :: rs)[w.sbud - w.salloc]?

/-- LSET of an inactive lane writes no register (R146), so it allocates none. -/
def Site.writesNone (k : Site) (i : Instr) : Bool :=
  match i with
  | .lset _ _ b _ => !k.act.getLsbD ((k.scalar b).toNat % 32)
  | _ => false

/-- Registers that the instruction allocates if they are not allocated: its destinations, unless no lane is
active (R109). -/
def Site.allocates (k : Site) (i : Instr) : List Reg :=
  if k.act = 0 || k.writesNone i then [] else k.w.writes i.use

/-- The register traps in the order freed read, uncorrectable load, register budget (R112, R122,
R109). PREF and CCTL raise none of them (R153, R274). -/
def Site.registerTrap (k : Site) (i : Instr) : Option Trap :=
  let rs := if i.op = 0x5C || i.op = 0x5D then [] else k.w.reads i.use
  match if k.w.ctlfrt then rs.find? fun r => k.w.isFreed r else none with
  | some r => some (mkTrap 0x05 k.act r.info)
  | none =>
    match rs.findSome? fun r => k.w.poisoned r with
    | some p => some ⟨0x15, k.act &&& p.lanes, p.addr, p.pc, 0⟩
    | none =>
      match k.w.overBudget ((k.allocates i).filter fun r => !k.w.allocated r) with
      | some r => some (mkTrap 0x06 k.act r.info)
      | none => none

/-- A clause's last word that falls through to a target R22 refuses traps before it acts (R116, R126). -/
def Site.fallTrap (k : Site) (s : State) (i : Instr) : Option Trap :=
  let last := k.pos + 1 + i.lits.length
  let t := nextOffset k.e.hdr k.cl.h0
  if !i.endsClause && clauseLen k.cl.h0 ≤ last && badOffset (s.codeSize k.sw.ctx) t then
    some ⟨0x04, k.e.mask, BitVec.ofInt 64 t, w32 i.wordNat, 0⟩
  else none

/-- Last-use bits of the word at a position (R18, R110): sources a and b. -/
def lastUse (h1 : Word) (j : Nat) : Bool × Bool :=
  (h1.toNat.testBit (2 * j), h1.toNat.testBit (2 * j + 1))

/-- Sources freed when the instruction retires (R110): never its own destination; a vector register
only when the entry's mask is the live set of R12. -/
def Site.frees (k : Site) (w : Weft) (i : Instr) : List Reg :=
  let b := lastUse k.cl.h1 k.pos
  let u := i.use
  let rs := (if b.1 then (match u.a with | some (a, g) => w.regsOf a g | none => []) else []) ++
    (if b.2 then (match u.b with | some (a, g) => w.regsOf a g | none => []) else [])
  let ws := w.writes u
  rs.filter fun r => !ws.contains r &&
    (match r with | .v _ => k.e.mask == w.live | .s _ => true)

/-- Codes the word's reuse bits latch (R111). -/
def Site.latches (k : Site) (i : Instr) : List Nat :=
  let j := k.pos
  let h := k.cl.h1.toNat
  (if h.testBit (16 + 2 * j) then [fld i.wordNat 11 7] else []) ++
    (if h.testBit (17 + 2 * j) then [fld i.wordNat 4 7] else [])

/-- What the loupe permits inside a counted iteration: opcodes 0x01 to 0x47 but CSRW and TRAP, PREF,
and loads (R237). -/
def loupePermits (i : Instr) : Bool :=
  let op := i.op
  (1 ≤ op && op ≤ 0x47 && op != 0x0E && op != 0x0B) || op == 0x5C || op == 0x50 || op == 0x51 ||
    op == 0x54 ||
    match i with
    | .lds _ _ _ m _ => m == .none || m == .one
    | .feget _ _ _ => true
    | _ => false

/-- The iteration fails: the count is reset and the classification withdrawn (R237). -/
def Loupe.fail (l : Loupe) : Loupe :=
  { l with ok := false, count := 0, polling := false, watch := [], fired := false }

/-- An instruction that breaks the iteration makes it fail. -/
def Loupe.note (l : Loupe) (i : Instr) : Loupe := if l.tracking && !loupePermits i then l.fail else l

/-- The sectors that some loads have touched. -/
def loadedSectors (xs : List LoupeLoad) : List (Bool × Nat) := dedup (xs.flatMap fun x => x.sectors)

/-- A backward branch taken by the top entry ends an iteration of the same branch and target, or tracking starts
afresh (R237). The first iteration only sets the reference; what makes an iteration fail otherwise is seen when it
happens, so here only the number of loads is left to test. -/
def Loupe.taken (l : Loupe) (branch target : Word) : Loupe :=
  if branch.toNat < target.toNat then l
  else if l.tracking && l.branch == branch && l.target == target then
    let n := l.loads.length
    let counts := l.ok && decide (1 ≤ n) && (l.lastLoads.map fun p => p.length) == some n
    let polls := l.polling && counts
    { l with
      ok := true, clauses := 0, loads := [], lastLoads := some l.loads, count := if counts then l.count + 1 else 0
      polling := polls, watch := if polls then loadedSectors l.loads else [], fired := l.fired && polls }
  else { Loupe.idle with tracking := true, branch := branch, target := target }

/-- A load of the tracked entry: it repeats that of the iteration before, and the limits of R237 hold. -/
def Loupe.load (l : Loupe) (x : LoupeLoad) : Loupe :=
  if !l.tracking then l
  else
    let m := { l with loads := l.loads ++ [x], stale := l.stale.filter fun y => !x.sectors.contains y }
    let same := match l.lastLoads with
      | some p => (p[l.loads.length]?).any fun y => y.pc == x.pc && y.values == x.values
      | none => true
    if same && decide (m.loads.length ≤ 16) && decide ((loadedSectors m.loads).length ≤ 4) then m else m.fail

/-- A clause of the tracked entry: an iteration issues at most 64 (R237). -/
def Loupe.clause (l : Loupe) : Loupe :=
  let m := { l with clauses := l.clauses + 1 }
  if l.tracking && decide (64 < m.clauses) then m.fail else m

/-- The weft as its word retires: last-use frees and the reuse latch (R110, R111), the loupe's note, and
a replay that is over. -/
def Site.retireWeft (k : Site) (i : Instr) (w : Weft) : Weft :=
  let w := (k.frees w i).foldl Weft.free w
  { w with
    latch := k.latches i, wait := none, away := [], loupe := w.loupe.note i
    replay := if w.trapMode then w.replay else w.replay.del k.e.pc.toNat
    trec := if w.trapMode || (w.replay.get? k.e.pc.toNat).isNone || w.trec.tpc ≠ k.e.pc then w.trec
      else { w.trec with tdone := 0 } }

/-- The weft at its clause's end, and at the next word of its clause. -/
def Weft.endClause (w : Weft) (fr : List Entry) : Weft := { w with frontier := fr, clause := none, latch := [] }

def Weft.nextWord (w : Weft) (pc : Word) : Weft :=
  { w with frontier := match w.frontier with
      | e :: es => { e with pc := pc } :: es
      | [] => [] }

/-- Retire the word at the entry's pc: the next pc, and at the clause's end the regrouping of R102. -/
def State.retire (s : State) (k : Site) (i : Instr) : State :=
  let s := s.modWeft k.sid k.wid (k.retireWeft i)
  if clauseLen k.cl.h0 ≤ k.pos + 1 + i.lits.length then
    match s.weft? k.sid k.wid with
    | none => s
    | some w => s.modWeft k.sid k.wid fun x =>
        x.endClause (s.regroup k [(nextHeader k.e.hdr k.cl.h0, k.e.mask)] w.frontier.tail)
  else s.modWeft k.sid k.wid fun w => w.nextWord (k.e.pc + w32 (4 * (1 + i.lits.length)))

/-- The clause ends with lanes moving to targets (R102); lanes in no group have left the weft. -/
def State.leaveClause (s : State) (k : Site) (i : Instr) (moves : List (Word × Mask)) : State :=
  let s := s.modWeft k.sid k.wid (k.retireWeft i)
  match s.weft? k.sid k.wid with
  | none => s
  | some w =>
    let fr := s.regroup k (moves.filter fun m => m.2 != 0) w.frontier.tail
    s.modWeft k.sid k.wid fun w => w.endClause fr

/-- A wait that is over gives its count back. -/
def Weft.endWait (w : Weft) : Weft :=
  match w.wait with
  | some x => { w.flagDec x.flag with wait := none }
  | none => w

/-- A dependence stall: nothing has issued, so the weft is not ready and its quadrant's most recent weft is the
one before (R162). -/
def State.stalled (s : State) (k : Site) : State :=
  match k.core with
  | some c => s.modCore c fun x => { x with recent := x.before }
  | none => s

/-- The translation generation of a context (R316). -/
def State.ctxGen (s : State) (ctx : Word) : Nat := ((s.ctx? ctx).map fun c => c.gen).getD 0

/-- Finish an issue: complete, begin a flight, move, trap, wait or stall. -/
def State.finish (k : Site) (i : Instr) : Eff → State
  | .done s => (s.modWeft k.sid k.wid Weft.endWait).retire k i
  | .leave s moves => s.leaveClause k i moves
  | .past s => s
  | .trap s t => s.takeTrap k.sid k.wid { t with done := t.done ||| (k.e.mask &&& ~~~k.act) } k.e.pc
  | .stall s => s.stalled k
  | .hold s f => (f s).stalled k
  | .fly s f =>
    match i.use.slot.bind fun b => slotFlag k.cl.h0 b with
    | none => s.retire k i
    | some fl =>
      let s := s.modWeft k.sid k.wid fun w =>
        let w := if w.wait.isSome then w else w.flagInc fl
        let w := (f.vwr.map fun x => Reg.v x.1).foldl Weft.alloc w
        let w := (f.swr.map fun x => Reg.s x.1).foldl Weft.alloc w
        { w with flights := w.flights ++ [{ f with flag := fl, gen := s.ctxGen k.sw.ctx }] }
      s.retire k i
  | .wait s form done =>
    match i.use.slot.bind fun b => slotFlag k.cl.h0 b with
    | none => s
    | some fl => s.modWeft k.sid k.wid fun w =>
        let old := (w.wait.map fun x => x.done).getD 0
        let item := (w.wait.map fun x => x.item).getD none
        let w := if w.wait.isSome then w else (k.allocates i).foldl Weft.alloc (w.flagInc fl)
        let again := (w.wait.map fun x => !x.woken).getD false
        { w with
          candSince := if again then w.candSince else s.turn
          wait := some ⟨i, { k.cl with tested := true }, form, fl, false, item, old ||| done⟩ }

/-- The weft has read a freed register that does not trap: frd is sticky (R112). -/
def State.noteFreed (s : State) (k : Site) (i : Instr) : State :=
  if (k.w.reads i.use).any fun r => k.w.isFreed r then
    s.modWeft k.sid k.wid fun w => { w with frd := true }
  else s

/-- The clause's wait test is made, and its entry stands at its word (R101, R104). -/
def Weft.beginWord (w : Weft) (cl : Clause) : Weft :=
  { w with
    clause := some { cl with tested := true }
    frontier := match w.frontier with
      | e :: es => e.atWord :: es
      | [] => [] }

/-- ISSUE of an instruction by the weft of the step: the wait test (R104), the traps of R35 in order,
the interlocks (R105), the charge (R289), the register traps, and then its meaning. An instruction
that waits is charged once. A bad fall-through (0x04), which R35 does not rank, comes after the register traps and before
the entry's own (the model's choice, log 111). -/
def State.issue (s : State) (i : Instr) (body : Site → State → Eff) :
    Host.Outcome State Fault Refusal :=
  match s.site? with
  | none => .fault .noIssuer
  | some k =>
    if !k.cl.tested && !k.w.waitMet k.e k.cl.h0 then .next s
    else
      let s := if k.w.wait.isSome then s else s.modWeft k.sid k.wid fun w => w.beginWord k.cl
      let charged := if k.w.wait.isSome then s else s.chargeIssue k i.op i.isF64 i.isDual
      match k.staticTrap i with
      | some t => .next (State.finish k i (.trap charged t))
      | none =>
        if k.interlocked i then .next (State.finish k i (.stall s))
        else
          match (k.registerTrap i).or (k.fallTrap s i) with
          | some t => .next (State.finish k i (.trap charged t))
          | none =>
            match body k (charged.noteFreed k i) with
            | .stall _ => .next (State.finish k i (.stall s))
            | .hold _ f => .next (State.finish k i (.stall (f s)))
            | e => .next (State.finish k i e)

end Machine
end Sys2Proof
end

