-- ==== Sys2Proof/Machine/Operands.lean ====
section
/-!
DEFINITION. Every operand form an instruction reads (R23, R26, R27, R50, R55) and every way a result
is written (R28, R73, R109), for fixed-latency and long-latency instructions.
-/
namespace Sys2Proof.Machine

/-- What a meaning answers. -/
abbrev Out := Host.Outcome State Fault Refusal

/-- A 32-bit source in a lane. -/
def Site.val (k : Site) (a : Src) (l : Nat) : Word := k.word a 0 l

/-- A 64-bit integer source: a literal is sign-extended, or zero-extended under .u (R26). -/
def Site.dword (k : Site) (a : Src) (u : Bool) (l : Nat) : DWord :=
  match a with
  | .lit w => if u then w.setWidth 64 else w.signExtend 64
  | a => concat64 (k.word a 1 l) (k.word a 0 l)

/-- An FP64 source: a literal is FP32, converted exactly (R26). A signalling NaN among these becomes the canonical
quiet NaN and raises no nv (the model's choice, log 110). -/
def Site.f64 (k : Site) (a : Src) (l : Nat) : Nat :=
  match a with
  | .lit w => (fp32.convert fp64 .rn false w.toNat).1
  | a => (concat64 (k.word a 1 l) (k.word a 0 l)).toNat

/-- An address pair (R27, R148). -/
def Site.addr (k : Site) (a : Src) (l : Nat) : DWord := concat64 (k.word a 1 l) (k.word a 0 l)

/-- A scalar pair read once. -/
def Site.scalarPair (k : Site) (a : Src) : DWord := k.addr a 0

/-- A source of `W` bits as the number it stands for (R49, R75). -/
def Site.int (k : Site) (a : Src) (u w : Bool) (l : Nat) : Int :=
  if w then
    let x := k.dword a u l
    if u then (x.toNat : Int) else x.toInt
  else
    let x := k.val a l
    if u then (x.toNat : Int) else x.toInt

/-- A number as the registers of a group, low word first (R50). -/
def groupWords (g n : Nat) : List Word := (List.range g).map fun j => w32 (n / 2 ^ (32 * j))

/-- Lanes an instruction computes for: the active lanes, or one computation for the weft when its
destination is scalar (R28). -/
def Site.lanesFor (k : Site) (d : Dst) : List Nat :=
  match d with
  | .v _ => lanesOf k.act
  | .s _ => (lanesOf k.act).take 1

/-- The results of one group, lane by lane, into the destination (R28, R73, R109). -/
def Site.put (k : Site) (w : Weft) (d : Dst) (g : Nat) (rs : Tab (List Word)) : Weft :=
  match d with
  | .v n =>
    if rs.isEmpty then w
    else (List.range g).foldl
      (fun w j => w.vput (16 * k.w.vwin + n.val + j) k.act (lanesFn fun l => (rs.getD l []).getD j 0))
      w
  | .s n =>
    match rs with
    | [] => w
    | (_, x) :: _ =>
      (List.range g).foldl (fun w j => w.sput (16 * k.w.swin + n.val + j) (x.getD j 0)) w

/-- A fixed-latency result: one group per lane and the fstat bits of all lanes ORed (R48, R73). -/
def Site.alu (k : Site) (s : State) (d : Dst) (g : Nat) (f : Nat → List Word × FBits) : Eff :=
  let rs := (k.lanesFor d).map fun l => (l, f l)
  let bits := rs.foldl (fun b r => b ||| r.2.2) (0 : FBits)
  .done (s.modWeft k.sid k.wid fun w =>
    { k.put w d g (rs.map fun r => (r.1, r.2.1)) with fstat := w.fstat ||| bits })

/-- One register per lane, no fstat bit. -/
def Site.alu1 (k : Site) (s : State) (d : Dst) (f : Nat → Word) : Eff :=
  k.alu s d 1 fun l => ([f l], 0)

/-- A predicate in the active lanes, with fstat bits. -/
def Site.setPred (k : Site) (s : State) (p : PReg) (f : Nat → Bool × FBits) : Eff :=
  let rs := (lanesOf k.act).map fun l => (l, f l)
  let m := rs.foldl (fun m r => if r.2.1 then m ||| (1#32 <<< r.1) else m) 0
  let bits := rs.foldl (fun b r => b ||| r.2.2) (0 : FBits)
  .done (s.modWeft k.sid k.wid fun w =>
    { w.pput p.val k.act m with fstat := w.fstat ||| bits })

/-- A whole predicate mask in the active lanes. -/
def Site.setPredMask (k : Site) (s : State) (p : PReg) (m : Mask) : Eff :=
  .done (s.modWeft k.sid k.wid fun w => w.pput p.val k.act m)

/-- p6 of a .nb form: in every active lane, or in every lane for a scalar form (R30). -/
def State.served (s : State) (k : Site) (scalar ok : Bool) : State :=
  s.modWeft k.sid k.wid fun w =>
    w.pput 6 (if scalar then 0xFFFFFFFF else k.act) (if ok then 0xFFFFFFFF else 0)

/-- A flight that writes a group at completion (R103, R109). -/
def Site.fly (k : Site) (d : Dst) (g : Nat) (rs : Tab (List Word)) : Flight :=
  match d with
  | .v n =>
    if rs.isEmpty then k.flight
    else { k.flight with
      vwr := (List.range g).map fun j =>
        (16 * k.w.vwin + n.val + j, k.act, lanesFn fun l => (rs.getD l []).getD j 0) }
  | .s n =>
    match rs with
    | [] => k.flight
    | (_, x) :: _ => { k.flight with
      swr := (List.range g).map fun j => (16 * k.w.swin + n.val + j, x.getD j 0) }

/-- A flight that writes a scalar group once. -/
def Site.flyScalar (k : Site) (d : Dst) (ws : List Word) : Flight :=
  k.fly d ws.length (((lanesOf k.act).take 1).map fun l => (l, ws))

/-- The registers of a destination group. -/
def Site.dstRegs (k : Site) (d : Dst) (g : Nat) : List Reg :=
  match d with
  | .v n => (rangeFrom (16 * k.w.vwin + n.val) g).map Reg.v
  | .s n => (rangeFrom (16 * k.w.swin + n.val) g).map Reg.s

/-- The swatch as it stands when a meaning runs. -/
def State.swatchOf (s : State) (k : Site) : Swatch := (s.swatch? k.sid).getD k.sw

/-! ## Leaving a clause -/

/-- The offset a lane falls through to (R16, R102). -/
def Site.fallTo (k : Site) : Int := nextOffset k.e.hdr k.cl.h0

/-- Target of a J-format branch (R14), exact: the clause header plus 8·k. -/
def Site.target (k : Site) (n : BitVec 18) : Int := k.e.hdr.toNat + 8 * n.toInt

/-- An offset as the code words hold it. -/
def codeOffset (t : Int) : Word := BitVec.ofInt 32 t

/-- Lanes move to targets, unless one of the targets is bad: then the precise trap 0x04 in the lanes
that would take a bad target, and no lane moves (R22, R126). taddr holds the target as a signed number
(log 96). -/
def Site.moveLanes (k : Site) (s s' : State) (i : Instr) (moves : List (Int × Mask)) : Eff :=
  let size := s.codeSize k.sw.ctx
  let bad := moves.filter fun m => m.2 != 0 && badOffset size m.1
  let m := bad.foldl (fun x y => x ||| y.2) (0 : Mask)
  if m = 0 then .leave s' (moves.map fun x => (codeOffset x.1, x.2))
  else
    let low := lowestLane m
    let t := ((bad.find? fun x => x.2.getLsbD low).map fun x => x.1).getD 0
    .trap s ⟨0x04, m, BitVec.ofInt 64 t, w32 i.wordNat, 0⟩

/-- A branch to one target: tracked by the loupe when a lane takes it backward (R237). -/
def Site.branch (k : Site) (s : State) (i : Instr) (t : Int) (go : Mask) : Eff :=
  let s' := if go = 0 then s
    else s.modWeft k.sid k.wid fun w => { w with loupe := w.loupe.taken k.e.pc (codeOffset t) }
  k.moveLanes s s' i [(t, go), (k.fallTo, k.e.mask &&& ~~~go)]

end Sys2Proof.Machine
end

