-- ==== Sys2Proof/Machine/Barrier.lean ====
section
/-!
DEFINITION. Barriers: records, partial counts, arrivals, phase changes with their wake messages,
and what a weft's end does to them (R195 to R199, R227 to R229); the BAR family.
-/
namespace Sys2Proof

/-- The scope field of the BAR family (R196). -/
def BarScope.ix : BarScope → Nat
  | .sw => 0
  | .bo => 1
  | .ba => 2
  | .rl => 3

def BarScope.wide (sc : BarScope) : Bool := sc != .sw

/-- Other packages acknowledge what an arrival at this scope releases (R325). -/
def BarScope.far (sc : BarScope) : Bool := sc == .rl

namespace Machine

/-- Levels at which partial counts are kept on the way to a record (R227). -/
inductive Level
  | swatch | bolt | bale
  deriving DecidableEq, Repr

def levelsOf : BarScope → List Level
  | .sw => []
  | .bo => [.swatch]
  | .ba => [.swatch, .bolt]
  | .rl => [.swatch, .bolt, .bale]

/-- The phase's empty record at placement (R195, R324). -/
def BarRec.empty : BarRec := ⟨0, false, 0, 0, []⟩
def Partial.empty : Partial := ⟨[], 0, false, none⟩

/-- Bolts per bale of a swatch's launch. -/
def State.boltsOf (s : State) (sw : Swatch) : Nat :=
  ((s.launches.get? sw.launch).map fun l => l.bolts).getD 1

/-- The group a swatch belongs to at a scope, as a number within its launch; at swatch scope the
swatch itself. -/
def State.groupOf (s : State) (sid : Nat) (sw : Swatch) (sc : BarScope) : Nat :=
  match sc with
  | .sw => sid
  | .bo => sw.boi + s.boltsOf sw * sw.bai
  | .ba => sw.bai
  | .rl => 0

def barKey (sc : BarScope) (grp n : Nat) : Nat := (sc.ix * 2 ^ 40 + grp) * 32 + n

/-- The unit a swatch belongs to at a level, and its key among the launch's partial counts. -/
def partKey (lv : Level) (sc : BarScope) (unit n : Nat) : Nat :=
  (((match lv with | .swatch => 0 | .bolt => 1 | .bale => 2) * 4 + sc.ix) * 2 ^ 40 + unit) * 32 + n

def State.unitOf (s : State) (sw : Swatch) (lv : Level) : Nat :=
  match lv with
  | .swatch => sw.swi
  | .bolt => sw.boi + s.boltsOf sw * sw.bai
  | .bale => sw.bai

/-- The member number of a unit one level up. -/
def Swatch.memberAt (sw : Swatch) : Level → Nat
  | .swatch => sw.swi
  | .bolt => sw.boi
  | .bale => sw.bai

/-- The barrier record of a scope as the swatch meets it. -/
def State.barRec (s : State) (sid : Nat) (sw : Swatch) (sc : BarScope) (n : Nat) : BarRec :=
  match sc with
  | .sw => sw.bars.getD n BarRec.empty
  | _ =>
    match s.launches.get? sw.launch with
    | some l => l.bars.getD (barKey sc (s.groupOf sid sw sc) n) BarRec.empty
    | none => BarRec.empty

def State.setBar (s : State) (sid : Nat) (sw : Swatch) (sc : BarScope) (n : Nat) (r : BarRec) : State :=
  match sc with
  | .sw => s.modSwatch sid fun x => { x with bars := x.bars.put n r }
  | _ => s.modLaunch sw.launch fun l =>
      { l with bars := l.bars.put (barKey sc (s.groupOf sid sw sc) n) r }

/-- A partial count. -/
def State.part (s : State) (sid : Nat) (sw : Swatch) (lv : Level) (sc : BarScope) (n : Nat) : Partial :=
  match lv with
  | .swatch => ((s.swatch? sid).map fun x => x.parts.getD (32 * sc.ix + n) Partial.empty).getD
      Partial.empty
  | _ => ((s.launches.get? sw.launch).map fun l =>
      l.parts.getD (partKey lv sc (s.unitOf sw lv) n) Partial.empty).getD Partial.empty

def State.setPart (s : State) (sid : Nat) (sw : Swatch) (lv : Level) (sc : BarScope) (n : Nat)
    (p : Partial) : State :=
  match lv with
  | .swatch => s.modSwatch sid fun x => { x with parts := x.parts.put (32 * sc.ix + n) p }
  | _ => s.modLaunch sw.launch fun l =>
      { l with parts := l.parts.put (partKey lv sc (s.unitOf sw lv) n) p }

/-! ## Members -/

/-- Wefts of a swatch that are members of its groups (task wefts are none, R363) and not ended. -/
def Swatch.liveWids (sw : Swatch) : List Nat :=
  (sw.wefts.filter fun p => p.2.task.isNone && !p.2.ended).map fun p => p.1

/-- Swatches of a launch with a member not ended. -/
def State.liveSwatches (s : State) (lid : Nat) : List Swatch :=
  (s.swatches.map fun p => p.2).filter fun sw =>
    sw.launch == lid && sw.control.isNone && !sw.liveWids.isEmpty

/-- Members of a unit that have not ended (R228). -/
def State.liveMembers (s : State) (sid : Nat) (sw : Swatch) (lv : Level) : List Nat :=
  match lv with
  | .swatch => ((s.swatch? sid).map Swatch.liveWids).getD []
  | .bolt =>
    ((s.liveSwatches sw.launch).filter fun x => x.boi == sw.boi && x.bai == sw.bai).map fun x => x.swi
  | .bale =>
    dedup (((s.liveSwatches sw.launch).filter fun x => x.bai == sw.bai).map fun x => x.boi)

/-- The value z stands for (R196): units of the group not ended. -/
def State.unitsLive (s : State) (sid : Nat) (sw : Swatch) (sc : BarScope) : Nat :=
  match sc with
  | .sw => (s.liveMembers sid sw .swatch).length
  | .bo => (s.liveMembers sid sw .bolt).length
  | .ba => (s.liveMembers sid sw .bale).length
  | .rl => (dedup ((s.liveSwatches sw.launch).map fun x => x.bai)).length +
      (((s.launches.get? sw.launch).bind fun l => l.roll).map fun r => r.away.length).getD 0

/-- Units the launch declares for the group (R198). -/
def State.unitsDeclared (s : State) (sw : Swatch) (sc : BarScope) : Nat :=
  match sc, s.launches.get? sw.launch with
  | .sw, _ => sw.nwf
  | .bo, some l => l.swatches
  | .ba, some l => l.bolts
  | .rl, some l => l.bales
  | _, none => 1

/-! ## Phase change -/

/-- The weft waits in BAR or BARW on a record. -/
def Weft.waitsOn (w : Weft) (sc : BarScope) (n : Nat) : Bool :=
  match w.wait with
  | some x =>
    match x.form with
    | .bar sc' n' _ => sc' == sc && n' == n
    | .barw sc' n' _ => sc' == sc && n' == n
    | _ => false
  | none => false

/-- Whether a swatch belongs to the group of a record. -/
def State.inGroup (s : State) (lid : Nat) (sc : BarScope) (grp : Nat) (sid : Nat) (sw : Swatch) : Bool :=
  sw.launch == lid && sw.control.isNone && s.groupOf sid sw sc == grp

/-- Partial counts of the group's units return to zero (R228, R241). -/
def State.clearParts (s : State) (lid : Nat) (sc : BarScope) (grp n : Nat) : State :=
  let s' : State := { s with swatches := s.swatches.map fun (p : Nat × Swatch) =>
    (p.1, if s.inGroup lid sc grp p.1 p.2 then
      { p.2 with parts := p.2.parts.del (32 * sc.ix + n) } else p.2) }
  let bolts := ((s.launches.get? lid).map fun l => l.bolts).getD 1
  s'.modLaunch lid fun l => { l with
    parts := l.parts.filter fun (p : Nat × Partial) =>
      let unit := p.1 / 32 % 2 ^ 40
      let lv := p.1 / 32 / 2 ^ 40 / 4
      !(p.1 % 32 == n && p.1 / 32 / 2 ^ 40 % 4 == sc.ix &&
        (sc == .rl || (lv == 1 && unit / bolts == grp) || (lv == 2 && unit == grp))) }

/-- A flight that is a BAR's count whose phase has ended (R138). -/
def Flight.barOver (f : Flight) (sc : BarScope) (n phase : Nat) : Bool :=
  match f.kind with
  | .barHeld sc' n' p => sc' == sc && n' == n && p != phase
  | _ => false

/-- The weft waits on a record, or its BAR's count still stands for it (R138). -/
def Weft.barConcerns (w : Weft) (sc : BarScope) (n : Nat) : Bool :=
  w.waitsOn sc n || w.flights.any fun f => match f.kind with
    | .barHeld sc' n' _ => sc' == sc && n' == n
    | _ => false

/-- A BAR at which no entry of the frontier waits: its count falls when the phase ends (R120, R138). -/
def Weft.dropHeld (w : Weft) (sc : BarScope) (n phase turn : Nat) : Weft :=
  let mine := fun (f : Flight) => f.barOver sc n phase
  { (w.flights.filter mine).foldl (fun w f => w.flagDec f.flag) w with
    flights := w.flights.filter fun f => !mine f
    runSince := if w.place = .absent && w.flights.any mine then turn else w.runSince }

/-! ## Completion of waiters -/

/-- A weft whose word has retired in its image makes the wait test of its clause again before the next word
(R233). -/
def Weft.rested (w : Weft) : Weft :=
  { w with latch := [], clause := w.clause.map fun c => { c with tested := false } }

/-- A weft's BAR or BARW completes, in its slot or in its image: its count is given back, the acquire of R199 takes
effect and the word retires. A weft that stood at a clause boundary stands at one again. -/
def State.completeBar (s : State) (sid wid : Nat) (sc : BarScope) : State :=
  match s.swatch? sid, s.weft? sid wid with
  | some sw, some w =>
    match w.wait with
    | none => s
    | some x =>
      let fr := (barFirst w.frontier).map fun e => { e with barWait := false }
      let s := s.acquire (dieOfCluster sw.clu) sc.wide
      let w' := { w with frontier := fr, clause := some x.cl }
      let s := s.modWeft sid wid fun _ => { w'.flagDec x.flag with wait := none }
      match fr with
      | [] => s
      | e :: _ =>
        let k := s.siteAt sid wid sw w' e x.cl
        let s := s.retire k x.instr
        let s := if w.clause.isSome then s
          else s.modWeft sid wid fun w =>
            { w with clause := none, latch := [], frontier := sortFrontier w.frontier }
        if w.place = .absent then s.modWeft sid wid fun y => y.rested.noted s.turn w else s
  | _, _ => s

/-- The condition of a barrier wait holds at the record's phase (R199, R236). -/
def Weft.barMet (w : Weft) (phase : Nat) : Bool :=
  match w.wait with
  | some x =>
    match x.form with
    | .bar _ _ p => p != phase
    | .barw _ _ p => p != phase
    | _ => false
  | none => false

/-- A record's new phase reaches one weft: the count of a BAR that no entry waits at falls, and its BAR or BARW on
the record completes (R138, R229, R244). -/
def State.phaseAt (s : State) (sid wid : Nat) (sc : BarScope) (n phase : Nat) : State :=
  match s.swatch? sid, s.weft? sid wid with
  | some sw, some w =>
    let s := if w.flights.any fun f => f.barOver sc n phase then
        (s.acquire (dieOfCluster sw.clu) sc.wide).modWeft sid wid fun w => w.dropHeld sc n phase s.turn
      else s
    if w.waitsOn sc n && w.barMet phase && w.halted.isNone then s.completeBar sid wid sc else s
  | _, _ => s

/-- A record's new phase reaches the wefts of a swatch that a test picks. -/
def State.phaseIn (s : State) (sid : Nat) (sw : Swatch) (sc : BarScope) (n phase : Nat) (f : Weft → Bool) :
    State :=
  (sw.wefts.filter fun q => f q.2).foldl (fun s q => s.phaseAt sid q.1 sc n phase) s

/-- A record's phase has changed: one wake message to every core that holds a placed swatch of the
group; for swatches not placed the front end records the wake in their wefts' images (R229). -/
def State.sendWakes (s : State) (lid : Nat) (sc : BarScope) (grp n phase : Nat) : State :=
  let members := s.swatches.filter fun p => s.inGroup lid sc grp p.1 p.2
  let cores := dedup (members.filterMap fun p => p.2.core?)
  let s := cores.foldl (fun s c => s.modCore c fun k =>
    { k with wakeMsgs := k.wakeMsgs ++ [⟨sc, n, phase, lid, grp⟩] }) s
  (members.filter fun p => p.2.core?.isNone).foldl (fun s p => s.phaseIn p.1 p.2 sc n phase fun _ => true) s

/-- The other members of a roll launch hear of a phase of an .rl record (R229, R396). -/
def State.wakeMembers (s : State) (lid n phase : Nat) : State :=
  match (s.launches.get? lid).bind fun l => l.roll with
  | none => s
  | some r => s.modPkg fun p => { p with sent := p.sent ++ (r.members.filter fun m => m.1 != p.fpkg).map fun m =>
      ⟨m.1, 0, false, p.fpkg, r.home.2, false, 8, 0, 0,
        ([r.number.1, r.number.2.toNat, n, phase].flatMap fun x => natBytes 4 x)⟩ }

/-- The phase of a record ends (R198). -/
def State.endPhase (s : State) (sid : Nat) (sw : Swatch) (sc : BarScope) (n : Nat) (r : BarRec) : State :=
  let phase := (r.phase + 1) % 2 ^ 32
  let grp := s.groupOf sid sw sc
  let s := s.setBar sid sw sc n { r with phase := phase, arrived := 0, who := [] }
  let s := if sc = .rl then s.wakeMembers sw.launch n phase else s
  (s.clearParts sw.launch sc grp n).sendWakes sw.launch sc grp n phase

/-! ## Arrivals -/

/-- A roll launch whose .rl records stand on another package (R227, R396). -/
def State.rollAway (s : State) (sw : Swatch) : Option Roll :=
  ((s.launches.get? sw.launch).bind fun l => l.roll).filter fun r => r.home.1 != s.pkg.fpkg

/-- A bale's arrival goes to the .rl record on another package (R325, R391). -/
def State.sendArrival (s : State) (die : Nat) (r : Roll) (n unit c : Nat) : State :=
  s.modPkg fun p => { p with sent := p.sent ++ [⟨r.home.1, r.home.2, false, p.fpkg, die, false, 7, 0, 0,
    ([r.number.1, r.number.2.toNat, n, unit, c].flatMap fun x => natBytes 4 x)⟩] }

/-- A unit arrives at the record where it stands (R198); the error is the value its count was checked against. -/
def State.arriveHere (s : State) (sid : Nat) (sw : Swatch) (sc : BarScope) (n unit c : Nat) :
    Except Nat State :=
  let r := s.barRec sid sw sc n
  if r.arrived = 0 && s.unitsDeclared sw sc < c then .error (s.unitsDeclared sw sc)
  else if r.arrived ≠ 0 && c ≠ (if r.zmode then 0 else r.expected) then
    .error (if r.zmode then 0 else r.expected)
  else
    let r := if r.arrived = 0 then
        { r with zmode := c == 0, expected := if c = 0 then s.unitsLive sid sw sc else c }
      else r
    let r := { r with arrived := r.arrived + 1, who := r.who ++ [unit] }
    if r.arrived = r.expected then .ok (s.endPhase sid sw sc n r)
    else .ok (s.setBar sid sw sc n r)

/-- A unit arrives at the record: where an .rl record stands on another package, in a message (R325, R396). -/
def State.recordArrive (s : State) (sid : Nat) (sw : Swatch) (sc : BarScope) (n unit c : Nat) : Except Nat State :=
  match if sc = .rl then s.rollAway sw else none with
  | some r => .ok (s.sendArrival (dieOfCluster sw.clu) r n unit c)
  | none => s.arriveHere sid sw sc n unit c

/-- Every member of the unit that has not ended has arrived, and some member has (R228). -/
def State.unitComplete (s : State) (sid : Nat) (sw : Swatch) (lv : Level) (p : Partial) : Bool :=
  !p.who.isEmpty && (s.liveMembers sid sw lv).all fun m => p.who.contains m

/-- A member is counted at each level in turn; a complete unit arrives one level up (R198, R228). A
failed check anywhere leaves every count as it was. -/
def State.arriveUp (sid : Nat) (sw : Swatch) (sc : BarScope) (n c : Nat) :
    List Level → Nat → State → Except Nat State
  | [], member, s => s.recordArrive sid sw sc n member c
  | lv :: rest, member, s =>
    let p := s.part sid sw lv sc n
    if p.who.contains member then .ok s
    else if !p.who.isEmpty && p.carried ≠ c then .error p.carried
    else
      let p := { p with who := p.who ++ [member], carried := c }
      if !p.sent && s.unitComplete sid sw lv p then
        State.arriveUp sid sw sc n c rest (sw.memberAt lv) (s.setPart sid sw lv sc n { p with sent := true })
      else .ok (s.setPart sid sw lv sc n p)

/-- The weft has arrived at the record in the current phase (R198). -/
def State.hasArrived (s : State) (sid wid : Nat) (sw : Swatch) (sc : BarScope) (n : Nat) : Bool :=
  match sc with
  | .sw => (s.barRec sid sw sc n).who.contains wid
  | _ => (s.part sid sw .swatch sc n).who.contains wid

/-- A wake message arrives at its core: resident waiters complete, and each swatch with absent waiters
gets a wake record (R229, R236). -/
def State.wakeMessage (s : State) (core : Nat) : State :=
  match (s.core core).wakeMsgs with
  | [] => s
  | m :: ms =>
    let s := s.modCore core fun k => { k with wakeMsgs := ms }
    let members := s.swatches.filter fun p =>
      s.inGroup m.launch m.sc m.group p.1 p.2 && p.2.core? == some core
    members.foldl (fun s p =>
      let phase := (s.barRec p.1 p.2 m.sc m.n).phase
      let s := s.phaseIn p.1 p.2 m.sc m.n phase fun w => w.place != .absent
      if p.2.wefts.any fun q => q.2.place == .absent && q.2.barConcerns m.sc m.n then
        s.pushWake core ⟨1, 64 * m.sc.ix + m.n, p.1, none, w32 m.phase⟩
      else s) s

/-! ## The end of a weft (R198, R228) -/

/-- Some member of the swatch's unit, at any level below the record, stands counted and not sent. -/
def State.unitPending (s : State) (sid : Nat) (sw : Swatch) (sc : BarScope) (n : Nat) : Bool :=
  let same := s.swatches.filter fun p => p.2.launch == sw.launch && p.2.control.isNone &&
    (match sc with
      | .sw => false
      | .bo => p.1 == sid
      | .ba => p.2.boi == sw.boi && p.2.bai == sw.bai
      | .rl => p.2.bai == sw.bai)
  same.any fun p => (levelsOf sc).any fun lv => !(s.part p.1 p.2 lv sc n).who.isEmpty

/-- The unit of a swatch at a scope has no weft left that has not ended. -/
def State.unitGone (s : State) (sid : Nat) (sw : Swatch) (sc : BarScope) : Bool :=
  match sc with
  | .sw => true
  | .bo => (s.liveMembers sid sw .swatch).isEmpty
  | .ba => (s.liveMembers sid sw .bolt).isEmpty
  | .rl => (s.liveMembers sid sw .bale).isEmpty

/-- The unit number a swatch or weft has at the record of a scope. -/
def Swatch.unitAt (sw : Swatch) (wid : Nat) : BarScope → Nat
  | .sw => wid
  | .bo => sw.swi
  | .ba => sw.boi
  | .rl => sw.bai

/-- One record after a weft's end: an open phase with zmode expects the removed unit no longer; partial
counts that are now complete fall due. -/
def State.endAtRecord (s : State) (sid wid : Nat) (sw : Swatch) (sc : BarScope) (n : Nat) : State :=
  let r := s.barRec sid sw sc n
  let lower := r.zmode && r.arrived ≠ 0 && !(sc == .rl && (s.rollAway sw).isSome) && s.unitGone sid sw sc &&
    !r.who.contains (sw.unitAt wid sc) && !s.unitPending sid sw sc n
  let s := if lower then
      let r := { r with expected := r.expected - 1 }
      if r.arrived = r.expected then s.endPhase sid sw sc n r else s.setBar sid sw sc n r
    else s
  match (levelsOf sc).find? fun lv =>
      let p := s.part sid sw lv sc n
      !p.sent && s.unitComplete sid sw lv p with
  | some lv =>
    let p := s.part sid sw lv sc n
    s.setPart sid sw lv sc n { p with due := some (sid, wid) }
  | none => s

/-- A weft has ended: every record it belongs to is looked at (R198, R228). -/
def State.weftEnds (s : State) (sid wid : Nat) : State :=
  match s.swatch? sid, s.weft? sid wid with
  | some sw, some w =>
    if w.task.isSome || sw.control.isSome then s
    else [BarScope.sw, .bo, .ba, .rl].foldl (fun s sc =>
      (List.range 32).foldl (fun s n => s.endAtRecord sid wid sw sc n) s) s
  | _, _ => s

/-- A bale of another member of a roll launch has no weft left that has not ended: open phases with zmode expect it no
longer (R198, R396). -/
def State.rollBaleEnds (s : State) (lid bale : Nat) : State :=
  match s.launches.get? lid, s.swatches.find? fun p => p.2.launch == lid && p.2.control.isNone with
  | some l, some (sid, sw) =>
    if !(l.roll.any fun r => r.away.contains bale && r.home.1 == s.pkg.fpkg) then s
    else
      let s := s.modLaunch lid fun l => { l with roll := l.roll.map fun r => { r with away := r.away.filter fun b => b != bale } }
      (List.range 32).foldl (fun s n =>
        let r := s.barRec sid sw .rl n
        if r.zmode && r.arrived ≠ 0 && !r.who.contains bale then
          let r := { r with expected := r.expected - 1 }
          if r.arrived = r.expected then s.endPhase sid sw .rl n r else s.setBar sid sw .rl n r
        else s) s
  | _, _ => s

/-- A unit whose last missing member has ended arrives, with no arriving instruction (R228): a failed
check posts a context fault to the host and changes no count. -/
def State.unitArrival (s : State) (sid : Nat) (sc : BarScope) (n : Nat) : State :=
  match s.swatch? sid with
  | none => s
  | some sw =>
    match (levelsOf sc).find? fun lv => (s.part sid sw lv sc n).due.isSome with
    | none => s
    | some lv =>
      let p := s.part sid sw lv sc n
      let s := s.setPart sid sw lv sc n { p with due := none, sent := true }
      let rest := ((levelsOf sc).dropWhile fun x => x != lv).drop 1
      match State.arriveUp sid sw sc n p.carried rest (sw.memberAt lv) s with
      | .ok s => s
      | .error v =>
        let d := p.due.getD (sid, 0)
        let src := (s.swatch? d.1).getD sw
        s.post (s.record 0x22 0x0E sw.ctx (w32 src.swi) (w32 d.2)
          (w32 (0x0E + 256 * n + 8192 * sc.ix)) (w32 p.carried) (w32 v))

/-! ## The BAR family (R197 to R199) -/

/-- The count-mismatch trap (R116, R198). -/
def barTrap (k : Site) (sc : BarScope) (n c v : Nat) : Trap :=
  ⟨0x0E, k.act, concat64 (w32 v) (w32 c), w32 (32 * sc.ix + n), 0⟩

/-- An arrival of the issuing weft, behind its release: the count (R198, R199, R325). -/
def State.arrive (s : State) (k : Site) (sc : BarScope) (n c : Nat) : Except Nat State :=
  if s.hasArrived k.sid k.wid k.sw sc n then .ok s
  else State.arriveUp k.sid k.sw sc n c (levelsOf sc) k.wid s

def execBar (a : Src) (f : Bool) (n : BitVec 5) (sc : BarScope) (s : State) : Out :=
  s.issue (.bar a f n sc) fun k s =>
    match k.w.wait with
    | some x =>
      -- the wait is tested again
      if k.w.barMet (s.barRec k.sid k.sw sc n.toNat).phase then
        .past (s.completeBar k.sid k.wid sc)
      else .wait s x.form 0
    | none =>
      let phase := (s.barRec k.sid k.sw sc n.toNat).phase
      let c := (k.scalar a).toNat
      k.withRelease s sc.wide sc.far fun s =>
        match s.arrive k sc n.toNat c with
        | .error v => .trap s (barTrap k sc n.toNat c v)
        | .ok s' => .wait s' (.bar sc n.toNat phase) 0

def execBara (d : Dst) (a : Src) (f : Bool) (n : BitVec 5) (sc : BarScope) (s : State) : Out :=
  s.issue (.bara d a f n sc) fun k s =>
    let phase := (s.barRec k.sid k.sw sc n.toNat).phase
    let c := (k.scalar a).toNat
    k.withRelease s sc.wide sc.far fun s =>
      match s.arrive k sc n.toNat c with
      | .error v => .trap s (barTrap k sc n.toNat c v)
      | .ok s' => .fly s' (k.flyScalar d [w32 phase])

def execBarw (a : Src) (f : Bool) (n : BitVec 5) (sc : BarScope) (s : State) : Out :=
  s.issue (.barw a f n sc) fun k s =>
    let want := (k.scalar a).toNat
    if (s.barRec k.sid k.sw sc n.toNat).phase ≠ want then
      let s := s.acquire k.die sc.wide
      if k.w.wait.isSome then .done s else .fly s k.flight
    else .wait s (.barw sc n.toNat want) 0

def execBarq (d : Dst) (f : Bool) (n : BitVec 5) (sc : BarScope) (s : State) : Out :=
  s.issue (.barq d f n sc) fun k s =>
    let r := s.barRec k.sid k.sw sc n.toNat
    .fly s (k.flyScalar d [w32 r.phase, w32 r.arrived])

end Machine
end Sys2Proof
end

