-- ==== Sys2Proof/Machine/Exchange.lean ====
section
/-!
DEFINITION. The lane-exchange instructions: SHFL, VOTE, SCAN, REDW, MATCH, LGET, PRMT and LSET
(R139 to R147).
-/
namespace Sys2Proof.Machine

/-- The source lane of SHFL, if it is one of the 32 (R140). -/
def shflLane (m : ShflMode) (l n : Nat) : Option Nat :=
  match m with
  | .idx => some n
  | .up => if n ≤ l then some (l - n) else none
  | .down => if l + n ≤ 31 then some (l + n) else none
  | .xor => some (l ^^^ n)

def execShfl (d : Dst) (a b : Src) (w : Bool) (m : ShflMode) (s : State) : Out :=
  s.issue (.shfl d a b w m) fun k s =>
    k.alu s d (grp w) fun l =>
      let j := match shflLane m l ((k.val b l).toNat % 32) with
        | some j => if k.act.getLsbD j then j else l
        | none => l
      ((List.range (grp w)).map fun i => k.word a i j, 0)

/-- Active lanes in which a predicate XOR inv is true (R141). -/
def Site.ballot (k : Site) (a : PReg) (inv : Bool) : Mask :=
  k.act &&& (if inv then ~~~(k.w.pred a.val) else k.w.pred a.val)

def allLanes (b : Bool) : Mask := if b then 0xFFFFFFFF else 0

def execVoteAny (d a : PReg) (i : Bool) (s : State) : Out :=
  s.issue (.voteAny d a i) fun k s => k.setPredMask s d (allLanes (k.ballot a i != 0))

def execVoteAll (d a : PReg) (i : Bool) (s : State) : Out :=
  s.issue (.voteAll d a i) fun k s => k.setPredMask s d (allLanes (k.ballot a i == k.act))

def execVoteBallot (d : Dst) (a : PReg) (i : Bool) (s : State) : Out :=
  s.issue (.voteBallot d a i) fun k s => k.alu1 s d fun _ => k.ballot a i

def execVoteUniform (d : PReg) (a : Src) (s : State) : Out :=
  s.issue (.voteUniform d a) fun k s =>
    let x := k.val a (lowestLane k.act)
    k.setPredMask s d (allLanes ((lanesOf k.act).all fun l => k.val a l == x))

/-- combine of R142 with the fstat bits of an addition. -/
def scanStep (o : ScanOp) (x y : Word) : Word × FBits :=
  match o with
  | .addI32 => (x + y, 0)
  | .addF32 =>
    let r := fp32.add .rn x.toNat y.toNat
    (w32 r.1, r.2)
  | .maxI32 => (if x.toInt < y.toInt then y else x, 0)
  | .or => (x ||| y, 0)

/-- identity of R142. -/
def scanIdentity : ScanOp → Word
  | .addI32 => 0
  | .addF32 => 0
  | .maxI32 => 0x80000000
  | .or => 0

/-- The prefix over lanes in order: each lane's word and the fstat bits of its addition (R142). -/
def scanGo (o : ScanOp) (ex : Bool) (val : Nat → Word) : List Nat → Option Word → Tab (Word × FBits)
  | [], _ => []
  | l :: ls, acc =>
    let next := match acc with
      | none => (val l, (0 : FBits))
      | some x => scanStep o x (val l)
    let out := if ex then acc.getD (scanIdentity o) else next.1
    (l, (out, next.2)) :: scanGo o ex val ls (some next.1)

def execScan (d : Dst) (a : Src) (ex : Bool) (o : ScanOp) (s : State) : Out :=
  s.issue (.scan d a ex o) fun k s =>
    let t := scanGo o ex (fun l => k.val a l) (lanesOf k.act) none
    k.alu s d 1 fun l =>
      let r := t.getD l (0, 0)
      ([r.1], r.2)

/-- One level of the pairwise tree of R143. -/
def redLevel (o : ScanOp) : List (Option (Word × FBits)) → List (Option (Word × FBits))
  | some (x, p) :: some (y, q) :: r =>
    let z := scanStep o x y
    some (z.1, z.2 ||| p ||| q) :: redLevel o r
  | some x :: none :: r => some x :: redLevel o r
  | none :: y :: r => y :: redLevel o r
  | [x] => [x]
  | [] => []

def execRedw (d : Dst) (a : Src) (o : ScanOp) (s : State) : Out :=
  s.issue (.redw d a o) fun k s =>
    let leaves := laneIds.map fun l => if k.act.getLsbD l then some (k.val a l, (0 : FBits)) else none
    let top := redLevel o (redLevel o (redLevel o (redLevel o (redLevel o leaves))))
    let r := (top.headD none).getD (0, 0)
    k.alu s d 1 fun _ => ([r.1], r.2)

def execMatchLanes (d : Dst) (a : Src) (w : Bool) (s : State) : Out :=
  s.issue (.matchLanes d a w) fun k s =>
    k.alu1 s d fun l => k.act &&& maskOf fun j =>
      k.val a j == k.val a l && (!w || k.word a 1 j == k.word a 1 l)

/-- LGET reads its lane whether or not it is active (R145). -/
def execLget (d : Dst) (a b : Src) (w : Bool) (s : State) : Out :=
  s.issue (.lget d a b w) fun k s =>
    let j := (k.scalar b).toNat % 32
    k.alu s d (grp w) fun _ => ((List.range (grp w)).map fun i => k.word a i j, 0)

/-- Source byte s of the pair a in a lane (R147). -/
def Site.pairByte (k : Site) (a : Src) (l i : Nat) : Nat :=
  (k.word a (i / 4) l).toNat / 2 ^ (8 * (i % 4)) % 256

def execPrmt (d : Dst) (a b : Src) (s : State) : Out :=
  s.issue (.prmt d a b) fun k s =>
    k.alu1 s d fun l =>
      let sel := (k.val b l).toNat
      let byte := fun (i : Nat) =>
        let n := sel / 16 ^ i % 16
        let x := k.pairByte a l (n % 8)
        if n < 8 then x else if x < 128 then 0 else 255
      w32 (byte 0 + 256 * byte 1 + 65536 * byte 2 + 16777216 * byte 3)

/-- LSET writes one lane of d, if it is active (R146). -/
def execLset (d : Dst) (a b : Src) (w : Bool) (s : State) : Out :=
  s.issue (.lset d a b w) fun k s =>
    let j := (k.scalar b).toNat % 32
    if k.act.getLsbD j then
      k.alu s d (grp w) fun l =>
        ((List.range (grp w)).map fun i => if l = j then k.word a i 0 else k.word d.toSrc i l, 0)
    else .done s

end Sys2Proof.Machine
end

