-- ==== Sys2Proof/Machine/Access.lean ====
section
/-!
DEFINITION. What the instructions that reach global memory share: the lanes that access, the checks
before any lane does, page groups in order, and reading, writing and read-modify-writing a group
(R148 to R152, R256, R266, R314).
-/
namespace Sys2Proof.Machine

/-- A lane's access: its virtual address and, once translated, its physical one with its leaf. -/
structure LaneAt where
  lane : Nat
  va : DWord
  pa : Nat
  leaf : Nat
  deriving DecidableEq, Repr

/-- Lanes that access: the active lanes, or one for the weft when every operand is scalar (R148). -/
def Site.accessLanes (k : Site) (scalar : Bool) (addr : Nat → DWord) : List (Nat × DWord) :=
  let ls := (lanesOf k.act).map fun l => (l, addr l)
  if scalar then ls.take 1 else ls

/-- Every operand is the same for the whole weft, so that one access is made for it (R23, R148, R266). -/
def Site.allScalar (k : Site) (xs : List Src) : Bool :=
  xs.all fun a => !a.perLane && !(k.w.task.isSome && a.isTarg)

/-- Lanes a trap names: all of the entry for an access made for the weft. -/
def Site.span (k : Site) (scalar : Bool) (ls : List Nat) : Mask :=
  if scalar then (if ls.isEmpty then 0 else k.act) else maskOf fun l => ls.contains l

/-- What a lane's address breaks before translation (R149): the pointer rule, then alignment. -/
def laneCause (n : Nat) (a : DWord) : Option Nat :=
  if !canonical a then some 0x09 else if a.toNat % n ≠ 0 then some 0x0A else none

/-- A lane's address meets a cause of R149, whatever else it meets (R117). -/
def laneMeets (n cause : Nat) (a : DWord) : Bool :=
  if cause = 0x09 then !canonical a else decide (a.toNat % n ≠ 0)

/-- tinfo of an access fault (R116). -/
def accInfo (write : Bool) : Word := if write then 1 else 0

/-- The trap of a cause that some lanes meet (R117). -/
def Site.laneTrap (k : Site) (scalar write : Bool) (cause : Nat) (ls : List (Nat × DWord)) (done : Mask) :
    Trap :=
  ⟨cause, k.span scalar (ls.map fun x => x.1), ((ls.head?).map fun x => x.2).getD 0, accInfo write, done⟩

/-- The checks before any lane accesses (R149). -/
def Site.preCheck (k : Site) (scalar write : Bool) (n : Nat) (ls : List (Nat × DWord)) : Option Trap :=
  match ls.findSome? fun x => laneCause n x.2 with
  | none => none
  | some c => some (k.laneTrap scalar write c (ls.filter fun x => laneMeets n c x.2) 0)

/-- The page of a faulting address: of its translation where the page only forbids the access, else 64 KiB. -/
def State.faultShift (s : State) (k : Site) (va : Nat) : Nat :=
  match (s.translate k.core k.clu k.sw.ctx va).2 with
  | .ok t => t.shift
  | .error _ => 16

/-- Perform page groups in ascending order of their lowest lane (R149, R150): each is translated, checked
and performed; the first that faults ends the instruction with the lanes performed before. A page that
does not translate groups by 64 KiB. -/
def State.eachGroup {α : Type} (k : Site) (scalar write : Bool) (acc : Acc)
    (perform : State → α → List LaneAt → State × α × Option Trap) :
    Nat → List (Nat × DWord) → Mask → State → α → State × α × Mask × Option Trap
  | 0, _, done, s, x => (s, x, done, none)
  | _ + 1, [], done, s, x => (s, x, done, none)
  | n + 1, (l, a) :: ls, done, s, x =>
    match s.access k.core k.clu k.sw.ctx acc a.toNat with
    | (s, .error c) =>
      let sh := s.faultShift k a.toNat
      let grp := ((l, a) :: ls).filter fun y => y.2.toNat / 2 ^ sh == a.toNat / 2 ^ sh
      (s, x, done, some (k.laneTrap scalar write c grp done))
    | (s, .ok t) =>
      let same := fun (y : Nat × DWord) => y.2.toNat / 2 ^ t.shift == a.toNat / 2 ^ t.shift
      let grp := ((l, a) :: ls).filter same
      let at_ := grp.map fun y =>
        (⟨y.1, y.2, t.pa / 2 ^ t.shift * 2 ^ t.shift + y.2.toNat % 2 ^ t.shift, t.leaf⟩ : LaneAt)
      match perform s x at_ with
      | (s, x, some tr) => (s, x, done ||| tr.done, some { tr with done := done ||| tr.done })
      | (s, x, none) =>
        State.eachGroup k scalar write acc perform n (((l, a) :: ls).filter fun y => !same y)
          (done ||| k.span scalar (grp.map fun y => y.1)) s x

/-! ## Loads -/

/-- Values read by lanes, the sectors touched, the lanes that met uncorrectable data, and the sectors for which
another package has not answered. -/
structure Reads where
  vals : Tab (List Byte)
  sectors : List Nat
  bad : List (Nat × DWord)
  asks : List Nat
  deriving DecidableEq, Repr

/-- One group of a load. -/
def State.readGroup (k : Site) (n : Nat) (atHome : Bool) (s : State) (r : Reads) (ls : List LaneAt) :
    State × Reads × Option Trap :=
  let x := ls.foldl (fun (x : State × Reads) l =>
    let y := x.1.loadBytes k.core k.die k.w.away l.pa n atHome
    let secs := sectorsOf l.pa n
    let s := secs.foldl (fun s sec => s.sliceTouch k.clu sec .read) y.1
    (s, { x.2 with
      vals := x.2.vals.put l.lane y.2.1
      sectors := x.2.sectors ++ secs
      bad := if y.2.2.isSome then x.2.bad ++ [(l.lane, l.va)] else x.2.bad
      asks := x.2.asks ++ s.unanswered k.w.away l.pa n })) (s, r)
  (x.1, x.2, none)

/-- A poison mark for the lanes that met uncorrectable data (R122). -/
def Site.poisonOf (k : Site) (scalar : Bool) (bad : List (Nat × DWord)) : Option Poison :=
  match bad with
  | [] => none
  | (_, a) :: _ => some ⟨a, k.e.pc, k.span scalar (bad.map fun x => x.1)⟩

/-- A whole load of `n` bytes a lane: a trap with nothing written, or the values read (R149 to R151). -/
def State.readLanes (s : State) (k : Site) (scalar : Bool) (n : Nat) (atHome : Bool)
    (ls : List (Nat × DWord)) : State × Except Trap Reads :=
  match k.preCheck scalar false n ls with
  | some t => (s, .error t)
  | none =>
    match State.eachGroup k scalar false .load (State.readGroup k n atHome) 32 ls 0 s ⟨[], [], [], []⟩ with
    | (s, _, _, some t) => (s, .error { t with done := 0 })
    | (s, r, _, none) => (s, .ok r)

/-- The weft's reads of another package are sent (R395). -/
def State.askWeft (s : State) (k : Site) (secs : List Nat) : State :=
  match s.weft? k.sid k.wid with
  | none => s
  | some w =>
    let x := s.askReads k.core k.die w.away secs
    x.1.modWeft k.sid k.wid fun w => { w with away := x.2 }

/-- The instruction goes on when another package has answered its reads (R395). -/
def Site.withAnswers (k : Site) (s : State) (secs : List Nat) (e : Eff) : Eff :=
  if secs.isEmpty then e else .hold s fun s => s.askWeft k secs

/-- The loupe sees a load (R237). -/
def State.loupeLoad (s : State) (k : Site) (spad : Bool) (r : Reads) : State :=
  s.modWeft k.sid k.wid fun w => { w with
    loupe := w.loupe.load ⟨k.e.pc, dedup (r.sectors.map fun x => (spad, x)),
      r.vals.flatMap fun v => [w32 (leNat (v.2.take 4)), w32 (leNat ((v.2.drop 4).take 4)),
        w32 (leNat ((v.2.drop 8).take 4)), w32 (leNat (v.2.drop 12))]⟩ }

/-- The flight of a load whose bytes become registers through `f`. -/
def Site.loadFlight (k : Site) (scalar : Bool) (d : Dst) (g : Nat) (r : Reads) (f : List Byte → List Word) :
    Flight :=
  { k.fly d g (r.vals.map fun v => (v.1, f v.2)) with poison := k.poisonOf scalar r.bad }

/-! ## Stores -/

/-- Bytes of a data source group in a lane. -/
def Site.dataBytes (k : Site) (d : Src) (n l : Nat) : List Byte :=
  ((List.range ((n + 3) / 4)).flatMap fun j => wordBytes (k.word d j l)).take n

/-- The bytes that a group writes into one sector, the highest lane's last (R151). -/
def groupBytes (ls : List LaneAt) (f : Nat → List Byte) (sec : Nat) : Tab Byte :=
  ls.foldl (fun t l => (sectorPart l.pa (f l.lane) sec).foldl (fun t p => t.put p.1 p.2) t) []

/-- Sectors of a group, in the order of its lanes. -/
def groupSectors (ls : List LaneAt) (n : Nat) : List Nat := dedup (ls.flatMap fun l => sectorsOf l.pa n)

/-- A write of part of a sector whose data is uncorrectable (R152): the write buffer's bytes count. -/
def State.partialBad (s : State) (core : Option Nat) (sec : Nat) (new : Tab Byte) : Bool :=
  let held : Tab Byte := match core with
    | some c =>
      match (s.core c).wbuf.find? fun (e : WbEntry) => e.sector == sec with
      | some e => e.bytes
      | none => []
    | none => []
  s.here sec && s.bad.contains sec && !((List.range 32).all fun o => (new.get? o).isSome || (held.get? o).isSome)

/-- The uncorrectable-load trap at an instruction, in the lanes that reach bad sectors (R122, R152, R266). -/
def Site.badTrap (k : Site) (scalar : Bool) (ls : List LaneAt) (isBad : LaneAt → Bool) : Trap :=
  let bs := ls.filter isBad
  ⟨0x15, k.span scalar (bs.map fun l => l.lane), ((bs.head?).map fun l => l.va).getD 0, k.e.pc, 0⟩

/-- One group of a store: into the write buffer, sector by sector. -/
def State.writeGroup (k : Site) (scalar : Bool) (n : Nat) (f : Nat → List Byte) (s : State) (_ : Unit)
    (ls : List LaneAt) : State × Unit × Option Trap :=
  let secs := groupSectors ls n
  let bad := fun sec => s.partialBad k.core sec (groupBytes ls f sec)
  if secs.any bad then (s, (), some (k.badTrap scalar ls fun l => bad (sectorOf l.pa)))
  else
    (secs.foldl (fun s sec =>
      let s := s.bufferWrite k.core k.die sec (groupBytes ls f sec)
      if k.core.isNone then s.sliceTouch k.clu sec .write else s) s, (), none)

/-- A whole store of `n` bytes a lane: the state and the trap of the first group that faults, whose
`done` names the lanes performed. -/
def State.writeLanes (s : State) (k : Site) (scalar : Bool) (n : Nat) (f : Nat → List Byte)
    (ls : List (Nat × DWord)) : State × Option Trap :=
  match State.eachGroup k scalar true .store (State.writeGroup k scalar n f) 32 ls 0 s () with
  | (s, _, _, t) => (s, t)

/-! ## Atomics (R255, R256) -/

/-- new(o, x) on operands of `n` bits (R268). -/
def atomNew (o : AtomOp) (n old x : Nat) : Nat :=
  let sg := fun (v : Nat) => if n = 32 then toInt32 v else toInt64 v
  match o with
  | .add => (old + x) % 2 ^ n
  | .min => if sg x < sg old then x else old
  | .max => if sg old < sg x then x else old
  | .minu => min old x
  | .maxu => max old x
  | .and => old &&& x
  | .or => old ||| x
  | .xor => old ^^^ x
  | .exch => x
  | .fadd => (fp32.add .rn old x).1
  | .fmin => (fp32.minmax false old x).1
  | .fmax => (fp32.minmax true old x).1

/-- What one lane asks of its word: an operation with its operand, or a compare and swap (R268, R269). -/
inductive AtomAct
  | op (o : AtomOp) (x : Nat)
  | cas (cmp new : Nat)
  deriving DecidableEq, Repr

/-- The value that the word takes, if it is written. -/
def AtomAct.new? (a : AtomAct) (n old : Nat) : Option Nat :=
  match a with
  | .op o x => some (atomNew o (8 * n) old x)
  | .cas c x => if old = c then some x else none

/-- Operations of an atomic's message body, in the order of R268 (log 16). -/
def atomOps : List AtomOp := [.add, .min, .max, .minu, .maxu, .and, .or, .xor, .exch, .fadd, .fmin, .fmax]

/-- The body of the message that carries a lane's atomic to another package (log 16). -/
def AtomAct.body (a : AtomAct) (n : Nat) : List Byte :=
  let head := fun (c : Nat) => [BitVec.ofNat 8 c, BitVec.ofNat 8 n, 0, 0, 0, 0, 0, 0]
  match a with
  | .op o x => head ((atomOps.findIdx? fun y => y == o).getD 0) ++ natBytes 8 x ++ natBytes 8 0
  | .cas c x => head 12 ++ natBytes 8 x ++ natBytes 8 c

/-- Old values that an atomic's lanes have received, and the operations that other packages must still perform. -/
structure Olds where
  vals : Tab Nat
  asks : List (Nat × Nat × List Byte)
  deriving DecidableEq, Repr

/-- The message of a lane's atomic on another package. -/
def Package.atomicMsg (p : Package) (die addr : Nat) (body : List Byte) : Msg :=
  ⟨pkgOf addr, dieOf addr, false, p.fpkg, die, false, 5, 0, addr, body⟩

/-- A weft's atomics on other packages are sent, each lane's once, in the order of the lanes; they are performed
there as one read-modify-write each, and their results come back (R256, R395). -/
def State.askAtomics (s : State) (k : Site) (asks : List (Nat × Nat × List Byte)) : State :=
  asks.foldl (fun s a =>
    if ((s.weft? k.sid k.wid).any fun w => w.away.any fun x => x.lane == some a.1) then s
    else (s.modPkg fun p => p.request (p.atomicMsg k.die a.2.1 a.2.2)).modWeft k.sid k.wid fun w =>
      { w with away := w.away ++ [⟨some a.1, a.2.1, s.pkg.nextTxn, none⟩] }) s

/-- Reductions on other packages are sent; nothing comes back but that they have been performed. -/
def State.sendReductions (s : State) (k : Site) (asks : List (Nat × Nat × List Byte)) : State :=
  s.modPkg fun p => asks.foldl (fun p a => p.request (p.atomicMsg k.die a.2.1 a.2.2)) p

/-- The result of a lane's atomic that another package has performed. -/
def Weft.atomAnswer (w : Weft) (lane : Nat) : Option (List Byte × Bool) :=
  (w.away.find? fun a => a.lane == some lane).bind fun a => a.answer

/-- An atomic of a die that leaves the sector as it is has read its newest value, so the die reads none older
afterwards (R322). -/
def State.readNewest (s : State) (die pa : Nat) : State := if dieOf pa = die then s else s.applyNotices die

/-- One read-modify-write at a home of this package: the old value, in one place of the sector's order (R256). -/
def State.rmw (s : State) (die pa n : Nat) (f : Nat → Option Nat) : State × Nat :=
  let old := leNat (s.homeBytes pa n)
  match f old with
  | some new => (s.homeWriteBytes (some die) pa (natBytes n new), old)
  | none => (s.readNewest die pa, old)

/-- A lane's place delivers uncorrectable data (R266, R395). -/
def State.atomBad (s : State) (k : Site) (l : LaneAt) : Bool :=
  match k.w.atomAnswer l.lane with
  | some x => x.2
  | none => if s.here l.pa then (s.homeRead (sectorOf l.pa)).2 else !s.present l.pa

/-- One lane of an atomic: at its home in this package, or what another package has answered, or to be asked. -/
def State.rmwLane (k : Site) (n : Nat) (act : Nat → AtomAct) (y : State × Olds) (l : LaneAt) : State × Olds :=
  match k.w.atomAnswer l.lane with
  | some x => (y.1, { y.2 with vals := y.2.vals.put l.lane (leNat (x.1.take n)) })
  | none =>
    if y.1.here l.pa then
      let r := y.1.rmw k.die l.pa n ((act l.lane).new? n)
      (r.1.sliceTouch (homeSlice l.pa) (sectorOf l.pa) .write, { y.2 with vals := y.2.vals.put l.lane r.2 })
    else (y.1, { y.2 with asks := y.2.asks ++ [(l.lane, l.pa, (act l.lane).body n)] })

/-- One group of an atomic: the buffer's entries for its sectors stand at their homes first (R248), and
uncorrectable data leaves it unperformed (R266), but for lanes that another package has performed. -/
def State.rmwGroup (k : Site) (scalar : Bool) (n : Nat) (act : Nat → AtomAct) (s : State) (x : Olds)
    (ls : List LaneAt) : State × Olds × Option Trap :=
  let s := ls.foldl (fun s l => s.settle k.core (sectorOf l.pa)) s
  if ls.any fun l => s.atomBad k l then
    let past := ls.filter fun l => (k.w.atomAnswer l.lane).any fun a => !a.2
    let y := past.foldl (State.rmwLane k n act) (s, x)
    (y.1, y.2, some { k.badTrap scalar ls (fun l => s.atomBad k l) with
      done := k.span scalar (past.map fun l => l.lane) })
  else
    let y := ls.foldl (State.rmwLane k n act) (s, x)
    (y.1, y.2, none)

end Sys2Proof.Machine
end

