-- ==== Sys2Proof/Machine/Global.lean ====
section
/-!
DEFINITION. The instructions on global memory: loads and stores (R148 to R153), LDACQ and STREL, the
atomics, FENCE, the watch set and CCTL (R255 to R274).
-/
namespace Sys2Proof

/-- Bytes of an access of a width (R148). -/
def MemW.bytes : MemW → Nat
  | .b8 => 1
  | .b16 => 2
  | .b32 => 4
  | .b64 => 8

def AcqW.bytes : AcqW → Nat
  | .b32 => 4
  | .b64 => 8

/-- The scope reaches beyond one core. -/
def Scope.wide (sc : Scope) : Bool := sc != .wf && sc != .sw

/-- The scope reaches beyond one die, so that an acquire reads at the home (R320). -/
def Scope.atHome (sc : Scope) : Bool := sc == .pk || sc == .rl || sc == .sy

/-- The scope reaches other packages, so that their homes acknowledge what is performed at it (R249). -/
def Scope.far (sc : Scope) : Bool := sc == .rl || sc == .sy

def Ord.acquires (c : Ord) : Bool := c == .acq || c == .ar
def Ord.releases (c : Ord) : Bool := c == .rel || c == .ar

namespace Machine

/-- The address of R148: pair plus sign-extended offset, modulo 2^64. -/
def Site.addrAt (k : Site) (a b : Src) (l : Nat) : DWord := k.addr a l + sext64 (k.val b l)

/-! ## LD, LDQ, ST, STQ, PREF -/

/-- The registers a load writes from the bytes it reads (R148). -/
def loadWords (w : MemW) (sgn : Bool) (bs : List Byte) : List Word :=
  let n := leNat bs
  match w with
  | .b8 => [if sgn then (BitVec.ofNat 8 n).signExtend 32 else w32 n]
  | .b16 => [if sgn then (BitVec.ofNat 16 n).signExtend 32 else w32 n]
  | .b32 => [w32 n]
  | .b64 => groupWords 2 n

/-- A plain load as a flight, or its trap. -/
def Site.plainLoad (k : Site) (s : State) (d : Dst) (g n : Nat) (scalar : Bool) (addr : Nat → DWord)
    (f : List Byte → List Word) : Eff :=
  match s.readLanes k scalar n false (k.accessLanes scalar addr) with
  | (s, .error t) => .trap s t
  | (s, .ok r) => k.withAnswers s r.asks (.fly (s.loupeLoad k false r) (k.loadFlight scalar d g r f))

def execLd (d : Dst) (a b : Src) (f sgn : Bool) (w : MemW) (s : State) : Out :=
  s.issue (.ld d a b f sgn w) fun k s =>
    k.plainLoad s d w.regs w.bytes (k.allScalar [d.toSrc, a, b]) (k.addrAt a b) (loadWords w sgn)

def execLdq (d : Dst) (a b : Src) (f : Bool) (s : State) : Out :=
  s.issue (.ldq d a b f) fun k s =>
    k.plainLoad s d 4 16 (k.allScalar [d.toSrc, a, b]) (k.addrAt a b) fun bs => groupWords 4 (leNat bs)

/-- A plain store: checks, then page groups (R149 to R152). -/
def Site.plainStore (k : Site) (s : State) (scalar : Bool) (d : Src) (n : Nat) (ls : List (Nat × DWord)) :
    State × Option Trap :=
  s.writeLanes k scalar n (fun l => k.dataBytes d n l) ls

def Site.store (k : Site) (s : State) (scalar : Bool) (d : Src) (n : Nat) (addr : Nat → DWord) : Eff :=
  let ls := k.accessLanes scalar addr
  match k.preCheck scalar true n ls with
  | some t => .trap s t
  | none =>
    match k.plainStore s scalar d n ls with
    | (s, some t) => .trap s t
    | (s, none) => .fly s k.flight

def execSt (d : CSrc) (a b : Src) (f : Bool) (w : MemW) (s : State) : Out :=
  s.issue (.st d a b f w) fun k s =>
    k.store s (k.allScalar [d.toSrc, a, b]) d.toSrc w.bytes (k.addrAt a b)

def execStq (d : CSrc) (a b : Src) (f : Bool) (s : State) : Out :=
  s.issue (.stq d a b f) fun k s =>
    k.store s (k.allScalar [d.toSrc, a, b]) d.toSrc 16 (k.addrAt a b)

/-- The physical sectors of lanes' addresses; an address that R153 and R274 drop gives none. These forms have no access
width, so no address is misaligned (log 101). -/
def State.laneSectors (s : State) (k : Site) (acc : Acc) (ls : List (Nat × DWord)) : State × List Nat :=
  ls.foldl (fun (x : State × List Nat) l =>
    if canonical l.2 then
      match x.1.access k.core k.clu k.sw.ctx acc l.2.toNat with
      | (s, .ok t) => (s, x.2 ++ [sectorOf t.pa])
      | (s, .error _) => (s, x.2)
    else x) (s, [])

/-- PREF brings sectors into the slice, with ownership under .wr, and changes no value; it has no width, so none of its
addresses is misaligned (R153, log 101). -/
def execPref (a b : Src) (w : Bool) (s : State) : Out :=
  s.issue (.pref a b w) fun k s =>
    let (s, secs) := s.laneSectors k (if w then .store else .load)
      (k.accessLanes (k.allScalar [a, b]) (k.addrAt a b))
    .done (secs.foldl (fun s sec => s.sliceTouch k.clu sec (if w then .own else .read)) s)

/-! ## LDACQ and STREL (R267) -/

def execLdacq (d : Dst) (a : Src) (sc : Scope) (f : Bool) (w : AcqW) (s : State) : Out :=
  s.issue (.ldacq d a sc f w) fun k s =>
    let scalar := k.allScalar [d.toSrc, a]
    match s.readLanes k scalar w.bytes sc.atHome (k.accessLanes scalar (k.addr a)) with
    | (s, .error t) => .trap s t
    | (s, .ok r) =>
      k.withAnswers s r.asks (.fly ((s.loupeLoad k false r).acquire k.die sc.wide)
        (k.loadFlight scalar d w.regs r fun bs => groupWords w.regs (leNat bs)))

/-- STREL: the checks, the release, the writes, and these performed at the scope too (R267). -/
def execStrel (d : CSrc) (a : Src) (sc : Scope) (f : Bool) (w : AcqW) (s : State) : Out :=
  s.issue (.strel d a sc f w) fun k s =>
    let scalar := k.allScalar [d.toSrc, a]
    let ls := k.accessLanes scalar (k.addr a)
    match k.preCheck scalar true w.bytes ls with
    | some t => .trap s t
    | none =>
      k.withRelease s sc.wide sc.far fun s =>
        match k.plainStore s scalar d.toSrc w.bytes ls with
        | (s, some t) => .trap s t
        | (s, none) => .fly (s.release k.core sc.wide) { k.flight with kind := if sc.far then .acks else .plain }

/-! ## ATOM, CAS, RED (R268 to R270) -/

/-- The operand of a lane as a number of `g` registers. -/
def Site.operand (k : Site) (d : Src) (g l : Nat) : Nat :=
  if g = 2 then (concat64 (k.word d 1 l) (k.word d 0 l)).toNat else (k.word d 0 l).toNat

/-- The atomics' common course: checks, the release part, the page groups in order, the acquire part. A
fault leaves the old values of the lanes performed in d (R266). -/
def Site.atomic (k : Site) (s : State) (d : Dst) (scalar : Bool) (n : Nat) (a : Src) (sc : Scope) (c : Ord)
    (act : Nat → AtomAct) : Eff :=
  let ls := k.accessLanes scalar (k.addr a)
  let g := n / 4
  let words := fun (x : Olds) => x.vals.map fun y => (y.1, groupWords g y.2)
  match k.preCheck scalar true n ls with
  | some t => .trap s t
  | none =>
    k.withRelease s (c.releases && sc.wide) (c.releases && sc.far) fun s =>
      match State.eachGroup k scalar true .atomic (State.rmwGroup k scalar n act) 32 ls 0 s ⟨[], []⟩ with
      | (s, x, done, t) =>
        if !x.asks.isEmpty then .hold s fun s => (s.release k.core (c.releases && sc.wide)).askAtomics k x.asks
        else
          match t with
          | some t => .trap (s.modWeft k.sid k.wid fun w => { k with act := done }.put w d g (words x)) t
          | none => .fly (s.acquire k.die (c.acquires && sc.wide)) (k.fly d g (words x))

def execAtom (d : Dst) (a : Src) (o : AtomOp) (sc : Scope) (f : Bool) (c : Ord) (w : Bool) (s : State) :
    Out :=
  s.issue (.atom d a o sc f c w) fun k s =>
    k.atomic s d (k.allScalar [d.toSrc, a]) (4 * grp w) a sc c fun l => .op o (k.operand d.toSrc (grp w) l)

/-- CAS: the compared value, then the value to write, stand in the operand group (R269). -/
def execCas (d : Dst) (a : Src) (sc : Scope) (f : Bool) (c : Ord) (w : Bool) (s : State) : Out :=
  s.issue (.cas d a sc f c w) fun k s =>
    let new := fun (l : Nat) =>
      if w then (concat64 (k.word d.toSrc 3 l) (k.word d.toSrc 2 l)).toNat
      else (k.word d.toSrc 1 l).toNat
    k.atomic s d (k.allScalar [d.toSrc, a]) (4 * grp w) a sc c fun l => .cas (k.operand d.toSrc (grp w) l) (new l)

/-- Additions that meet in a router: neighbouring operands of one address combine where the free value
says so (R257, log 10). -/
def combineAny (free x : Nat) : List Nat → List Nat
  | [] => [x]
  | y :: r =>
    if Config.combines (free + r.length) then combineAny free (fp32.add .rn x y).1 r
    else x :: combineAny free y r

/-- One group of RED.fadd.any: on a merge page of this package the lanes of one address may combine (R257). -/
def State.anyGroup (k : Site) (scalar : Bool) (op : Nat → Nat) (s : State) (x : Olds)
    (ls : List LaneAt) : State × Olds × Option Trap :=
  if !(ls.any fun l => pteAp l.leaf == 1 && s.here l.pa) then
    State.rmwGroup k scalar 4 (fun l => .op .fadd (op l)) s x ls
  else
    let s := ls.foldl (fun s l => s.settle k.core (sectorOf l.pa)) s
    let bad := fun (l : LaneAt) => (s.homeRead (sectorOf l.pa)).2
    if ls.any bad then (s, x, some (k.badTrap scalar ls bad))
    else
      (((dedup (ls.map fun l => l.pa)).foldl (fun s pa =>
        let xs := match (ls.filter fun l => l.pa == pa).map fun l => op l.lane with
          | x :: r => combineAny s.free x r
          | [] => []
        ((({ s with free := s.free + 32 } : State).rmw k.die pa 4 fun old =>
          some (xs.foldl (fun o v => atomNew .fadd 32 o v) old)).1).sliceTouch (homeSlice pa) (sectorOf pa) .write) s),
        x, none)

def execRed (d : CSrc) (a : Src) (o : AtomOp) (sc : Scope) (f rel any w : Bool) (s : State) : Out :=
  s.issue (.red d a o sc f rel any w) fun k s =>
    let scalar := k.allScalar [d.toSrc, a]
    let n := 4 * grp w
    let ls := k.accessLanes scalar (k.addr a)
    let op := fun (l : Nat) => k.operand d.toSrc (grp w) l
    let group := if any && !rel then State.anyGroup k scalar op
      else State.rmwGroup k scalar n fun l => .op o (op l)
    match k.preCheck scalar true n ls with
    | some t => .trap s t
    | none =>
      k.withRelease s (rel && sc.wide) (rel && sc.far) fun s =>
        match State.eachGroup k scalar true .atomic group 32 ls 0 s ⟨[], []⟩ with
        | (s, x, _, some t) => .trap (s.sendReductions k x.asks) t
        | (s, x, _, none) =>
          .fly (s.sendReductions k x.asks) { k.flight with kind := if x.asks.isEmpty then .plain else .acks }

/-! ## FENCE (R271) -/

def execFence (sc : Scope) (f : Bool) (kind : FenceK) (s : State) : Out :=
  s.issue (.fence sc f kind) fun k s =>
    k.withRelease s (kind != .acq && sc.wide) (kind != .acq && sc.far) fun s =>
      .fly (s.acquire k.die (kind != .rel && sc.wide)) k.flight

/-! ## The watch set (R259, R272, R273) -/

/-- Lanes add their sectors in ascending order; `none` with the first address that does not fit. -/
def watchAdd (full : Nat → Bool) : List (Nat × Nat × DWord) → List WatchEntry → Except DWord (List WatchEntry)
  | [], t => .ok t
  | (_, sec, va) :: r, t =>
    if t.any fun e => e.sector == sec then watchAdd full r t
    else if Config.watchEntries ≤ t.length then .error va
    else watchAdd full r (t ++ [⟨sec, false, full sec⟩])

/-- The watch table of a sector's home slice is full: it holds the entries of all wefts on that slice's sectors, but
for those it keeps by hash (R246, R259). -/
def State.watchFull (s : State) (sec : Nat) : Bool :=
  let n := (s.swatches.map fun p => (p.2.wefts.map fun q =>
    (q.2.watch.filter fun e => !e.hashed && homeSlice e.sector == homeSlice sec).length).sum).sum
  decide (Config.watchTable ≤ n)

/-- One group's lanes with their sectors. -/
def State.watchPages (s : State) (x : Tab (Nat × DWord)) (ls : List LaneAt) :
    State × Tab (Nat × DWord) × Option Trap :=
  (s, ls.foldl (fun t l => t.put l.lane (sectorOf l.pa, l.va)) x, none)

def execWatch (a : Src) (f : Bool) (s : State) : Out :=
  s.issue (.watch a f) fun k s =>
    let scalar := k.allScalar [a]
    let ls := k.accessLanes scalar (k.addr a)
    match k.preCheck scalar false 1 ls with
    | some t => .trap s t
    | none =>
      match State.eachGroup k scalar false .load State.watchPages 32 ls 0 s [] with
      | (s, _, _, some t) => .trap s { t with done := 0 }
      | (s, t, _, none) =>
        match watchAdd s.watchFull t k.w.watch with
        | .error va => .trap s ⟨0x16, k.act, va, w32 k.w.watch.length, 0⟩
        | .ok l => .fly (s.modWeft k.sid k.wid fun w => { w with watch := l }) k.flight

def execWatchClr (f : Bool) (s : State) : Out :=
  s.issue (.watchClr f) fun k s =>
    .fly (s.modWeft k.sid k.wid fun w => { w with watch := [] }) k.flight

/-- The mask of fired entries (R273). -/
def firedMask (t : List WatchEntry) : Nat :=
  t.foldr (fun e n => 2 * n + if e.fired then 1 else 0) 0

def execWaitw (d : Dst) (f nb : Bool) (s : State) : Out :=
  s.issue (.waitw d f nb) fun k s =>
    let s1 := if nb then s.served k true true else s
    if k.w.watch.isEmpty then .fly s1 (k.flyScalar d [0])
    else
      let m := firedMask k.w.watch
      if m = 0 then
        if nb then .fly (s.served k true false) k.flight else .wait s .watch 0
      else
        .fly (s1.modWeft k.sid k.wid fun w =>
          { w with watch := w.watch.map fun e => { e with fired := false } }) (k.flyScalar d [w32 m])

/-! ## CCTL (R274) -/

/-- The sectors of a CCTL's lanes. -/
def State.cctlSectors (s : State) (k : Site) (a : Src) : State × List Nat :=
  s.laneSectors k .load (k.accessLanes (k.allScalar [a]) (k.addr a))

/-- A sector is written back to its module; a pinned line is too, and stays. -/
def State.writeBack (s : State) (k : Site) (sec : Nat) : State :=
  let s := s.settle k.core sec
  s.modCluster k.clu fun c => { c with
    slice := c.slice.map fun x =>
      if x.line = sec / 128 then { x with dirty := x.dirty.filter fun y => y != sec } else x }

def execCctlWb (a : Src) (f : Bool) (s : State) : Out :=
  s.issue (.cctlWb a f) fun k s =>
    let (s, secs) := s.cctlSectors k a
    .fly (secs.foldl (fun s sec => s.writeBack k sec) s) k.flight

def execCctlInv (a : Src) (f : Bool) (s : State) : Out :=
  s.issue (.cctlInv a f) fun k s =>
    let (s, secs) := s.cctlSectors k a
    .fly (secs.foldl (fun s sec => (s.writeBack k sec).modCluster k.clu fun c =>
      { c with slice := sliceDrop c.slice sec }) s) k.flight

/-- A line becomes the least recently used of its slice. -/
def sliceDemote (l : List SliceLine) (sec : Nat) : List SliceLine :=
  (l.filter fun x => x.line == sec / 128) ++ l.filter fun x => x.line != sec / 128

def execCctlDemote (a : Src) (f : Bool) (s : State) : Out :=
  s.issue (.cctlDemote a f) fun k s =>
    let (s, secs) := s.cctlSectors k a
    .fly (s.modCluster k.clu fun c => { c with slice := secs.foldl sliceDemote c.slice }) k.flight

def execCctlIinv (f : Bool) (s : State) : Out :=
  s.issue (.cctlIinv f) fun k s =>
    .fly (s.modCluster k.clu fun c => { c with
      icache := c.icache.filter fun l => l.ctx != k.sw.ctx }) k.flight

end Machine
end Sys2Proof
end

