-- ==== Sys2Proof/Machine/Control.lean ====
section
/-!
DEFINITION. Branches and calls, EXIT, YIELD, NOP, WINB, IPREF, TRAP, ELECT, ERET, FRENT and FRSET
(R25, R119, R126 to R134, R137, R138).
-/
namespace Sys2Proof.Machine

/-! ## Code lines -/

/-- A line enters the instruction cache (R246, R261): of its set, taken by its line number, the oldest of eight
leaves (log 102). -/
def icacheInsert (l : List ILine) (x : ILine) : List ILine :=
  let rest := l.filter fun y => !(y.ctx == x.ctx && y.line == x.line)
  let same := rest.filter fun y => y.line / 64 % Config.icacheSets == x.line / 64 % Config.icacheSets
  let rest := if same.length < Config.icacheWays then rest
    else match same with
      | y :: _ => rest.erase y
      | [] => rest
  rest ++ [x]

/-- Read one 64-byte line of code through the cluster's TLB and slice into its instruction cache (R261,
R314): an execute permission fault or a missing page answers the cause and installs nothing; a line of another
package comes when its home has answered (R395). -/
def State.fillLine (s : State) (clu : Nat) (ctx : Word) (line : Nat) : State × Except Nat Unit :=
  match s.fetchAccess clu ctx line with
  | (s, .error e) => (s, .error e)
  | (s, .ok t) =>
    let need := s.unanswered (s.cluster clu).away t.pa 64
    if !need.isEmpty then
      let x := s.askReads none (dieOfCluster clu) (s.cluster clu).away need
      (x.1.modCluster clu fun k => { k with away := x.2 }, .ok ())
    else
      let (s, bs, _) := s.loadBytes none (dieOfCluster clu) (s.cluster clu).away t.pa 64 false
      let words := (List.range 16).map fun i => w32 (leNat ((bs.drop (4 * i)).take 4))
      (s.modCluster clu fun k => { k with icache := icacheInsert k.icache ⟨ctx, line, words⟩, away := [] }, .ok ())

/-- The line that holds a code offset is in the cluster's cache. -/
def State.hasLine (s : State) (clu : Nat) (ctx : Word) (off : Nat) : Bool :=
  (s.cluster clu).icache.any fun l => l.ctx == ctx && l.line == off / 64 * 64

/-- Lines of the code segment that a prefetch asks for (R132). -/
def State.prefetchLines (s : State) (clu : Nat) (ctx : Word) (line : Int) : Nat → State
  | 0 => s
  | n + 1 =>
    let s := if 0 ≤ line && line < s.codeSize ctx && !s.hasLine clu ctx line.toNat then
        (s.fillLine clu ctx line.toNat).1 else s
    s.prefetchLines clu ctx (line + 64) n

/-! ## Branches (R126 to R129) -/

/-- Lanes a predicate form names among the active lanes. -/
def Site.predLanes (k : Site) (inv : Bool) (n : PReg) : Mask :=
  k.act &&& (if inv then ~~~(k.w.pred n.val) else k.w.pred n.val)

def execBra (c : BraCond) (d : BitVec 18) (s : State) : Out :=
  s.issue (.bra c d) fun k s =>
    let go := match c with
      | .always => k.act
      | .pred inv n => k.predLanes inv n
    k.branch s (.bra c d) (k.target d) go

def execBrx (c : CSrc) (d : BitVec 18) (s : State) : Out :=
  s.issue (.brx c d) fun k s =>
    k.branch s (.brx c d) (k.target d) (if k.scalar c.toSrc = 0 then 0 else k.act)

def execBrz (c : CSrc) (d : BitVec 18) (s : State) : Out :=
  s.issue (.brz c d) fun k s =>
    k.branch s (.brz c d) (k.target d) (if k.scalar c.toSrc = 0 then k.act else 0)

/-- CALL writes the return offset, then moves (R128); a bad target writes nothing (R126). -/
def execCall (c : VReg) (d : BitVec 18) (s : State) : Out :=
  s.issue (.call c d) fun k s =>
    let s' := s.modWeft k.sid k.wid fun w =>
      { w.vput (16 * k.w.vwin + c.val) k.act (lanesFn fun _ => codeOffset k.fallTo) with
        loupe := w.loupe.taken k.e.pc (codeOffset (k.target d)) }
    k.moveLanes s s' (.call c d) [(k.target d, k.act), (k.fallTo, k.e.mask &&& ~~~k.act)]

/-- Lanes of a mask by the offset each takes, in ascending order of the first lane. -/
def laneGroups (m : Mask) (f : Nat → Word) : List (Word × Mask) :=
  (dedup ((lanesOf m).map f)).map fun t => (t, m &&& maskOf fun l => f l == t)

def execJmpi (a : Src) (s : State) : Out :=
  s.issue (.jmpi a) fun k s =>
    let moves := (laneGroups k.act fun l => k.val a l).map fun m => ((m.1.toNat : Int), m.2)
    let s' := s.modWeft k.sid k.wid fun w =>
      { w with loupe := moves.foldl (fun l m => l.taken k.e.pc (codeOffset m.1)) w.loupe }
    k.moveLanes s s' (.jmpi a) (moves ++ [(k.fallTo, k.e.mask &&& ~~~k.act)])

/-! ## EXIT, YIELD, NOP (R130, R131) -/

/-- Lanes leave the live set; a task lane that exits lowers its launch's count (R204); in trap mode they
also leave the snapshot (R130). -/
def State.exitLanes (s : State) (k : Site) (m : Mask) : State :=
  let s := if k.w.task.isSome then
      s.modLaunch k.sw.launch fun l => { l with liveTasks := l.liveTasks - popCount m }
    else s
  let s := s.modWeft k.sid k.wid fun w =>
    let snap := if w.trapMode then
        (w.trec.snap.map fun e => { e with mask := e.mask &&& ~~~m }).filter fun e => e.mask != 0
      else w.trec.snap
    { w with exited := w.exited ||| m, trec := { w.trec with snap := snap } }
  match s.weft? k.sid k.wid with
  | none => s
  | some w =>
    if w.live = 0 then
      (s.modWeft k.sid k.wid fun w => { w with ended := true, frontier := [] }).weftEnds k.sid k.wid
    else s

def execExit (c : ExitCond) (s : State) : Out :=
  s.issue (.exit c) fun k s =>
    let m := match c with
      | .always => k.act
      | .pred n => k.predLanes false n
    let rest := k.e.mask &&& ~~~m
    let s' := s.exitLanes k m
    let past := ((s'.weft? k.sid k.wid).map fun w => w.ended).getD true
    if past then .leave s' [] else k.moveLanes s s' (.exit c) [(k.fallTo, rest)]

/-- The quadrant a weft stands in. -/
def Weft.quad? (w : Weft) : Option Nat :=
  match w.place with
  | .slot q _ => some q
  | .absent => none

def execYield (s : State) : Out :=
  s.issue .yield fun k s =>
    let s' := s.modWeft k.sid k.wid fun w => { w with readySince := s.turn }
    let s' := match k.core, k.w.quad? with
      | some c, some q => s'.modCore c fun x => { x with recent := x.recent.del q }
      | _, _ => s'
    k.moveLanes s s' .yield [(k.fallTo, k.e.mask)]

def execNop (s : State) : Out := s.issue .nop fun _ s => .done s

/-! ## WINB, IPREF, TRAP, ELECT -/

/-- WINB sets both windows for the words that follow (R25). -/
def execWinb (a v : BitVec 4) (s : State) : Out :=
  s.issue (.winb a v) fun k s =>
    .done (s.modWeft k.sid k.wid fun w => { w with vwin := v.toNat, swin := a.toNat })

def execIpref (c : BitVec 7) (d : BitVec 18) (s : State) : Out :=
  s.issue (.ipref c d) fun k s =>
    .done (s.prefetchLines k.clu k.sw.ctx (k.target d / 64 * 64) c.toNat)

/-- TRAP: the software trap, or the breakpoint for 0xFF (R133). -/
def execTrap (n : BitVec 8) (s : State) : Out :=
  s.issue (.trap n) fun k s =>
    .trap s (mkTrap (if n = 0xFF then 0x14 else 0x13) k.act (n.setWidth 32))

/-- ELECT (R134): all other active lanes become false, none outside changes. -/
def execElect (p : PReg) (s : State) : Out :=
  s.issue (.elect p) fun k s => k.setPred s p fun l => (l == lowestLane k.act, 0)

/-! ## Leaving and editing a trap (R119, R137, R138) -/

def execEret (s : State) : Out :=
  s.issue .eret fun k s =>
    let s := s.modWeft k.sid k.wid fun w => s.eret k.clu k.sw.ctx w
    if ((s.weft? k.sid k.wid).map fun w => w.ended).getD false then .past (s.weftEnds k.sid k.wid)
    else .past s

/-- FRENT: one entry of the snapshot into a quad (R137). -/
def execFrent (d : Dst) (a : Src) (s : State) : Out :=
  s.issue (.frent d a) fun k s =>
    let e := k.w.trec.snap.getD (k.scalar a).toNat ⟨0, 0, 0, 0, false⟩
    let st : Word := w32 (e.prio + if e.barWait then 2 ^ 31 else 0)
    k.alu s d 4 fun _ => ([e.pc, e.hdr, st, e.mask], 0)

def execFrentLanes (d : Dst) (s : State) : Out :=
  s.issue (.frentLanes d) fun k s =>
    k.alu s d 4 fun _ => ([k.w.live, k.w.parkedMask &&& ~~~k.w.exited, k.w.exited, 0], 0)

/-- Entries of one pc are one, at the place of the first; empty entries go (R138). -/
def snapMerge (snap : List Entry) : List Entry := snap.foldl joinAt []

/-- Lanes leave their snapshot entries (R138). -/
def snapDrop (snap : List Entry) (m : Mask) : List Entry :=
  snapMerge (snap.map fun e => { e with mask := e.mask &&& ~~~m })

/-- Lanes come to stand at a pc: they join its entry, whose hdr and barrier-wait bit stay (log 97), or form one
among the new ones in ascending pc. -/
def snapAdd (snap fresh : List Entry) (e : Entry) : List Entry × List Entry :=
  let join := fun (x : Entry) => if x.pc = e.pc then { x with mask := x.mask ||| e.mask } else x
  if snap.any fun x => x.pc == e.pc then (snap.map join, fresh)
  else if fresh.any fun x => x.pc == e.pc then (snap, fresh.map join)
  else
    (snap, fresh.takeWhile (fun x => decide (x.pc.toNat < e.pc.toNat)) ++ [e] ++
      fresh.dropWhile fun x => decide (x.pc.toNat < e.pc.toNat))

/-- The prio FRENT shows for a new entry (R138). -/
def State.snapPrio (s : State) (clu : Nat) (ctx : Word) (pc : Word) : Nat :=
  if badTarget (s.codeSize ctx) pc then 0 else s.prioAt clu ctx pc

/-- Place lanes at their new pcs. -/
def State.snapPlace (s : State) (k : Site) (snap : List Entry) (stand : List (Word × Word × Mask)) :
    List Entry :=
  let r := stand.foldl (fun (r : List Entry × List Entry) x =>
    snapAdd r.1 r.2 ⟨x.1, x.2.1, s.snapPrio k.clu k.sw.ctx x.1, x.2.2, false⟩) (snap, [])
  r.1 ++ r.2

/-- The weft with its snapshot as edited and its parked lanes; what parking does to the handler's own entry stands at
`Site.parkFrontier` (log 97). When no entry keeps the barrier-wait bit any more,
the BAR is neither abandoned nor repeated: only its count stays until its phase ends (R138). -/
def Weft.editSnap (w : Weft) (snap : List Entry) (parked : Tab (Word × Word)) : Weft :=
  { w with
    trec := { w.trec with snap := snap }, parked := parked
    barSaved := if anyBarWait snap then w.barSaved else none }

/-- Lanes that FRSET names and that have not exited. -/
def Site.frLanes (k : Site) (d : Dst) : Mask := k.scalar d.toSrc &&& ~~~k.w.exited

/-- The parked lanes without those of a mask. -/
def Site.unparked (k : Site) (m : Mask) : Tab (Word × Word) := k.w.parked.filter fun p => !m.getLsbD p.1

def execFrsetPc (d : Dst) (a : Src) (s : State) : Out :=
  s.issue (.frsetPc d a) fun k s =>
    let m := k.frLanes d
    let t := k.scalar a
    let snap := snapDrop k.w.trec.snap m
    let snap := if m = 0 then snap else s.snapPlace k snap [(t, t, m)]
    .done (s.modWeft k.sid k.wid fun w => w.editSnap snap (k.unparked m))

/-- The mask of the handler's running entry without lanes that are parked; it keeps them where none would be
left, so that the handler runs on (log 97). -/
def Site.keptMask (k : Site) (m : Mask) : Mask := if k.e.mask &&& ~~~m = 0 then k.e.mask else k.e.mask &&& ~~~m

/-- Parked lanes are live no longer: they leave the handler's frontier too (R12, R100). -/
def Site.parkFrontier (k : Site) (m : Mask) (fr : List Entry) : List Entry :=
  match fr with
  | [] => []
  | e :: es => { e with mask := k.keptMask m } ::
      (es.map fun x => { x with mask := x.mask &&& ~~~m }).filter fun x => x.mask != 0

def execFrsetPark (d : Dst) (s : State) : Out :=
  s.issue (.frsetPark d) fun k s =>
    let m := k.frLanes d
    let parked := k.w.trec.snap.foldl (fun t e =>
      (lanesOf (e.mask &&& m)).foldl (fun t l => t.put l (e.pc, e.hdr)) t) k.w.parked
    let s := s.modWeft k.sid k.wid fun w =>
      { w.editSnap (snapDrop k.w.trec.snap m) parked with frontier := k.parkFrontier m w.frontier }
    .past (s.retire { k with e := { k.e with mask := k.keptMask m } } (.frsetPark d))

/-- An unparked lane stands in the snapshot; the handler goes on with the lanes it has (log 97). -/
def execFrsetUnpark (d : Dst) (s : State) : Out :=
  s.issue (.frsetUnpark d) fun k s =>
    let m := k.frLanes d
    let back := k.w.parked.filter fun p => m.getLsbD p.1
    let stand := back.map fun p => (p.2.1, p.2.2, (1#32 <<< p.1 : Mask))
    let snap := s.snapPlace k (snapMerge k.w.trec.snap) stand
    .done (s.modWeft k.sid k.wid fun w => w.editSnap snap (k.unparked m))

end Sys2Proof.Machine
end

