-- ==== Sys2Proof/Machine/Issue.lean ====
section
/-!
DEFINITION. The steps of a weft that are no instruction: selecting an entry and fetching its clause
with the checks of R15, R19, R20 and R22, boundary traps, completions of long-latency instructions,
the slot's release, line fills, the loupe's classification, the hang record, `griudb` stops, and a
word that is no instruction.
-/
namespace Sys2Proof.Machine

/-! ## Clause format (R19, R20) -/

/-- The slots of header word 0 are well formed. -/
def slotsOk (h0 : Nat) : Bool :=
  let slot := fun (v f : Nat) => if v = 1 then decide (f < 12) else f == 0
  slot (nbits h0 24 24) (nbits h0 23 20) && slot (nbits h0 19 19) (nbits h0 18 15)

/-- One operand's last-use and reuse bits against its code. -/
def operandOk (last reuse has : Bool) (code : Nat) : Bool :=
  !(last && reuse) && (!(last || reuse) || !has || decide (code < 112))

/-- The words of a clause from position j on, `skip` of them literals of the word before. -/
def wordsOk (h1 : Nat) : Nat → Nat → List Word → Bool
  | _, skip, [] => skip == 0
  | j, skip + 1, _ :: ws =>
    !(h1.testBit (2 * j) || h1.testBit (2 * j + 1) || h1.testBit (16 + 2 * j) ||
      h1.testBit (17 + 2 * j)) && wordsOk h1 (j + 1) skip ws
  | j, 0, w :: ws =>
    let n := w.toNat
    let lits := literalCount n
    let forms := operandForms n
    operandOk (h1.testBit (2 * j)) (h1.testBit (16 + 2 * j)) forms.1 (n / 2048 % 128) &&
      operandOk (h1.testBit (2 * j + 1)) (h1.testBit (17 + 2 * j)) forms.2 (n / 16 % 128) &&
      (!endsWord n || decide (ws.length ≤ lits)) && wordsOk h1 (j + 1) lits ws

/-- The checks made when the clause is fetched: `n` bits beyond the last word are zero. -/
def clauseOk (h0 h1 : Word) (ws : List Word) : Bool :=
  let n := clauseLen h0
  slotsOk h0.toNat && h1.toNat % 2 ^ 16 / 2 ^ (2 * n) == 0 && h1.toNat / 2 ^ 16 / 2 ^ (2 * n) == 0 &&
    wordsOk h1.toNat 0 0 ws

/-! ## Fetching -/

/-- Lines that hold the header and the words of a clause. -/
def clauseLines (hdr : Nat) (n : Nat) : List Nat :=
  rangeFrom (hdr / 64) ((hdr + 8 + 4 * n - 1) / 64 - hdr / 64 + 1) |>.map fun i => 64 * i

/-- Words of a clause from its cached lines. -/
def State.clauseWords (s : State) (clu : Nat) (ctx : Word) (hdr n : Nat) : List Word :=
  (List.range n).map fun j => (s.cachedWord clu ctx (hdr + 8 + 4 * j)).getD 0

/-- The first line a clause needs that the cache lacks (its length is known once its header is
cached). -/
def State.missingLine (s : State) (clu : Nat) (ctx : Word) (hdr : Nat) : Option Nat :=
  match s.cachedWord clu ctx hdr with
  | none => some (hdr / 64 * 64)
  | some h0 => (clauseLines hdr (clauseLen h0)).find? fun l => !s.hasLine clu ctx l

/-- A fetch fault (R314): the cause and the address that misses. -/
def State.fetchFault (s : State) (clu : Nat) (ctx : Word) (hdr line : Nat) : Option (Nat × Nat) :=
  match s.ctx? ctx with
  | none => some (0x08, max hdr line)
  | some c =>
    match (s.fetchAccess clu ctx line).2 with
    | .error e => some (e, c.code + max hdr line)
    | .ok _ => none

/-! ## CLAUSE_SELECT (R101) -/

/-- The safelight's count at an issue of a clause by an entry (R124). The model's choices (log 113): the count stands
at 2^20 once there, and an entry that shares a lane with the one that issued last is the same top entry. -/
def Weft.safelightNext (w : Weft) (e : Entry) : Nat :=
  if 2 ≤ w.frontier.length && w.loupe.polling && (e.mask &&& w.topMask) != 0 then
    min (w.safelight + 1) Config.safelightLimit
  else 0

/-- The loupe at the issue of a clause: another top entry, or a wake of a sleeping poller, withdraws its
classification (R237, R238). -/
def Weft.loupeNext (w : Weft) (e : Entry) : Loupe :=
  if (e.mask &&& w.topMask) = 0 then Loupe.idle
  else if w.loupe.polling && w.loupe.fired && w.frontier.length == 1 then Loupe.idle
  else w.loupe.clause

/-- The selected entry begins its clause. -/
def Weft.beginClause (w : Weft) (fr : List Entry) (e : Entry) (h0 h1 : Word) : Weft :=
  let n := w.safelightNext e
  { w with
    frontier := fr, clause := some ⟨h0, h1, false⟩, latch := []
    safelight := n, hangPosted := if n = 0 then false else w.hangPosted
    loupe := w.loupeNext e, topMask := e.mask, fresh := false, passed := false }

/-- A weft stands at a clause boundary and may select (R101). -/
def Weft.atBoundary (w : Weft) : Bool := w.clause.isNone && w.wait.isNone

/-- A weft has issued no word of a clause that it has not finished: it may be stopped here (R155, R232, R364,
R368). -/
def Weft.atRest (w : Weft) : Bool :=
  w.wait.isNone && match w.clause with
    | some cl => !cl.tested
    | none => true

/-- A swatch stands on a core, or is a control core's. -/
def Swatch.onCore (sw : Swatch) : Bool := sw.control.isSome || sw.core?.isSome

/-- The weft may issue at all: resident, not ended, not halted. -/
def Weft.canIssue (w : Weft) : Bool := w.place != .absent && !w.ended && w.halted.isNone

/-- The context is halted by HALT (R368). -/
def State.ctxHalted (s : State) (ctx : Word) : Bool := ((s.ctx? ctx).map fun c => c.halted).getD false

/-- Every resident weft of a context stands at a clause boundary or at its waiting instruction (R368). -/
def State.allStopped (s : State) (ctx : Word) : Bool :=
  s.swatches.all fun p => p.2.ctx != ctx || p.2.wefts.all fun q =>
    q.2.place == .absent || q.2.ended || q.2.halted.isSome || q.2.atRest || q.2.wait.isSome

/-- Every access that a context made under an older translation has delivered its data or taken its place at its
home, on another package too (R316). -/
def State.accessesDone (s : State) (ctx : Word) (gen : Nat) : Bool :=
  s.pkg.acked && s.swatches.all fun p => p.2.ctx != ctx || p.2.wefts.all fun q =>
    q.2.flights.all fun f => f.kind != .plain || decide (gen ≤ f.gen)

/-- A HALT that waits in this form may complete, since every weft has stopped; or a TLBINV or PGATTR, since the
accesses it waits for are over. -/
def State.haltOver (s : State) (f : WaitForm) : Bool :=
  match f with
  | .halt c => s.allStopped c
  | .tlbinv c g _ => s.accessesDone c g
  | _ => false

/-- The context is stopped by `griudb` (R155, R245). -/
def State.griudbStopped (s : State) (ctx : Word) : Bool := s.pkg.stoppedCtx.contains ctx

/-- The context stops for `griudb`. -/
def State.stopCtx (s : State) (ctx : Word) : State :=
  s.modPkg fun p => { p with stoppedCtx := if p.stoppedCtx.contains ctx then p.stoppedCtx else p.stoppedCtx ++ [ctx] }

/-- The weft would select an entry at a breakpoint of its context at which it has not stopped yet (R155). -/
def State.atBreak (s : State) (sw : Swatch) (w : Weft) : Bool :=
  w.canIssue && w.atBoundary && !w.passed &&
    match sortFrontier w.frontier with
    | e :: _ => s.pkg.breaks.contains (sw.ctx, e.pc)
    | [] => false

/-- CLAUSE_SELECT: the top entry's clause is fetched and checked, and begins, or its trap is taken. -/
def State.clauseSelect (s : State) (sid wid : Nat) : State :=
  match s.swatch? sid, s.weft? sid wid with
  | some sw, some w =>
    let clu := sw.clu
    let fr := sortFrontier w.frontier
    match fr with
    | [] => s
    | e :: _ =>
      if !w.canIssue || !w.atBoundary || s.atBreak sw w || s.griudbStopped sw.ctx then s
      else
        let s := s.modWeft sid wid fun w => { w with frontier := fr }
        let hdr := e.hdr.toNat
        if badTarget (s.codeSize sw.ctx) e.hdr then
          s.takeTrap sid wid ⟨0x04, e.mask, e.hdr.setWidth 64, 0, 0⟩ e.pc
        else
          match s.missingLine clu sw.ctx hdr with
          | some line =>
            match s.fetchFault clu sw.ctx hdr line with
            | some (c, a) => s.takeTrap sid wid ⟨c, e.mask, w64 a, 2, 0⟩ e.pc
            | none => s
          | none =>
            let h0 := (s.cachedWord clu sw.ctx hdr).getD 0
            let h1 := (s.cachedWord clu sw.ctx (hdr + 4)).getD 0
            if h0 = 0 then s.takeTrap sid wid (mkTrap 0x02 e.mask 0) e.hdr
            else if !clauseOk h0 h1 (s.clauseWords clu sw.ctx hdr (clauseLen h0)) then
              s.takeTrap sid wid (mkTrap 0x1A e.mask h0) e.hdr
            else s.modWeft sid wid fun w => w.beginClause fr e h0 h1
  | _, _ => s

def execClauseSelect (sid wid : Nat) (s : State) : Out := .next (s.clauseSelect sid wid)

/-! ## BOUNDARY_TRAP (R120) -/

/-- The pending trap that is taken next, and what stays pending. -/
def Pending.take (p : Pending) (top : Entry) : Option (Trap × Pending) :=
  match p.copyError with
  | (a, j) :: rest => some (⟨0x10, 0, a, j, 0⟩, { p with copyError := rest })
  | [] =>
    match p.arrayMismatch with
    | t :: rest => some (⟨0x11, 0, 0, t, 0⟩, { p with arrayMismatch := rest })
    | [] =>
      match p.deadlineRisk with
      | n :: rest => some (⟨0x12, 0, 0, n, 0⟩, { p with deadlineRisk := rest })
      | [] =>
        if p.hang then some (⟨0x19, top.mask, 0, top.pc, 0⟩, { p with hang := false }) else .none

def WaitForm.isBar : WaitForm → Bool
  | .bar _ _ _ => true
  | _ => false

/-- A weft leaves the waiting lists of its swatch's queues (R201). -/
def Swatch.leaveQueues (sw : Swatch) (wid : Nat) : Swatch :=
  { sw with hwq := sw.hwq.map fun p =>
      (p.1, { p.2 with
        poppers := p.2.poppers.filter fun x => x != wid
        pushers := p.2.pushers.filter fun x => x.1 != wid }) }

/-- The weft waits in a form that a boundary trap leaves (R120): CTAB's wait is none of them. A wait that an event
has ended is over: its instruction is tested first (R201, R340). -/
def Weft.leavable (w : Weft) : Bool :=
  match w.wait with
  | some x =>
    !x.woken && match x.form with
    | .jobsDone _ => false
    | .halt _ => false
    | .quiesce _ => false
    | .tlbinv _ _ _ => false
    | _ => true
  | none => false

/-- An item has reached the waiting weft: its instruction completes before the trap is taken (R201). -/
def Weft.itemHeld (w : Weft) : Bool := (w.wait.bind fun x => x.item).isSome

/-- Lanes that the waiting instruction has performed, before an earlier trap too (R120, R409). -/
def Weft.performed (w : Weft) : Mask :=
  match w.wait, w.frontier with
  | some x, e :: _ => x.done ||| (w.skipAt e.pc &&& e.mask)
  | _, _ => 0

/-- A boundary trap can be taken (R120): the weft has reached a clause boundary in user mode, where its top entry
stands at the header that it would issue next (R115), or it waits in a form that the trap leaves. A clause that is
selected and whose wait mask has not been met has not issued: the weft stands at a boundary (log 98). -/
def Weft.trapPoint (w : Weft) : Bool :=
  w.canIssue && !w.trapMode && !w.itemHeld &&
    (w.leavable || (w.atRest && (match sortFrontier w.frontier with
      | e :: _ => e.pc == e.hdr
      | [] => false)))

/-- A pending trap is taken at a boundary or at the waiting instruction; tpc is the top entry's header or the waiting
word (R115, R120, log 98). -/
def State.boundaryTrap (s : State) (sid wid : Nat) : State :=
  match s.swatch? sid, s.weft? sid wid with
  | some sw, some w =>
    let fr := if w.clause.isSome && w.wait.isSome then w.frontier
      else if w.wait.isSome then barFirst w.frontier else sortFrontier w.frontier
    match fr with
    | [] => s
    | e :: _ =>
      if !w.trapPoint then s
      else
        match w.pend.take e with
        | none => s
        | some (t, rest) =>
          let bar := (w.wait.map fun x => x.form.isBar).getD false
          let done := w.performed
          let vec := s.trapvec sw
          let s := s.modSwatch sid fun sw => sw.leaveQueues wid
          s.modWeft sid wid fun w =>
            ({ w with frontier := fr, pend := rest } : Weft).enterTrap vec { t with done := done } true
              e.pc bar
  | _, _ => s

def execBoundaryTrap (sid wid : Nat) (s : State) : Out := .next (s.boundaryTrap sid wid)

/-! ## Completions -/

/-- The registers and the fstat bits a flight writes at completion, with its poison marks (R103, R122). -/
def Weft.land (w : Weft) (f : Flight) : Weft :=
  let w := f.vwr.foldl (fun w x => w.vput x.1 x.2.1 x.2.2) w
  let w := f.swr.foldl (fun w x => w.sput x.1 x.2) w
  let w := match f.poison with
    | some p =>
      let w := f.vwr.foldl (fun (w : Weft) (x : Nat × Mask × Lanes) => w.markPoison p (.v x.1)) w
      f.swr.foldl (fun (w : Weft) (x : Nat × Word) => w.markPoison p (.s x.1)) w
    | none => w
  { w.flagDec f.flag with fstat := w.fstat ||| f.fst }

/-- Remove a flight by its place. -/
def Weft.dropFlight (w : Weft) (ix : Nat) : Weft :=
  { w with flights := w.flights.take ix ++ w.flights.drop (ix + 1) }

/-- A flight that this event may complete: the others wait for their job, collective or phase. -/
def FlightKind.selfCompleting : FlightKind → Bool
  | .plain => true
  | .enlarger => true
  | .spadWrite _ _ => true
  | .acks => true
  | _ => false

/-- A job of the swatch uses the shape record (R189, R190). -/
def State.recordBusy (s : State) (sid rec : Nat) : Bool :=
  s.cores.any fun c => c.2.jobs.any fun j => j.kind != .firmware && j.sid == sid && j.record == rec

/-- A flight that LONG_LATENCY_COMPLETION may complete now. -/
def State.flightReady (s : State) (sid : Nat) (f : Flight) : Bool :=
  match f.kind with
  | .unshape rec => !s.recordBusy sid rec
  | .acks => s.pkg.acked
  | k => k.selfCompleting

/-- Scratchpad bytes and descriptors that HAD or ACCRD write at completion (R215). -/
def Swatch.spadLand (sw : Swatch) (bytes : Tab Byte) (descs : Tab Word) : Swatch :=
  { sw with
    spad := bytes.foldl (fun m p => memPut m p.1 p.2) sw.spad
    spadBad := sw.spadBad.filter fun x =>
      !((rangeFrom x 32).all fun a => (bytes.get? a).isSome)
    descs := descs.foldl (fun m p => m.store p.1 p.2 0) sw.descs }

/-- The loupe's scratchpad watches see a write (R238). -/
def Swatch.seeSpad (sw : Swatch) (secs : List Nat) (t : Nat) : Swatch :=
  { sw with wefts := sw.wefts.map fun p => (p.1, secs.foldl (fun w x => w.seePoll true x t) p.2) }

/-- Absent pollers of a swatch that a scratchpad write wakes, each with the sector it watches. -/
def Swatch.spadPollers (sw : Swatch) (secs : List Nat) : List (Nat × Nat) :=
  sw.wefts.filterMap fun p =>
    if p.2.place == .absent && p.2.loupe.polling then
      (secs.find? fun x => p.2.loupe.watch.contains (true, x)).map fun x => (p.1, x)
    else none

/-- Bytes take their place in a swatch's scratchpad (R164), and its pollers wake. -/
def State.spadWrite (s : State) (sid : Nat) (bytes : Tab Byte) (descs : Tab Word) : State :=
  let secs := dedup (bytes.map fun p => sectorOf p.1)
  let wake := ((s.swatch? sid).map fun sw => sw.spadPollers secs).getD []
  let s := s.modSwatch sid fun sw => (sw.spadLand bytes descs).seeSpad secs s.turn
  wake.foldl (fun s x => s.wakeWeft sid x.1 6 0 (w32 x.2)) s

/-- A long-latency instruction completes. -/
def State.complete (s : State) (sid wid ix : Nat) : State :=
  match s.weft? sid wid with
  | none => s
  | some w =>
    match w.flights[ix]? with
    | none => s
    | some f =>
      let s := match f.kind with
        | .spadWrite bytes descs => s.spadWrite sid bytes descs
        | .unshape rec => s.modSwatch sid fun sw => { sw with shapes := sw.shapes.del rec }
        | _ => s
      s.modWeft sid wid fun w => (w.land f).dropFlight ix

def execLongLatencyCompletion (sid wid ix : Nat) (s : State) : Out :=
  match (s.weft? sid wid).bind fun w => w.flights[ix]? with
  | some f => .next (if s.flightReady sid f then s.complete sid wid ix else s)
  | none => .next s

/-- EXPOSURE_COMPLETION (R221): the rows hold their results; the count falls. -/
def execExposureCompletion (sid wid ix : Nat) (s : State) : Out :=
  match (s.weft? sid wid).bind fun w => w.flights[ix]? with
  | some f => .next (if f.kind.exposes.isSome then s.complete sid wid ix else s)
  | none => .next s

/-- Every flag of the weft is zero. -/
def Weft.flagsZero (w : Weft) : Bool := w.flags.all fun p => p.2 == 0

/-- WEFT_SLOT_RELEASE: an ended weft whose flags are all zero leaves its slot (R103). -/
def execWeftSlotRelease (sid wid : Nat) (s : State) : Out :=
  .next (s.modWeft sid wid fun w =>
    if w.ended && w.flagsZero && w.flights.isEmpty then { w with place := .absent, leaving := none }
    else w)

/-- ICACHE_FILL: the line arrives; the wefts that missed it counted slip meanwhile, unless the clock stood (R106, R107, R261). -/
def execIcacheFill (cl : Nat) (ctx : Word) (line : Nat) (s : State) : Out :=
  let missed := fun (p : Nat × Weft) (sw : Swatch) => sw.ctx == ctx && sw.clu == cl && sw.onCore && p.2.canIssue &&
    p.2.atBoundary && (match sortFrontier p.2.frontier with
      | e :: _ => s.missingLine cl ctx e.hdr.toNat == some line
      | [] => false)
  let s' : State := { s with swatches := s.swatches.map fun (q : Nat × Swatch) =>
    (q.1, { q.2 with wefts := q.2.wefts.map fun (p : Nat × Weft) =>
      (p.1, if missed p q.2 then
        { p.2 with slip := (p.2.slip + Config.slipCycles s.free) % 2 ^ 64 } else p.2) }) }
  .next ((if (s.cluster cl).clock = .running then s' else s).fillLine cl ctx line).1

/-! ## The loupe and the safelight -/

/-- POLLING_CLASSIFICATION: eight iterations have counted; the implicit watch covers the sectors of the
last one, and a write to one of them since its last load has fired it (R237, R238, R301). -/
def Weft.classify (w : Weft) (turn : Nat) : Weft :=
  if w.loupe.tracking && !w.loupe.polling && 8 ≤ w.loupe.count then
    { w with
      candSince := turn
      loupe := { w.loupe with
        polling := true, watch := loadedSectors (w.loupe.lastLoads.getD [])
        fired := (loadedSectors (w.loupe.lastLoads.getD [])).any fun x => w.loupe.stale.contains x } }
  else w

def execPollingClassification (sid wid : Nat) (s : State) : Out :=
  .next (s.modWeft sid wid fun w => w.classify s.turn)

/-- HANG_RECORD: the record of R125, hng, and the hang trap when enabled (R124). -/
def execHangRecord (sid wid : Nat) (s : State) : Out :=
  match s.swatch? sid, s.weft? sid wid with
  | some sw, some w =>
    match sortFrontier w.frontier with
    | [] => .next s
    | e :: _ =>
      if w.safelight < Config.safelightLimit || w.hangPosted then .next s
      else
        let s := s.modWeft sid wid fun w => { w with
          hng := true, hangPosted := true, pend := { w.pend with hang := w.pend.hang || w.hangen } }
        .next (s.post ⟨sw.ctx, [w32 (0x19 + 256 * w.frontier.length), sw.ctx, w32 sw.swi, w32 wid, e.pc,
          e.mask, s.tim32, 0], none⟩)
  | _, _ => .next s

/-! ## griudb (R155, R245) -/

/-- GRIUDB_BREAKPOINT: the context stops before that clause's wait test; when it resumes, the weft goes on with the
same entry. -/
def execGriudbBreakpoint (sid wid : Nat) (s : State) : Out :=
  match s.swatch? sid, s.weft? sid wid with
  | some sw, some w =>
    if s.atBreak sw w && !s.griudbStopped sw.ctx then
      .next ((s.modWeft sid wid fun w => { w with passed := true }).stopCtx sw.ctx)
    else .next s
  | _, _ => .next s

/-- A word that is no instruction raises its trap (R15, R34). -/
def execIllegalInstruction (w : Word) (s : State) : Out :=
  s.issue (.illegalInstruction w) fun k s => .trap s (mkTrap (if w = 0 then 0x02 else 0x01) k.act w)

end Sys2Proof.Machine
end

