-- ==== Sys2Proof/Machine/Scratch.lean ====
section
/-!
DEFINITION. The scratchpad with its full bits and descriptors, and the tag table (R163 to R167, R182 to
R186); the event that repeats waiting tests.
-/
namespace Sys2Proof

/-- Bytes of an access of a width (R183). -/
def SpadW.bytes : SpadW → Nat
  | .b32 => 4
  | .b64 => 8
  | .b128 => 16

/-- The mode holds its first option: LDS.full, STS.fill. -/
def FeMode.first : FeMode → Bool
  | .one => true
  | .both => true
  | _ => false

/-- The mode holds its second option: LDS.take, STS.empty. -/
def FeMode.second : FeMode → Bool
  | .two => true
  | .both => true
  | _ => false

namespace Machine

/-! ## Lines and their full bits -/

def lineOf (a : Nat) : Nat := a / 128

/-- Lines become full or empty (R163); a line that becomes full is no longer one that an aborted job has left empty
(R177). -/
def Swatch.setFull (sw : Swatch) (lines : List Nat) (b : Bool) : Swatch :=
  if b then { sw with
    full := lines.foldl (fun f n => insNat n f) sw.full
    descFaults := sw.descFaults.map fun f => { f with lines := f.lines.filter fun n => !lines.contains n } }
  else { sw with full := sw.full.filter fun n => !lines.contains n }

def State.setFull (s : State) (sid : Nat) (lines : List Nat) (b : Bool) : State :=
  s.modSwatch sid fun sw => sw.setFull lines b

/-- Every line is full, or every line is empty. -/
def Swatch.linesAre (sw : Swatch) (lines : List Nat) (full : Bool) : Bool :=
  lines.all fun n => sw.full.contains n == full

/-- The test of a full/empty wait (R166). -/
def Swatch.feMet (sw : Swatch) (w : Weft) : Bool :=
  match w.wait with
  | some x =>
    match x.form with
    | .fullEmpty lines want => sw.linesAre lines want
    | _ => false
  | none => false

/-- A line that an aborted job has left empty raises the descriptor trap at what reads, waits on or
queries it (R177). -/
def Site.lineFault (k : Site) (sw : Swatch) (lines : List Nat) : Option Trap :=
  match sw.descFaults.find? fun f =>
      f.lines.any fun n => lines.contains n && !sw.full.contains n with
  | some f => some ⟨0x18, k.act, f.addr, f.desc, 0⟩
  | none => none

/-! ## Addresses (R163, R182) -/

/-- Lanes with their scratchpad addresses. -/
def Site.spadLanes (k : Site) (scalar : Bool) (a : Src) : List (Nat × Nat) :=
  let ls := (lanesOf k.act).map fun l => (l, (k.val a l).toNat)
  if scalar then ls.take 1 else ls

def Site.spadTrap (k : Site) (scalar write : Bool) (cause : Nat) (ls : List (Nat × Nat)) : Trap :=
  k.laneTrap scalar write cause (ls.map fun x => (x.1, w64 x.2)) 0

/-- The address checks of R182 with an alignment of `n` bytes. -/
def Site.spadCheck (k : Site) (scalar write : Bool) (n : Nat) (ls : List (Nat × Nat)) : Option Trap :=
  let cause := fun (a : Nat) =>
    if k.sw.spsize ≤ a then some 0x09 else if a % n ≠ 0 then some 0x0A else none
  match ls.findSome? fun x => cause x.2 with
  | none => none
  | some c => some (k.spadTrap scalar write c (ls.filter fun x => cause x.2 == some c))

def linesOf (ls : List (Nat × Nat)) : List Nat := dedup (ls.map fun x => lineOf x.2)

/-! ## LDS and STS (R183) -/

/-- What the lanes read of the scratchpad; a bad sector poisons (R122). -/
def Swatch.spadReads (sw : Swatch) (n : Nat) (ls : List (Nat × Nat)) : Reads :=
  { vals := ls.map fun x => (x.1, memBytes sw.spad x.2 n)
    sectors := ls.map fun x => sectorOf x.2
    bad := (ls.filter fun x => sw.spadBad.contains (sectorOf x.2)).map fun x => (x.1, w64 x.2), asks := [] }

def execLds (d : Dst) (a : Src) (f : Bool) (m : FeMode) (w : SpadW) (s : State) : Out :=
  s.issue (.lds d a f m w) fun k s =>
    let scalar := k.allScalar [d.toSrc, a]
    let ls := k.spadLanes scalar a
    let sw := s.swatchOf k
    let lines := linesOf ls
    match (k.spadCheck scalar false w.bytes ls).or (k.lineFault sw lines) with
    | some t => .trap s t
    | none =>
      if m.first && !sw.linesAre lines true then .wait s (.fullEmpty lines true) 0
      else
        let r := sw.spadReads w.bytes ls
        let s := s.loupeLoad k true r
        let s := if m.second then s.setFull k.sid lines false else s
        .fly s (k.loadFlight scalar d w.regs r fun bs => groupWords w.regs (leNat bs))

/-- Bytes that lanes write, the highest lane's last. -/
def spadStore (ls : List (Nat × Nat)) (f : Nat → List Byte) : Tab Byte :=
  ls.foldl (fun t x => ((f x.1).zip (rangeFrom x.2 (f x.1).length)).foldl
    (fun t p => t.put p.2 p.1) t) []

def execSts (d : CSrc) (a : Src) (f : Bool) (m : FeMode) (w : SpadW) (s : State) : Out :=
  s.issue (.sts d a f m w) fun k s =>
    let scalar := k.allScalar [d.toSrc, a]
    let ls := k.spadLanes scalar a
    let sw := s.swatchOf k
    let lines := linesOf ls
    match (k.spadCheck scalar true w.bytes ls).or
        (if m.second then k.lineFault sw lines else none) with
    | some t => .trap s t
    | none =>
      if m.second && !sw.linesAre lines false then .wait s (.fullEmpty lines false) 0
      else
        let s := s.spadWrite k.sid (spadStore ls fun l => k.dataBytes d.toSrc w.bytes l) []
        .fly (if m.first then s.setFull k.sid lines true else s) k.flight

/-- Bytes as a sparse write from an address. -/
def bytesAt (a : Nat) (bs : List Byte) : Tab Byte := (rangeFrom a bs.length).zip bs

/-! ## FE (R184) -/

def execFeget (d : Dst) (a : Src) (f : Bool) (s : State) : Out :=
  s.issue (.feget d a f) fun k s =>
    let scalar := k.allScalar [d.toSrc, a]
    let ls := k.spadLanes scalar a
    let sw := s.swatchOf k
    match (k.spadCheck scalar false 1 ls).or (k.lineFault sw (linesOf ls)) with
    | some t => .trap s t
    | none =>
      let vals := ls.map fun x => (x.1, [if sw.full.contains (lineOf x.2) then (1 : Word) else 0])
      let r : Reads := ⟨vals.map fun x => (x.1, x.2.flatMap wordBytes), ls.map fun x => sectorOf x.2, [], []⟩
      .fly (s.loupeLoad k true r) (k.fly d 1 vals)

/-- A lane's range of lines for a pair form: first line and count. -/
structure LineRange where
  lane : Nat
  addr : Nat
  n : Nat
  deriving DecidableEq, Repr

def Site.lineRanges (k : Site) (a : Src) : List LineRange :=
  let ls := (lanesOf k.act).map fun l => (⟨l, (k.word a 0 l).toNat, (k.word a 1 l).toNat⟩ : LineRange)
  if k.allScalar [a] then ls.take 1 else ls

/-- n is 1 to 256 and the range stays within the scratchpad. -/
def LineRange.ok (r : LineRange) (size : Nat) : Bool :=
  decide (1 ≤ r.n) && decide (r.n ≤ 256) && decide (128 * (lineOf r.addr + r.n) ≤ size)

/-- The lines of a pair form, or its protection trap. -/
def Site.feLines (k : Site) (write : Bool) (a : Src) : Except Trap (List Nat) :=
  let rs := k.lineRanges a
  let bad := rs.filter fun r => !r.ok k.sw.spsize
  if bad.isEmpty then .ok (dedup (rs.flatMap fun r => rangeFrom (lineOf r.addr) r.n))
  else .error (k.spadTrap (k.allScalar [a]) write 0x09 (bad.map fun r => (r.lane, r.addr)))

def execFeset (a : Src) (f : Bool) (s : State) : Out :=
  s.issue (.feset a f) fun k s =>
    match k.feLines true a with
    | .error t => .trap s t
    | .ok lines => .fly (s.setFull k.sid lines true) k.flight

def execFeclr (a : Src) (f : Bool) (s : State) : Out :=
  s.issue (.feclr a f) fun k s =>
    match k.feLines true a with
    | .error t => .trap s t
    | .ok lines => .fly (s.setFull k.sid lines false) k.flight

def execFewait (a : Src) (f e : Bool) (s : State) : Out :=
  s.issue (.fewait a f e) fun k s =>
    match k.feLines false a with
    | .error t => .trap s t
    | .ok lines =>
      let sw := s.swatchOf k
      match k.lineFault sw lines with
      | some t => .trap s t
      | none =>
        if sw.linesAre lines (!e) then .fly s k.flight else .wait s (.fullEmpty lines (!e)) 0

/-! ## ATOMS (R185) -/

/-- new(o, d.l) of R185; the second register of a pair is what cas writes. -/
def atomsNew (o : AtomsOp) (old x y : Nat) : Nat :=
  match o with
  | .add => (old + x) % 2 ^ 32
  | .min => if toInt32 x < toInt32 old then x else old
  | .max => if toInt32 old < toInt32 x then x else old
  | .minu => min old x
  | .maxu => max old x
  | .and => old &&& x
  | .or => old ||| x
  | .xor => old ^^^ x
  | .exch => x
  | .fadd => (fp32.add .rn old x).1
  | .fmin => (fp32.minmax false old x).1
  | .fmax => (fp32.minmax true old x).1
  | .cas => if old = x then y else old

/-- Lanes in ascending order, each one step: the bytes written and the old values. -/
def atomsGo (m : Tab Byte) (f : Nat → Nat → Nat) : List (Nat × Nat) → Tab Byte → Tab Nat →
    Tab Byte × Tab Nat
  | [], w, olds => (w, olds)
  | (l, a) :: ls, w, olds =>
    let old := leNat ((rangeFrom a 4).map fun x => match w.get? x with
      | some b => b
      | none => memByte m x)
    let new := natBytes 4 (f l old)
    atomsGo m f ls ((new.zip (rangeFrom a 4)).foldl (fun t p => t.put p.2 p.1) w) (olds.put l old)

def execAtoms (d : Dst) (a : Src) (o : AtomsOp) (f : Bool) (s : State) : Out :=
  s.issue (.atoms d a o f) fun k s =>
    let scalar := k.allScalar [d.toSrc, a]
    let ls := k.spadLanes scalar a
    let sw := s.swatchOf k
    match (k.spadCheck scalar true 4 ls).or (k.lineFault sw (linesOf ls)) with
    | some t => .trap s t
    | none =>
      let bad := ls.filter fun x => sw.spadBad.contains (sectorOf x.2)
      let r := atomsGo sw.spad (fun l old =>
        atomsNew o old (k.word d.toSrc 0 l).toNat (k.word d.toSrc 1 l).toNat) ls [] []
      .fly (s.spadWrite k.sid r.1 [])
        { k.fly d 1 (r.2.map fun x => (x.1, [w32 x.2])) with
          poison := k.poisonOf scalar (bad.map fun x => (x.1, w64 x.2)) }

/-! ## The tag table and descriptors (R165, R186) -/

/-- The slot of the valid entry with a key. -/
def tagLookup (t : Tab Word) (key : Word) : Option Nat :=
  [0, 1, 2, 3].findSome? fun w =>
    let slot := 4 * (key.toNat % 1024) + w
    if t.get? slot == some key then some slot else none

def tagResult (x : Option Nat) : Word := w32 (x.getD 0xFFFFFFFF)

/-- Lanes that perform a scratchpad step: one when every operand is scalar. -/
def Site.stepLanes (k : Site) (xs : List Src) : List Nat :=
  if k.allScalar xs then (lanesOf k.act).take 1 else lanesOf k.act

def execSplook (d : Dst) (a : Src) (f : Bool) (s : State) : Out :=
  s.issue (.splook d a f) fun k s =>
    let t := (s.swatchOf k).tags
    .fly s (k.fly d 1 ((k.stepLanes [d.toSrc, a]).map fun l => (l, [tagResult (tagLookup t (k.val a l))])))

/-- SPTAG in one lane: any other entry of the set with the key becomes invalid. -/
def tagWrite (t : Tab Word) (key : Word) (way : Nat) : Tab Word × Nat :=
  let slot := 4 * (key.toNat % 1024) + way
  let t := match tagLookup t key with
    | some x => t.del x
    | none => t
  (t.put slot key, slot)

def execSptag (d : Dst) (a b : Src) (f : Bool) (s : State) : Out :=
  s.issue (.sptag d a b f) fun k s =>
    let r := (k.stepLanes [d.toSrc, a, b]).foldl (fun (r : Tab Word × Tab (List Word)) l =>
      let x := tagWrite r.1 (k.val a l) ((k.val b l).toNat % 4)
      (x.1, r.2.put l [w32 x.2])) ((s.swatchOf k).tags, [])
    .fly (s.modSwatch k.sid fun sw => { sw with tags := r.1 }) (k.fly d 1 r.2)

def execSptagInv (d : Dst) (a : Src) (f : Bool) (s : State) : Out :=
  s.issue (.sptagInv d a f) fun k s =>
    let r := (k.stepLanes [d.toSrc, a]).foldl (fun (r : Tab Word × Tab (List Word)) l =>
      let x := tagLookup r.1 (k.val a l)
      (match x with
        | some i => r.1.del i
        | none => r.1, r.2.put l [tagResult x])) ((s.swatchOf k).tags, [])
    .fly (s.modSwatch k.sid fun sw => { sw with tags := r.1 }) (k.fly d 1 r.2)

def execSpdesc (d : Dst) (a : Src) (f : Bool) (s : State) : Out :=
  s.issue (.spdesc d a f) fun k s =>
    let scalar := k.allScalar [d.toSrc, a]
    let ls := k.spadLanes scalar a
    let sw := s.swatchOf k
    match (k.spadCheck scalar false 1 ls).or (k.lineFault sw (linesOf ls)) with
    | some t => .trap s t
    | none => .fly s (k.fly d 1 (ls.map fun x => (x.1, [sw.descs.getD (x.2 / 64) 0])))

def execSpdescSet (a b : Src) (f : Bool) (s : State) : Out :=
  s.issue (.spdescSet a b f) fun k s =>
    let scalar := k.allScalar [a, b]
    let ls := k.spadLanes scalar a
    match k.spadCheck scalar true 1 ls with
    | some t => .trap s t
    | none => .fly (s.spadWrite k.sid [] (ls.foldl (fun t x => t.put (x.2 / 64) (k.val b x.1)) [])) k.flight

/-! ## FULL_EMPTY_RETEST (R166) -/

/-- A waiting weft whose test now holds and that has not been told: a resident one is woken; an absent one
has no record of kind 5 in its core's wake queue yet. -/
def State.feReady (s : State) (sid wid : Nat) (sw : Swatch) (w : Weft) : Bool :=
  let told := (w.wait.map fun x => x.woken).getD true
  let queued := match sw.core? with
    | some c => (s.core c).wakeQ.any fun r => r.sid == sid && r.wid == some wid && r.kind == 5
    | none => false
  sw.feMet w && !told && !queued

def feLine (w : Weft) : Nat :=
  match w.wait with
  | some x =>
    match x.form with
    | .fullEmpty lines _ => 128 * lines.headD 0
    | _ => 0
  | none => 0

def execFullEmptyRetest (sid : Nat) (s : State) : Out :=
  match s.swatch? sid with
  | none => .next s
  | some sw =>
    .next ((sw.wefts.filter fun q => s.feReady sid q.1 sw q.2).foldl
      (fun s q => s.wakeWeft sid q.1 5 0 (w32 (feLine q.2))) s)

end Machine
end Sys2Proof
end

