-- ==== Sys2Proof/Machine/Shapes.lean ====
section
/-!
DEFINITION. Block descriptors and the sidecar (R69 to R71, R309), shape records (R169, R187 to R190),
and the developer's code tables and segments (R180, R181).
-/
namespace Sys2Proof.Machine

/-! ## Descriptors -/

/-- An FP16 scale that is positive and normal (R69). -/
def scaleOk (x : Nat) : Bool := x / 2 ^ 15 == 0 && decide (1 ≤ x / 2 ^ 10) && decide (x / 2 ^ 10 ≤ 30)

/-- A descriptor that an engine consuming numbers accepts: a numeric format, its scale and its zero point
as R70 and R71 have them. -/
def descNumeric (d : Word) : Bool :=
  let n := d.toNat
  let fmt := n % 256
  let zp := n / 256 % 256
  decide (1 ≤ fmt) && decide (fmt ≤ 7) && scaleOk (n / 65536) &&
    (if fmt ≤ 3 then zp == 0 else if fmt ≤ 5 then true else zp / 16 == 0)

/-- The address of a block's descriptor in the sidecar of its die (R309). -/
def State.sidecarAddr (s : State) (pa : Nat) : Nat :=
  pa / 2 ^ 46 * 2 ^ 46 + s.sidecarAt pa + 4 * (dieAddr pa / 64)

/-! ## Shape records -/

/-- Twice the element size in bytes (R187). -/
def esz2 (esz : Nat) : Nat := 2 ^ esz

/-- Elements of a block (R188). -/
def blockElems (esz : Nat) : Nat := if esz = 0 then 128 else 64

/-- Bytes of `n` elements of dimension 0. -/
def elemBytes (esz n : Nat) : Nat := n * esz2 esz / 2

def prod (l : List Nat) : Nat := l.foldl (fun a b => a * b) 1

/-- T of R187. -/
def Shape.tileBytes (r : Shape) : Nat := elemBytes r.esz (prod r.tile)

/-- Bytes of one row of a tile. -/
def Shape.rowBytes (r : Shape) : Nat := elemBytes r.esz (r.tile.getD 0 1)

/-- The address of element (i0, i1, i2, i3), modulo 2^64 (R187). -/
def Shape.va (r : Shape) (i0 i1 i2 i3 : Nat) : Nat :=
  let off : Int := (i1 : Int) * r.str.getD 0 0 + (i2 : Int) * r.str.getD 1 0 + (i3 : Int) * r.str.getD 2 0
  (((r.base + elemBytes r.esz i0 : Nat) : Int) + off) % (2 ^ 64 : Int) |>.toNat

/-- Indices of dimensions 1 to 3, dimension 1 fastest. -/
def outerIx (n1 n2 n3 : Nat) : List (Nat × Nat × Nat) :=
  (List.range n3).flatMap fun i3 => (List.range n2).flatMap fun i2 =>
    (List.range n1).map fun i1 => (i1, i2, i3)

/-- Starts of the rows of a tile at an origin, in the order of R187. -/
def Shape.tileRows (r : Shape) (org : List Nat) : List Nat :=
  (outerIx (r.tile.getD 1 1) (r.tile.getD 2 1) (r.tile.getD 3 1)).map fun i =>
    r.va (org.getD 0 0) (org.getD 1 0 + i.1) (org.getD 2 0 + i.2.1) (org.getD 3 0 + i.2.2)

/-- 64 KiB granules of virtual memory that a run of bytes touches, modulo 2^64. -/
def granules (a n : Nat) : List Nat :=
  (rangeFrom (a / 65536) ((a + n - 1) / 65536 - a / 65536 + 1)).map fun g => g * 65536 % 2 ^ 64

def sortNat (l : List Nat) : List Nat := l.foldl (fun t n => insNat n t) []

/-- The pages of the extent and of the stream, ascending (R188). -/
def Shape.pages (r : Shape) : List Nat :=
  let row := elemBytes r.esz (r.ext.getD 0 1)
  let data := (outerIx (r.ext.getD 1 1) (r.ext.getD 2 1) (r.ext.getD 3 1)).flatMap fun i =>
    granules (r.va 0 i.1 i.2.1 i.2.2) row
  sortNat (data ++ if r.coded then granules r.sbase r.slen else [])

/-- The physical address behind an address of the record (R317). -/
def Shape.pin (r : Shape) (va : Nat) : Pin :=
  (r.pins.find? fun p => p.va == va / 65536 * 65536).getD ⟨0, 0, 16, false⟩

def Shape.pa (r : Shape) (va : Nat) : Nat := (r.pin va).pa + va % 65536

/-- A field of a template. -/
def tplField (t off n : Nat) : Nat := t / 2 ^ (8 * off) % 2 ^ (8 * n)

/-- The record a template describes. -/
def shapeOf (t : Nat) : Shape :=
  let fl := tplField t 8 4
  { base := tplField t 0 8, wr := fl.testBit 12, coded := fl.testBit 11, described := fl.testBit 10
    ndim := fl / 256 % 4 + 1, esz := fl % 8
    ext := [0, 1, 2, 3].map fun i => tplField t (0x10 + 4 * i) 4
    str := [0, 1, 2].map fun i => toInt64 (tplField t (0x20 + 8 * i) 8)
    tile := [0, 1, 2, 3].map fun i => tplField t (0x38 + 2 * i) 2
    sbase := tplField t 0x40 8, slen := tplField t 0x48 4, table := none, pins := [] }

/-- Reserved fields of a template (R187). -/
def tplReserved (t : Nat) (r : Shape) : Bool :=
  let fl := tplField t 8 4
  fl / 2 ^ 13 != 0 || fl / 8 % 32 != 0 || tplField t 0x0C 4 != 0 || tplField t 0x4C 4 != 0 ||
    (!r.coded && (r.sbase != 0 || r.slen != 0))

/-- The checks of R188 before pages are looked at: the status, 0 when all pass. -/
def shapeStatus (t : Nat) (r : Shape) (spad ix : Nat) (taken : Bool) : Nat :=
  let used := (r.str.take (r.ndim - 1)).any fun x => x % 64 != 0
  let blk := blockElems r.esz
  let unused := fun (l : List Nat) => (l.drop r.ndim).any fun x => x != 1
  if r.esz ≤ 4 && r.base % max (esz2 r.esz / 2) 1 != 0 then 1
  else if r.described && (r.base % 64 != 0 || used) then 2
  else if r.described && (r.tile.getD 0 0 % blk != 0 || r.ext.getD 0 0 % blk != 0) then 3
  else if tplReserved t r || 5 ≤ r.esz || (r.esz == 0 && !r.described) || (r.described && 2 ≤ r.esz) ||
      (r.coded && !r.described) || (r.coded && r.wr) then 4
  else if r.ext.contains 0 || r.tile.contains 0 || ((r.tile.zip r.ext).any fun p => decide (p.2 < p.1)) ||
      unused r.ext || unused r.tile || ((r.str.drop (r.ndim - 1)).any fun x => x != 0) ||
      decide (spad < r.tileBytes) || (r.coded && r.slen == 0) then 5
  else if 63 < ix || taken then 6
  else 0

/-- The pages of a record, pinned in ascending order; the first that fails decides (R188). -/
def State.pinPages (s : State) (k : Site) (wr : Bool) : List Nat → List Pin → State × Except Trap (Option (List Pin))
  | [], pins => (s, .ok (some pins))
  | va :: vas, pins =>
    if !canonical (w64 va) then (s, .ok none)
    else
      match s.translate k.core k.clu k.sw.ctx va with
      | (s, .error c) =>
        if c = 0x08 then (s, .error ⟨0x08, k.act, w64 va, accInfo wr, 0⟩) else (s, .ok none)
      | (s, .ok t) =>
        if pageAdmits .load t.leaf && (!wr || pteW t.leaf) then
          s.pinPages k wr vas (pins ++ [⟨va, t.pa, t.shift, pteDesc t.leaf⟩])
        else (s, .ok none)

/-- The template's 80 bytes through the core, a global load (R188), with the sectors that another package must still
answer for. -/
def State.readTemplate (s : State) (k : Site) (a : DWord) :
    State × Except Trap (List Byte × Option Nat × List Nat) :=
  let ls := (lanesOf k.act).take 1 |>.map fun l => (l, a)
  match k.preCheck true false 16 ls with
  | some t => (s, .error t)
  | none =>
    match s.access k.core k.clu k.sw.ctx .load a.toNat with
    | (s, .error c) => (s, .error (k.laneTrap true false c ls 0))
    | (s, .ok t) =>
      let first := min 80 (65536 - a.toNat % 65536)
      let x := s.loadBytes k.core k.die k.w.away t.pa first false
      let asks := s.unanswered k.w.away t.pa first
      if first = 80 then (x.1, .ok (x.2.1, x.2.2, asks))
      else
        let b := a + w64 first
        match x.1.access k.core k.clu k.sw.ctx .load b.toNat with
        | (s, .error c) => (s, .error (k.laneTrap true false c (ls.map fun l => (l.1, b)) 0))
        | (s, .ok t) =>
          let y := s.loadBytes k.core k.die k.w.away t.pa (80 - first) false
          (y.1, .ok (x.2.1 ++ y.2.1, x.2.2.or y.2.2, asks ++ s.unanswered k.w.away t.pa (80 - first)))

def execShape (d : Dst) (a b : Src) (f : Bool) (s : State) : Out :=
  s.issue (.shape d a b f) fun k s =>
    if k.act = 0 then .fly s k.flight
    else
      let addr := k.scalarPair a
      let ix := (k.scalar b).toNat
      match s.readTemplate k addr with
      | (s, .error t) => .trap s t
      | (s, .ok (_, _, x :: xs)) => .hold s fun s => s.askWeft k (x :: xs)
      | (s, .ok (_, some _, [])) => .fly s { k.flyScalar d [0] with
          poison := k.poisonOf true ((lanesOf k.act).map fun l => (l, addr)) }
      | (s, .ok (bs, none, [])) =>
        let t := leNat bs
        let r := shapeOf t
        let st := shapeStatus t r k.sw.spsize ix ((s.swatchOf k).shapes.get? ix).isSome
        if st ≠ 0 then .fly s (k.flyScalar d [w32 st])
        else
          match s.pinPages k r.wr r.pages [] with
          | (s, .error t) => .trap s t
          | (s, .ok none) => .fly s (k.flyScalar d [7])
          | (s, .ok (some pins)) =>
            .fly (s.modSwatch k.sid fun sw => { sw with shapes := sw.shapes.put ix { r with pins := pins } })
              (k.flyScalar d [0])

/-- UNSHAPE: the record goes when no job uses it (R189). -/
def execUnshape (b : Src) (f : Bool) (s : State) : Out :=
  s.issue (.unshape b f) fun k s =>
    let ix := (k.scalar b).toNat
    if k.act = 0 || ((s.swatchOf k).shapes.get? ix).isNone then .fly s k.flight
    else .fly s { k.flight with kind := .unshape ix }

/-! ## Code tables (R180) -/

/-- A table of 256 lengths is valid. -/
def tableValid (t : List Nat) : Bool :=
  t.all (fun n => decide (n ≤ 15)) && t.any (fun n => n != 0) &&
    decide ((t.map fun n => if n = 0 then 0 else 2 ^ (15 - n)).sum ≤ 2 ^ 15)

/-- First code of each length: code after lengths 1 to n - 1. -/
def firstCode (t : List Nat) : Nat → Nat
  | 0 => 0
  | n + 1 => (firstCode t n + if n = 0 then 0 else t.count n) * 2

/-- The symbol of a code of a length, if assigned: codes of one length go to symbols in ascending order. -/
def symbolOf (t : List Nat) (len code : Nat) : Option Nat :=
  let first := firstCode t len
  if code < first then none
  else (((List.range 256).filter fun s => t.getD s 0 == len)[code - first]?)

/-- One symbol from bits, first bit most significant: the symbol and the bits left. -/
def readSymbol (t : List Nat) : Nat → Nat → Nat → List Bool → Option (Nat × List Bool)
  | 0, _, _, _ => none
  | _ + 1, _, _, [] => none
  | f + 1, len, code, b :: bs =>
    let code := 2 * code + (if b then 1 else 0)
    match symbolOf t (len + 1) code with
    | some s => some (s, bs)
    | none => readSymbol t f (len + 1) code bs

def readSymbols (t : List Nat) : Nat → List Bool → Option (List Nat × List Bool)
  | 0, bs => some ([], bs)
  | n + 1, bs =>
    match readSymbol t 15 0 0 bs with
    | none => none
    | some (s, bs) =>
      match readSymbols t n bs with
      | none => none
      | some (ss, bs) => some (s :: ss, bs)

def byteBits (b : Byte) : List Bool := [0, 1, 2, 3, 4, 5, 6, 7].map fun i => b.getLsbD i

/-- What a segment gives (R181): its block with its descriptor and its length, or an error of R177. -/
inductive Segment
  | block (bytes : List Byte) (desc : Word) (len : Nat)
  | decode
  | descriptor (d : Word)
  deriving DecidableEq, Repr

/-- The bits of a segment's codes. -/
def segmentBits (bs : List Byte) : List Bool := ((bs.drop 4).take 120).flatMap byteBits

/-- Among the next `n` symbols stands a code that the table does not have, whole within the bits. -/
def invalidCode (t : List Nat) : Nat → List Bool → Bool
  | 0, _ => false
  | n + 1, bs =>
    match readSymbol t 15 0 0 bs with
    | none => decide (15 ≤ bs.length)
    | some (_, rest) => invalidCode t n rest

/-- Decode the segment at the front of a stream's remaining bytes. -/
def readSegment (t : List Nat) (bs : List Byte) : Segment :=
  if bs.length < 4 then .decode
  else
    let d := w32 (leNat (bs.take 4))
    if !descNumeric d then .descriptor d
    else
      let bits := segmentBits bs
      match readSymbols t 64 bits with
      | none => .decode
      | some (ss, rest) =>
        .block (ss.map fun x => BitVec.ofNat 8 x) d (4 + (bits.length - rest.length + 7) / 8)

/-- CTAB waits while a job uses the record (R190). -/
def execCtab (d : Dst) (a b : Src) (f : Bool) (s : State) : Out :=
  s.issue (.ctab d a b f) fun k s =>
    let ix := (k.scalar b).toNat
    let sw := s.swatchOf k
    let ls := k.spadLanes true a
    let addr := (k.scalar a).toNat
    match (k.spadCheck true false 128 ls).or
        ((if k.sw.spsize < addr + 256 && k.act != 0 then some (k.spadTrap true false 0x09 ls) else none).or
          (k.lineFault sw [lineOf addr, lineOf addr + 1])) with
    | some t => .trap s t
    | none =>
      if k.act = 0 then .fly s k.flight
      else
        match sw.shapes.get? ix with
        | none => .fly s (k.flyScalar d [2])
        | some r =>
          if !r.coded then .fly s (k.flyScalar d [2])
          else if s.recordBusy k.sid ix then .wait s (.jobsDone ix) 0
          else
            let t := (memBytes sw.spad addr 256).map fun b => b.toNat
            if !tableValid t then .fly s (k.flyScalar d [1])
            else .fly (s.modSwatch k.sid fun sw => { sw with
                shapes := sw.shapes.modify ix fun r => { r with table := some t } })
              (k.flyScalar d [0])

end Sys2Proof.Machine
end

