-- ==== Sys2Proof/Machine/Jobs.lean ====
section
/-!
DEFINITION. The copy engine: issuing jobs (R168, R170, R176, R191 to R194), the static schedule (R178,
R179), and a job's begin, lines, completion and abort (R171 to R175, R177), firmware jobs among them
(R265).
-/
namespace Sys2Proof.Machine

/-! ## A job's bytes -/

/-- Consecutive addresses as runs: start and length. -/
def addrRuns : List Nat → List (Nat × Nat)
  | [] => []
  | a :: as =>
    match addrRuns as with
    | (b, n) :: rs => if b = a + 1 then (a, n + 1) :: rs else (a, 1) :: (b, n) :: rs
    | [] => [(a, 1)]

/-- Starts of a job's rows in global memory, virtual (R187, R192). -/
def Job.rowStarts (j : Job) : List Nat :=
  match j.kind with
  | .gather => j.rows.map fun i => j.shape.va 0 i 0 0
  | _ => j.shape.tileRows j.org

/-- Lines of the job's scratchpad range, or 128-byte units of a firmware job. -/
def Job.total (j : Job) : Nat := (j.bytes + 127) / 128

/-- The job's byte offsets in one line. -/
def Job.span (j : Job) (n : Nat) : List Nat := rangeFrom (128 * n) (min (128 * (n + 1)) j.bytes - 128 * n)

/-- The virtual address of a job's byte. -/
def Job.byteVa (j : Job) (i : Nat) : Nat :=
  let row := j.shape.rowBytes
  (j.rowStarts.getD (i / max row 1) 0 + i % max row 1) % 2 ^ 64

/-- Physical addresses of a job's bytes in one line. -/
def Job.linePas (j : Job) (n : Nat) : List Nat := (j.span n).map fun i => j.shape.pa (j.byteVa i)

/-- The scratchpad line it writes or reads next. -/
def Job.lineNo (j : Job) : Nat := lineOf j.spad + j.lines

def Job.inbound (j : Job) : Bool := j.kind == .cpyin || j.kind == .gather

/-- Physical ranges of a run of virtual bytes. -/
def Shape.ranges (r : Shape) (va n : Nat) : List (Nat × Nat) :=
  (granules va n).map fun g =>
    if g = va / 65536 * 65536 then ((r.pin g).pa + va % 65536, min (65536 - va % 65536) n)
    else ((r.pin g).pa, min 65536 (n - (g + 2 ^ 64 - va) % 2 ^ 64))

/-- Whether the job reads a stream (R170). -/
def Job.coded (j : Job) : Bool := j.kind == .cpyin && j.shape.coded

/-- The global part of the footprint (R170, R265): ranges read and ranges written. -/
def Job.globalPart (j : Job) : List (Nat × Nat) × List (Nat × Nat) :=
  let row := j.shape.rowBytes
  match j.kind with
  | .firmware => ([(j.src, j.bytes)], [(j.dst, j.bytes)])
  | .gather =>
    ((outerIx (j.shape.ext.getD 1 1) (j.shape.ext.getD 2 1) (j.shape.ext.getD 3 1)).flatMap fun i =>
      j.shape.ranges (j.shape.va 0 i.1 i.2.1 i.2.2) (elemBytes j.shape.esz (j.shape.ext.getD 0 1)), [])
  | .cpyin =>
    if j.shape.coded then (j.shape.ranges j.shape.sbase j.shape.slen, [])
    else (j.rowStarts.flatMap fun va => j.shape.ranges va row, [])
  | .cpyout => ([], j.rowStarts.flatMap fun va => j.shape.ranges va row)

def rangesMeet (a b : List (Nat × Nat)) : Bool :=
  a.any fun x => b.any fun y => decide (x.1 < y.1 + y.2) && decide (y.1 < x.1 + x.2)

/-- Footprints overlap in a part that either writes (R171). -/
def Job.conflicts (a b : Job) : Bool :=
  let ga := a.globalPart
  let gb := b.globalPart
  let spad := a.kind != .firmware && b.kind != .firmware && a.sid == b.sid &&
    (a.inbound || b.inbound) && rangesMeet [(a.spad, a.bytes)] [(b.spad, b.bytes)]
  spad || rangesMeet ga.2 gb.2 || rangesMeet ga.2 gb.1 || rangesMeet ga.1 gb.2

/-- Jobs of a core that were accepted before one and conflict with it. -/
def Core.mayBegin (c : Core) (ix : Nat) : Bool :=
  match c.jobs[ix]? with
  | none => false
  | some j => !j.begun && (c.jobs.take ix).all fun e => !e.conflicts j

/-- A ring job waits for its next line (R173, R174). -/
def Job.lineReady (j : Job) (sw : Swatch) : Bool :=
  !j.ring || sw.full.contains j.lineNo == !j.inbound

/-! ## Issuing a job -/

/-- Step 2 of R191: the copy-shape conditions of a record. -/
def shapeFault (r : Shape) (out : Bool) (org : List Int) : Bool :=
  (out && (!r.wr || r.coded)) || (!out && r.coded && r.table.isNone) ||
    ((org.zip (r.tile.zip r.ext)).any fun p => decide (p.1 < 0) || decide ((p.2.2 : Int) < p.1 + p.2.1)) ||
    (r.described && (org.getD 0 0) % (blockElems r.esz : Int) != 0) ||
    (r.coded && org.any fun o => o != 0)

/-- The copy-shape trap: the origin in dimensions 0 and 1, and the record index (R116, R191). -/
def Site.shapeTrap (k : Site) (o0 o1 rec : Word) : Trap := ⟨0x0F, k.act, concat64 o1 o0, rec, 0⟩

/-- Step 3 of R191. -/
def Site.rangeFault (k : Site) (out : Bool) (sp n : Nat) : Option Trap :=
  let t := fun (c : Nat) => some (⟨c, k.act, w64 sp, accInfo (!out), 0⟩ : Trap)
  if sp % 128 ≠ 0 then t 0x0A else if k.sw.spsize < sp + n then t 0x09 else none

/-- Steps 2 and 3 of R191 for a tile. -/
def Site.copyCheck (k : Site) (sw : Swatch) (out : Bool) (rec : Nat) (org : List Int) (sp : Nat) :
    Except Trap Shape :=
  let w := fun (i : Nat) => BitVec.ofInt 32 (org.getD i 0)
  match if rec ≤ 63 then sw.shapes.get? rec else none with
  | none => .error (k.shapeTrap (w 0) (w 1) (w32 rec))
  | some r =>
    if shapeFault r out org then .error (k.shapeTrap (w 0) (w 1) (w32 rec))
    else
      match k.rangeFault out sp r.tileBytes with
      | some t => .error t
      | none => .ok r

/-- The core has a free job place (R168). -/
def Core.jobRoom (c : Core) : Bool := decide (c.jobs.length < Config.jobPlaces)

/-- Keep the status of the 64 most recent jobs of a swatch (R194). -/
def Swatch.logJob (sw : Swatch) (num : Nat) (st : JobStatus) : Swatch :=
  { sw with jobLog := (sw.jobLog.put num st).filter fun p =>
      decide ((sw.jobs + 2 ^ 32 - 1 - p.1) % 2 ^ 32 < 64) }

/-- A job is issued: it takes a place, its number goes to d at once, and its flag stands until it ends
(R168, R175, R176). -/
def State.submit (s : State) (k : Site) (d : Dst) (j : Job) : Eff :=
  match k.core with
  | none => .stall s
  | some c =>
    if !(s.core c).jobRoom then .stall s
    else
      let num := (s.swatchOf k).jobs
      let j := { j with num := num, sid := k.sid, owner := k.wid }
      let s := s.modCore c fun x => { x with jobs := x.jobs ++ [j] }
      let s := s.modSwatch k.sid fun sw =>
        { sw with jobs := (num + 1) % 2 ^ 32 }.logJob num ⟨0, 0, 1⟩
      .fly (s.modWeft k.sid k.wid fun w => k.put w d 1 [(0, [w32 num])])
        { k.flight with kind := .copyJob c num }

/-- A job over a tile or over rows, not yet numbered. -/
def newJob (kind : JobKind) (ring : Bool) (rec : Nat) (r : Shape) (org rows : List Nat) (sp n : Nat) : Job :=
  { num := 0, sid := 0, kind := kind, ring := ring, record := rec, shape := r, org := org, rows := rows
    spad := sp, bytes := n, src := 0, dst := 0, begun := false, lines := 0, pos := 0, err := 0
    badDesc := (0, 0), away := [], owner := 0 }

/-- CPYIN and CPYOUT (R191). -/
def State.copyTile (s : State) (k : Site) (d : Dst) (a b : Src) (out ring : Bool) : Eff :=
  if k.act = 0 then .fly s k.flight
  else
    let org := (List.range 4).map fun i => (k.word a i 0).toNat
    let rec_ := (k.word b 0 0).toNat
    let sp := (k.word b 1 0).toNat
    match k.copyCheck (s.swatchOf k) out rec_ (org.map fun (o : Nat) => (Int.ofNat o)) sp with
    | .error t => .trap s t
    | .ok r =>
      s.submit k d (newJob (if out then .cpyout else .cpyin) ring rec_ r org [] sp r.tileBytes)

def execCpyin (d : Dst) (a b : Src) (f r : Bool) (s : State) : Out :=
  s.issue (.cpyin d a b f r) fun k s => s.copyTile k d a b false r

def execCpyout (d : Dst) (a b : Src) (f r : Bool) (s : State) : Out :=
  s.issue (.cpyout d a b f r) fun k s => s.copyTile k d a b true r

def execGather (d : Dst) (a b : Src) (f : Bool) (s : State) : Out :=
  s.issue (.gather d a b f) fun k s =>
    if k.act = 0 then .fly s k.flight
    else
      let sw := s.swatchOf k
      let list := (k.word a 0 0).toNat
      let n := (k.word a 1 0).toNat
      let rec_ := (k.word b 0 0).toNat
      let sp := (k.word b 1 0).toNat
      let ls := [(0, list)]
      match k.spadCheck true false 4 ls with
      | some t => .trap s t
      | none =>
        match if rec_ ≤ 63 then sw.shapes.get? rec_ else none with
        | none => .trap s (k.shapeTrap 0 0 (w32 rec_))
        | some r =>
          if r.coded || r.ndim < 2 || n = 0 || 1024 < n then .trap s (k.shapeTrap 0 0 (w32 rec_))
          else
            match (if k.sw.spsize < list + 4 * n then some (k.spadTrap true false 0x09 ls)
              else none).or (k.lineFault sw (dedup ((List.range n).map fun i => lineOf (list + 4 * i)))) with
            | some t => .trap s t
            | none =>
              let rows := (List.range n).map fun i => leNat (memBytes sw.spad (list + 4 * i) 4)
              match rows.find? fun i => decide (r.ext.getD 1 1 ≤ i) with
              | some i => .trap s (k.shapeTrap (w32 i) 0 (w32 rec_))
              | none =>
                match k.rangeFault false sp (n * r.rowBytes) with
                | some t => .trap s t
                | none =>
                  s.submit k d (newJob .gather false rec_ r [0, 0, 0, 0] rows sp (n * r.rowBytes))

/-- The origin of the current pass of a schedule entry (R179). -/
def SchedEntry.origin (e : SchedEntry) (pass : Nat) : List Int :=
  (e.org.zip (List.range 4)).map fun p =>
    (p.1 : Int) + if p.2 = e.w7.toNat % 4 then (pass : Int) * e.advance else 0

def execStage (d : Dst) (f : Bool) (s : State) : Out :=
  s.issue (.stage d f) fun k s =>
    let sw := s.swatchOf k
    if k.act = 0 then .fly s k.flight
    else
      match sw.sched[sw.schedPos]? with
      | none => .trap s (k.shapeTrap 0 0 0xFFFFFFFF)
      | some e =>
        let w := e.w0.toNat
        let rec_ := w / 256 % 256
        let org := e.origin sw.schedPass
        let o := fun (i : Nat) => BitVec.ofInt 32 (org.getD i 0)
        if 2 ≤ w % 4 || w / 65536 != 0 || w / 16 % 16 != 0 || e.w7.toNat / 4 != 0 then
          .trap s (k.shapeTrap (o 0) (o 1) (w32 rec_))
        else
          let out := w % 4 == 1
          match k.copyCheck sw out rec_ org e.spad with
          | .error t => .trap s t
          | .ok r =>
            let job := newJob (if out then .cpyout else .cpyin) (w.testBit 3) rec_ r
              (org.map Int.toNat) [] e.spad r.tileBytes
            match s.submit k d job with
            | .fly s f =>
              let last := sw.sched.length ≤ sw.schedPos + 1
              .fly (s.modSwatch k.sid fun x => { x with
                schedPos := if last then 0 else x.schedPos + 1
                schedPass := if last then x.schedPass + 1 else x.schedPass }) f
            | e => e

/-! ## CPYQ (R194) -/

/-- The status of a job still in its place. -/
def Job.status (j : Job) (sw : Swatch) : JobStatus :=
  ⟨j.lines, j.err, if j.begun && j.lines < j.total && !j.lineReady sw then 2 else 1⟩

/-- A job's status, looked up among the jobs in flight and then in the log. -/
def State.jobStatus (s : State) (k : Site) (sw : Swatch) (num : Nat) : JobStatus :=
  match k.core.bind fun c => (s.core c).jobs.find? fun j =>
      j.kind != .firmware && j.sid == k.sid && j.num == num with
  | some j => j.status sw
  | none => sw.jobLog.getD num ⟨0, 0, 0⟩

/-- The CPYQ layout. -/
def JobStatus.word (x : JobStatus) : Word := w32 (x.lines % 65536 * 256 + x.err * 4 + x.state)

def execCpyq (d : Dst) (a : Src) (f : Bool) (s : State) : Out :=
  s.issue (.cpyq d a f) fun k s =>
    let sw := s.swatchOf k
    let num := (k.scalar a).toNat
    let age := (sw.jobs + 2 ^ 33 - 1 - num) % 2 ^ 32
    if 2 ^ 31 ≤ age then .fly s (k.flyScalar d [0x20])
    else if 64 ≤ age then .fly s (k.flyScalar d [0x10])
    else
      let st := s.jobStatus k sw num
      match if st.err = 3 && st.state = 3 then sw.descFaults.find? fun x => x.job == num else none with
      | some x => .trap s ⟨0x18, k.act, x.addr, x.desc, 0⟩
      | none => .fly s (k.flyScalar d [st.word])

/-! ## A job at work -/

def State.modJob (s : State) (core ix : Nat) (f : Job → Job) : State :=
  s.modCore core fun c => { c with jobs := match c.jobs[ix]? with
    | some j => c.jobs.set ix (f j)
    | none => c.jobs }

/-- COPY_JOB_BEGIN: no earlier job of the core that conflicts is in flight (R171). -/
def execCopyJobBegin (core job : Nat) (s : State) : Out :=
  .next (if (s.core core).mayBegin job then s.modJob core job fun j => { j with begun := true } else s)

/-- Read runs of physical bytes as an agent of the core; whether any sector was bad. -/
def State.readRuns (s : State) (core : Nat) (ans : List Away) (rs : List (Nat × Nat)) : State × List Byte × Bool :=
  rs.foldl (fun (x : State × List Byte × Bool) r =>
    let y := x.1.loadBytes (some core) (dieOfCore core) ans r.1 r.2 false
    (y.1, x.2.1 ++ y.2.1, x.2.2 || y.2.2.isSome)) (s, [], false)

/-- The offsets at which the blocks of a job's line begin, with each block's physical address. -/
def Job.lineBlocks (j : Job) (n : Nat) : List (Nat × Nat × Bool) :=
  ((j.span n).filter fun i => i % 64 == 0).map fun i =>
    (i, j.shape.pa (j.byteVa i), (j.shape.pin (j.byteVa i)).desc)

/-- Descriptors that an inbound described job delivers with a line (R309). -/
def State.readDescs (s : State) (core : Nat) (j : Job) : State × Tab Word × Bool :=
  if !j.shape.described then (s, [], false)
  else
    (j.lineBlocks j.lines).foldl (fun (x : State × Tab Word × Bool) b =>
      let key := (j.spad + b.1) / 64
      if b.2.2 then
        let y := x.1.loadBytes (some core) (dieOfCore core) j.away (x.1.sidecarAddr b.2.1) 4 false
        (y.1, x.2.1.put key (w32 (leNat y.2.1)), x.2.2 || y.2.2.isSome)
      else (x.1, x.2.1.put key 0, x.2.2)) (s, [], false)

/-- A line of a plain or described inbound job, or of a GATHER. -/
def State.lineIn (s : State) (core ix : Nat) (j : Job) : State :=
  let (s, bs, bad) := s.readRuns core j.away (addrRuns (j.linePas j.lines))
  let (s, ds, bad') := s.readDescs core j
  if bad || bad' then s.modJob core ix fun j => { j with err := 1 }
  else
    ((s.spadWrite j.sid (bytesAt (j.spad + 128 * j.lines) bs) ds).setFull j.sid [j.lineNo] true).modJob core ix
      fun j => { j with lines := j.lines + 1, away := [] }

/-- Where the bytes of a coded job's stream from a position on lie, at most so many. -/
def Job.streamRuns (j : Job) (pos n : Nat) : List (Nat × Nat) :=
  addrRuns ((rangeFrom pos (min n (j.shape.slen - pos))).map fun i => j.shape.pa ((j.shape.sbase + i) % 2 ^ 64))

/-- The remaining bytes of a coded job's stream, at most a segment's worth, and how many of them stand before any
uncorrectable data. -/
def State.streamBytes (s : State) (core : Nat) (j : Job) (pos : Nat) : State × List Byte × Nat :=
  (fun (x : State × List Byte × Nat × Bool) => (x.1, x.2.1, x.2.2.1))
    ((j.streamRuns pos 124).foldl (fun (x : State × List Byte × Nat × Bool) r =>
      let y := x.1.loadBytes (some core) (dieOfCore core) j.away r.1 r.2 false
      let good := match y.2.2 with
        | some b => b - r.1
        | none => r.2
      (y.1, x.2.1 ++ y.2.1, x.2.2.1 + (if x.2.2.2 then 0 else good), x.2.2.2 || y.2.2.isSome)) (s, [], 0, false))

/-- The blocks of one line out of the stream: bytes and descriptors, or an error code with its descriptor;
uncorrectable data counts where the decoding reaches it (R177). -/
def State.decodeLine (s : State) (core : Nat) (j : Job) : Nat → Nat → Nat → List Byte → Tab Word →
    State × Except (Nat × DWord × Word) (Nat × List Byte × Tab Word)
  | 0, _, pos, bs, ds => (s, .ok (pos, bs, ds))
  | n + 1, off, pos, bs, ds =>
    let (s, raw, good) := s.streamBytes core j pos
    let t := j.shape.table.getD []
    match readSegment t (raw.take good) with
    | .block b d len =>
      s.decodeLine core j n (off + 64) (pos + len) (bs ++ b) (ds.put ((j.spad + off) / 64) d)
    | .decode =>
      (s, .error (if good < raw.length && !invalidCode t 64 (segmentBits (raw.take good)) then 1 else 2, 0, 0))
    | .descriptor d => (s, .error (3, w64 (j.shape.sbase + pos), d))

/-- A line of a coded job (R181). -/
def State.lineCoded (s : State) (core ix : Nat) (j : Job) : State :=
  let off := 128 * j.lines
  match s.decodeLine core j ((j.span j.lines).length / 64) off j.pos [] [] with
  | (s, .error (e, a, d)) => s.modJob core ix fun j => { j with err := e, badDesc := (a, d) }
  | (s, .ok (pos, bs, ds)) =>
    ((s.spadWrite j.sid (bytesAt (j.spad + off) bs) ds).setFull j.sid [j.lineNo] true).modJob core ix
      fun j => { j with lines := j.lines + 1, pos := pos, away := [] }

/-- Write runs of physical bytes at their homes, after what the core's buffer holds for them. -/
def State.writeRuns (s : State) (core : Nat) : List (Nat × Nat) → List Byte → State
  | [], _ => s
  | (a, n) :: rs, bs =>
    let s := (sectorsOf a n).foldl (fun s sec => s.settle (some core) sec) s
    (s.homeWriteBytes (some (dieOfCore core)) a (bs.take n)).writeRuns core rs (bs.drop n)

/-- A line of an outbound job; bad scratchpad data ends it as a data error (log 30). -/
def State.lineOut (s : State) (core ix : Nat) (j : Job) (sw : Swatch) : State :=
  let a := j.spad + 128 * j.lines
  let n := (j.span j.lines).length
  if (sectorsOf a n).any fun x => sw.spadBad.contains x then s.modJob core ix fun j => { j with err := 1 }
  else
    let s := s.writeRuns core (addrRuns (j.linePas j.lines)) (memBytes sw.spad a n)
    let s := if j.shape.described then
        (j.lineBlocks j.lines).foldl (fun s b =>
          if b.2.2 then s.writeRuns core [(s.sidecarAddr b.2.1, 4)]
            (wordBytes (sw.descs.getD ((j.spad + b.1) / 64) 0)) else s) s
      else s
    let s := if j.ring then s.setFull j.sid [j.lineNo] false else s
    s.modJob core ix fun j => { j with lines := j.lines + 1 }

/-- One unit of a firmware job (R265). -/
def State.lineFirmware (s : State) (core ix : Nat) (j : Job) : State :=
  let n := (j.span j.lines).length
  let off := 128 * j.lines
  let (s, bs, bad) := s.readRuns core j.away [(j.src + off, n)]
  if bad then s.modJob core ix fun j => { j with err := 1 }
  else (s.writeRuns core [(j.dst + off, n)] bs).modJob core ix fun j => { j with lines := j.lines + 1, away := [] }

/-- What a job's next line reads of physical memory: its bytes or its part of the stream, and its descriptors. -/
def State.lineReads (s : State) (j : Job) : List (Nat × Nat) :=
  match j.kind with
  | .cpyout => []
  | .firmware => [(j.src + 128 * j.lines, (j.span j.lines).length)]
  | _ =>
    if j.shape.coded then j.streamRuns j.pos 248
    else addrRuns (j.linePas j.lines) ++ if j.shape.described then
      ((j.lineBlocks j.lines).filter fun b => b.2.2).map fun b => (s.sidecarAddr b.2.1, 4) else []

/-- Sectors of another package that a job's next line still waits for (R395). -/
def State.lineNeeds (s : State) (j : Job) : List Nat :=
  dedup ((s.lineReads j).flatMap fun r => s.unanswered j.away r.1 r.2)

/-- A job can move its next line now, or ask another package for it. -/
def State.lineMay (s : State) (j : Job) : Bool :=
  j.begun && j.err == 0 && decide (j.lines < j.total) && (j.away.all fun a => a.answer.isSome) &&
    (j.kind == .firmware || match s.swatch? j.sid with
      | some sw => j.lineReady sw
      | none => false)

/-- COPY_LINE_FULL: the next line of a job arrives, or leaves (R173). -/
def execCopyLineFull (core job : Nat) (s : State) : Out :=
  match (s.core core).jobs[job]? with
  | none => .next s
  | some j =>
    if !s.lineMay j then .next s
    else if !(s.lineNeeds j).isEmpty then
      let x := s.askReads (some core) (dieOfCore core) j.away (s.lineNeeds j)
      .next (x.1.modJob core job fun j => { j with away := x.2 })
    else
      match j.kind with
      | .firmware => .next (s.lineFirmware core job j)
      | .cpyout => .next (s.lineOut core job j ((s.swatch? j.sid).getD (Swatch.plain 0 0)))
      | .gather => .next (s.lineIn core job j)
      | .cpyin => .next (if j.shape.coded then s.lineCoded core job j else s.lineIn core job j)

/-! ## A job's end -/

/-- The job leaves its place; wefts that wait for jobs of its record test again (R190). -/
def State.dropJob (s : State) (core ix : Nat) (j : Job) : State :=
  let s := s.modCore core fun c => { c with jobs := c.jobs.take ix ++ c.jobs.drop (ix + 1) }
  if s.recordBusy j.sid j.record then s
  else s.modSwatch j.sid fun sw => { sw with wefts := sw.wefts.map fun p =>
    (p.1, match p.2.wait with
      | some x => if x.form == .jobsDone j.record then p.2.wake s.turn else p.2
      | none => p.2) }

/-- The counted flag falls (R175). -/
def Weft.jobFlight (w : Weft) (core num : Nat) : Weft :=
  match w.flights.findIdx? fun f => f.kind == .copyJob core num with
  | none => w
  | some ix =>
    match w.flights[ix]? with
    | some f => (w.land f).dropFlight ix
    | none => w

def State.endJob (s : State) (core ix : Nat) (j : Job) (state : Nat) : State :=
  let s := s.dropJob core ix j
  let s := s.modSwatch j.sid fun sw => sw.logJob j.num ⟨j.lines, j.err, state⟩
  s.modWeft j.sid j.owner fun w => w.jobFlight core j.num

/-- Every byte of a job that moves out has reached its home, another package's too (R173, R249, R265). -/
def State.jobLanded (s : State) (j : Job) : Bool := !(j.kind == .cpyout || j.kind == .firmware) || s.pkg.acked

/-- COPY_JOB_COMPLETION (R173, R175). -/
def execCopyJobCompletion (core job : Nat) (s : State) : Out :=
  match (s.core core).jobs[job]? with
  | none => .next s
  | some j =>
    if j.kind != .firmware && j.begun && j.err == 0 && decide (j.total ≤ j.lines) && s.jobLanded j then
      .next (s.endJob core job j 0)
    else .next s

/-- The lines a job leaves empty. -/
def Job.restLines (j : Job) : List Nat := rangeFrom j.lineNo (j.total - j.lines)

/-- COPY_JOB_ABORT: the report of R177. -/
def State.abortJob (s : State) (core ix : Nat) (j : Job) : State :=
  let s := s.endJob core ix j 3
  if j.err = 3 then
    s.modSwatch j.sid fun sw =>
      let f : DescFault := ⟨j.num, j.restLines, j.badDesc.1, j.badDesc.2⟩
      let waits := fun (w : Weft) => match w.wait with
        | some x =>
          match x.form with
          | .fullEmpty lines _ => lines.any fun n => f.lines.contains n && !sw.full.contains n
          | _ => false
        | none => false
      { sw with
        descFaults := sw.descFaults ++ [f]
        wefts := sw.wefts.map fun p => (p.1, if waits p.2 then p.2.wake s.turn else p.2) }
  else
    s.modSwatch j.sid fun sw => { sw with wefts := sw.wefts.map fun p =>
      (p.1, if p.2.ended then p.2 else ({ p.2 with pend := { p.2.pend with
        copyError := p.2.pend.copyError ++ [(w64 (128 * j.lineNo), w32 j.num)] } } : Weft).noted s.turn p.2) }

def execCopyJobAbort (core job : Nat) (s : State) : Out :=
  match (s.core core).jobs[job]? with
  | none => .next s
  | some j => .next (if j.kind != .firmware && j.err != 0 then s.abortJob core job j else s)

/-- FIRMWARE_COPY_COMPLETION: its end is the posting of the kind-1 record, for which it waits while the
event queue is full (R263, R265). -/
def execFirmwareCopyCompletion (core job : Nat) (s : State) : Out :=
  match (s.core core).jobs[job]? with
  | none => .next s
  | some j =>
    let clu := clusterOfCore core
    let past := j.err != 0 || (j.begun && decide (j.total ≤ j.lines) && s.jobLanded j)
    if j.kind != .firmware || !past || decide (Config.eventQueue ≤ (s.cluster clu).evq.length) then .next s
    else
      let ctx := ((s.swatch? j.sid).map fun sw => sw.ctx).getD 0
      let st : JobStatus := ⟨j.lines, j.err, if j.err = 0 then 0 else 3⟩
      .next ((s.dropJob core job j).evPush clu ⟨1, core % 6, ctx, w32 j.num, st.word⟩)

/-! ## Events of the engine that are due -/

/-- The first job of a core with something to do. -/
def State.jobEvent (s : State) (c : Nat) (k : Core) : Option Instr :=
  (List.range k.jobs.length).findSome? fun ix =>
    match k.jobs[ix]? with
    | none => none
    | some j =>
      if j.err != 0 && j.kind != .firmware then some (.copyJobAbort c ix)
      else if k.mayBegin ix then some (.copyJobBegin c ix)
      else if s.lineMay j then some (.copyLineFull c ix)
      else if j.kind == .firmware then
        (if (j.err != 0 || (j.begun && decide (j.total ≤ j.lines) && s.jobLanded j)) &&
            decide ((s.cluster (clusterOfCore c)).evq.length < Config.eventQueue) then
          some (.firmwareCopyCompletion c ix) else none)
      else if j.begun && decide (j.total ≤ j.lines) && s.jobLanded j then some (.copyJobCompletion c ix)
      else none

end Sys2Proof.Machine
end

