-- ==== Sys2Proof/Machine/Time.lean ====
section
/-!
DEFINITION. The passage of time: global time, cluster cycles, residency and idleness (R275, R278, R285,
R292), and errors that fall on stored data from outside (R122, R241, R386).
-/
namespace Sys2Proof.Machine

/-- Jobs in flight on the cores of a cluster. -/
def State.clusterJobs (s : State) (clu : Nat) : Bool :=
  s.cores.any fun p => clusterOfCore p.1 == clu && !p.2.jobs.isEmpty

/-- The cluster has no placed swatch, no copy job and no exposure in flight (R278). -/
def State.clusterIdle (s : State) (clu : Nat) : Bool :=
  !s.clusterJobs clu &&
    s.swatches.all fun p => match p.2.core? with
      | some c => clusterOfCore c != clu
      | none => true

/-- Contexts of the weft slots occupied in a cluster, one entry a slot (R292). -/
def State.residents (s : State) (clu : Nat) : List Word :=
  s.swatches.flatMap fun p =>
    match p.2.core? with
    | some c =>
      if clusterOfCore c = clu then
        (p.2.wefts.filter fun q => q.2.place != .absent).map fun _ => p.2.ctx
      else []
    | none => []

/-- A cluster over some nanoseconds, with their reference ticks, and, while its clock runs, `cycles` of its own: its
idle timer is held with the clock (R277). -/
def Cluster.elapse (c : Cluster) (tim ns ticks cycles : Nat) (res : List Word) (idle : Bool) : Cluster :=
  let run := c.clock == .running
  { c with
    clk := if run then (c.clk + cycles) % 2 ^ 64 else c.clk
    resid := res.foldl (fun t x => t.put x.toNat (t.getD x.toNat 0 + ticks)) c.resid
    idleTicks := if !run then c.idleTicks else if idle then c.idleTicks + ticks else 0
    deadlines := if run then c.deadlines.map fun d =>
        (d.1, { d.2 with log := ⟨tim, tim + ns, 0, cycles⟩ :: d.2.log })
      else c.deadlines }

/-- What falls due in the clusters when time passes: the end of an energy period at a multiple of 1,000 ns
(R292), a governor evaluation at one of 2,000 ns (R285), a ballast interval at one of 100 ns in a cluster that has
drawn current (R281), gating after 50 µs of idleness (R278). -/
def State.periodEvents (s : State) (ns : Nat) : List Move :=
  let crosses := fun (p : Nat) => s.tim / p != (s.tim + ns) / p
  let ticks := (s.tim + ns) / 10 - s.tim / 10
  (if crosses 1000 then s.clusters.map fun p => .periodEnd p.1 else []) ++
    (if crosses 2000 then s.clusters.map fun p => .govern p.1 else []) ++
    ((s.clusters.filter fun p => p.2.ballast != ⟨[], [], 0, p.2.ballast.mv, none⟩).flatMap fun p =>
      List.replicate ((s.tim + ns) / 100 - s.tim / 100) (.ballast p.1 (Config.fillers s.free))) ++
    (s.clusters.filter fun p => p.2.gating == .on && p.2.gateEn && p.2.clock == .running &&
      decide (5000 ≤ p.2.idleTicks + ticks) && s.clusterIdle p.1).map fun p => .gate p.1

/-- Time passes within one energy period. -/
def State.elapseOnce (s : State) (ns cycles : Nat) : State :=
  let ticks := (s.tim + ns) / 10 - s.tim / 10
  { s with
    agenda := s.periodEvents ns ++ s.agenda
    tim := (s.tim + ns) % 2 ^ 64
    clusters := s.clusters.map fun p =>
      (p.1, p.2.elapse s.tim ns ticks cycles (s.residents p.1) (s.clusterIdle p.1)) }

/-- Time passes up to the end of the energy period; the rest follows once what falls due there is done. -/
def State.elapse (s : State) (ns cycles : Nat) : State :=
  let n := 1000 - s.tim % 1000
  if ns ≤ n then s.elapseOnce ns cycles
  else
    ({ s with agenda := .elapse (ns - n) (cycles - cycles * n / ns) :: s.agenda } : State).elapseOnce n
      (cycles * n / ns)

/-- The slot with uncorrectable data in it (R217). -/
def NegSlot.corrupted : NegSlot → NegSlot
  | .empty => .empty
  | .narrow bytes descs _ => .narrow bytes descs true
  | .complex bytes _ => .complex bytes true

/-- Uncorrectable data in an accumulator tile (R217, R386). -/
def State.corruptTile (s : State) (sid tile : Nat) : State :=
  s.modSwatch sid fun sw => { sw with tiles := sw.tiles.put tile { sw.tiles.getD tile Tile.zero with poison := true } }

/-- Uncorrectable data in a negative slot that holds one (R217). -/
def State.corruptNeg (s : State) (sid slot : Nat) : State :=
  s.modSwatch sid fun sw => { sw with negs := sw.negs.modify slot NegSlot.corrupted }

/-- An uncorrectable error in a saved weft's image: the allocated registers in error are poisoned; in another part,
the weft halts and the host gets a context fault (R241). -/
def State.corruptImage (s : State) (sid wid : Nat) (vs ss : List Nat) (other : Bool) : State :=
  match s.swatch? sid, s.weft? sid wid with
  | some sw, some w =>
    if w.place != .absent || !w.started then s
    else if other then
      (s.modWeft sid wid fun w => { w with halted := some .image }).post
        (s.record 0x22 0x15 sw.ctx (w32 sw.swi) (w32 wid) 0x15 0 0)
    else
      let n := s.free
      let p : Poison := ⟨concat64 (Config.freeWord n) (Config.freeWord (n + 1)),
        Config.freeWord (n + 2), 0xFFFFFFFF⟩
      ({ s with free := n + 3 } : State).modWeft sid wid fun w => { w with
        vpoison := (vs.filter fun r => w.allocated (.v r)).foldl (fun t r => t.put r p) w.vpoison
        spoison := (ss.filter fun r => w.allocated (.s r)).foldl (fun t r => t.put r p) w.spoison }
  | _, _ => s

end Sys2Proof.Machine
end

