-- ==== Sys2Proof/Machine/Power.lean ====
section
/-!
DEFINITION. Deadline steps and the governor (R284 to R286, R296, R298), energy accounts (R287 to R294,
R297, R299), relocks and throttles (R276, R277), gating (R278), ballast (R281, R282) and the package cap
controller (R378).
-/
namespace Sys2Proof.Machine

/-! ## Frequency -/

/-- The top frequency of a cluster as the cap allows it (R378). -/
def State.fcap (s : State) (c : Cluster) : Nat := min c.fsw s.pkg.fctl

/-- The DLDO voltage of a step (R275, R295). -/
def Cluster.stepVolt (c : Cluster) (f : Nat) : Nat := (c.vf.getD ((f - 300) / 25) 0).toNat

/-- A relock begins: the clock stops; for a rise the voltage goes up first (R276). -/
def Cluster.beginRelock (c : Cluster) (f tim : Nat) : Cluster :=
  { c with clock := .relock f, stopAt := tim, volt := if c.fcur < f then c.stepVolt f else c.volt }

/-! ## Deadline records (R284) -/

def Deadline.empty : Deadline :=
  { opened := false, n := 0, due := 0, work := 0, issues := 0, owner := none, risk := false, log := [], rho := none }

/-- A step is opened, or re-declared within the open one (R296). -/
def Deadline.declare (d : Deadline) (due work : Nat) (owner : Option (Nat × Nat)) : Deadline :=
  let d := if d.opened then d else { d with n := d.n + 1, opened := true, risk := false }
  { d with due := due % 2 ^ 64, work := work, issues := 0, owner := owner }

def State.modDeadline (s : State) (clu : Nat) (ctx : Word) (f : Deadline → Deadline) : State :=
  s.modCluster clu fun c => { c with deadlines := c.deadlines.modify ctx.toNat f }

def execDlset (a b : Src) (s : State) : Out :=
  s.issue (.dlset a b) fun k s =>
    .done (s.modDeadline k.clu k.sw.ctx fun d =>
      d.declare (s.tim + (k.scalar a).toNat) (k.scalar b).toNat (some (k.sid, k.wid)))

def execDlstep (a b : Src) (s : State) : Out :=
  s.issue (.dlstep a b) fun k s =>
    .done (s.modDeadline k.clu k.sw.ctx fun d => ({ d with opened := false } : Deadline).declare
      (s.tim + (k.scalar a).toNat) (k.scalar b).toNat (some (k.sid, k.wid)))

def execDlend (s : State) : Out :=
  s.issue .dlend fun k s =>
    .done (s.modDeadline k.clu k.sw.ctx fun d => { d with opened := false })

/-- W - I, not below 0. -/
def Deadline.rest (d : Deadline) : Nat := d.work - d.issues

/-- ⌈a / b⌉. -/
def ceilDiv (a b : Nat) : Nat := (a + b - 1) / b

/-- Slack and remaining work (R298). -/
def Deadline.query (d : Deadline) (tim fcur : Nat) : Word × Word :=
  if !d.opened then (0x7FFFFFFF, 0)
  else
    let left : Int := (d.due : Int) - (tim : Int)
    let slack := match d.rho with
      | some (i, c) => left - (ceilDiv (d.rest * c * 1000) (i * fcur) : Int)
      | none => left
    (w32 (intResult 32 false true slack).1, w32 (min d.rest (2 ^ 32 - 1)))

def execDlq (d : Dst) (s : State) : Out :=
  s.issue (.dlq d) fun k s =>
    let c := s.cluster k.clu
    let r := ((c.deadlines.get? k.sw.ctx.toNat).getD Deadline.empty).query s.tim c.fcur
    k.alu s d 2 fun _ => ([r.1, r.2], 0)

/-! ## The governor (R285, R286) -/

/-- The last 10 µs of reference time (R285), in nanoseconds. -/
def governorWindow : Nat := 10000

/-- Cycles of a sample that lie in the window that ends at `tim`: of one that begins before it, its share (log 105). -/
def Sample.cyclesIn (x : Sample) (tim : Nat) : Nat :=
  let first := max x.start (tim - governorWindow)
  if x.start < x.stop then x.cycles * (x.stop - first) / (x.stop - x.start) else x.cycles

/-- Samples that reach into the window that ends at `tim`. -/
def Deadline.recent (d : Deadline) (tim : Nat) : List Sample :=
  d.log.filter fun x => decide (tim < x.stop + governorWindow)

/-- I10 and C10 of an evaluation at `tim` (R285). -/
def Deadline.window (d : Deadline) (tim : Nat) : Nat × Nat :=
  (((d.recent tim).map fun x => x.issues).sum, ((d.recent tim).map fun x => x.cyclesIn tim).sum)

/-- An evaluation looks back over the window; it estimates ρ for an open step alone. -/
def Deadline.roll (d : Deadline) (tim : Nat) : Deadline :=
  let w := d.window tim
  { d with log := d.recent tim
           rho := if !d.opened then d.rho else if 1024 ≤ w.1 && 0 < w.2 then some w else none }

/-- The smallest step at least x/y MHz, within 300 and fcap. -/
def stepAtLeast (x y fcap : Nat) : Nat := max 300 (min fcap (25 * ceilDiv x (25 * y)))

/-- want(c) of R285. -/
def Deadline.want (d : Deadline) (tim fcap : Nat) : Nat :=
  let left := d.due - tim
  if d.rest = 0 then 300
  else
    match d.rho with
    | some (i, c) =>
      if left = 0 then stepAtLeast (17 * fcap) 16 fcap
      else stepAtLeast (17 * 1000 * d.rest * c) (16 * i * left) fcap
    | none => stepAtLeast (17 * fcap) 16 fcap

/-- The projection fails at the highest frequency (R285). -/
def Deadline.atRisk (d : Deadline) (tim fcap : Nat) : Bool :=
  let left := d.due - tim
  d.rest != 0 && (left == 0 ||
    match d.rho with
    | some (i, c) => decide (left * i * fcap < d.rest * c * 1000)
    | none => false)

/-- A risk event (R286): the trap becomes pending in the owner, unless it has ended, and the control core
is told. -/
def State.riskEvent (s : State) (clu : Nat) (ctx : Word) (d : Deadline) : State :=
  if d.risk then s
  else
    let s := s.modDeadline clu ctx fun d => { d with risk := true }
    let s := match d.owner with
      | some (sid, wid) => s.modWeft sid wid fun w =>
          if w.ended then w
          else ({ w with pend := { w.pend with deadlineRisk := w.pend.deadlineRisk ++ [d.n] } } : Weft).noted s.turn w
      | none => s
    let swi := ((d.owner.bind fun o => s.swatch? o.1).map fun sw => sw.swi).getD 0
    s.evPush clu ⟨2, 0, ctx, d.n, w32 swi⟩

/-- GOVERNOR_EVALUATION: windows roll, risks are raised, and the step moves (R285). -/
def State.govern (s : State) (clu : Nat) : State :=
  let s := s.modCluster clu fun c =>
    { c with deadlines := c.deadlines.map fun d => (d.1, d.2.roll s.tim) }
  let c := s.cluster clu
  let fcap := s.fcap c
  let opens := c.deadlines.filter fun d => d.2.opened
  let s := (opens.filter fun d => d.2.atRisk s.tim fcap).foldl
    (fun s d => s.riskEvent clu (w32 d.1) d.2) s
  let target := match opens with
    | [] => min c.fdefault fcap
    | _ => opens.foldl (fun m d => max m (d.2.want s.tim fcap)) 0
  if c.fcur < target || target + 50 ≤ c.fcur || fcap < c.fcur then
    s.modCluster clu fun c => c.beginRelock (min target fcap) s.tim
  else s

/-- While the clock is stopped the evaluation waits for the restart (R277). -/
def execGovernorEvaluation (cl : Nat) (s : State) : Out :=
  .next (if (s.cluster cl).clock == .running then s.govern cl else s)

/-! ## Energy accounts (R287 to R294) -/

/-- Some swatch of the context is placed in the cluster. -/
def State.ctxPlaced (s : State) (clu : Nat) (ctx : Word) : Bool :=
  s.swatches.any fun p => p.2.ctx == ctx && match p.2.core? with
    | some c => clusterOfCore c == clu
    | none => false

/-- Entries that R294 releases. -/
def State.releaseAccounts (s : State) (clu : Nat) : State :=
  s.modCluster clu fun c => { c with
    accounts := c.accounts.filter fun a => !(a.read && !a.ballast && !s.ctxPlaced clu a.ctx) }

/-- The account word (R297). -/
def accountWord (count : Nat) (sat : Bool) : DWord := w64 (count + if sat then 2 ^ 63 else 0)

/-- Saturating sum of two counters with their saturation. -/
def addCount (a b : Nat × Bool) : Nat × Bool :=
  if a.1 + b.1 < 2 ^ 48 then (a.1 + b.1, a.2 || b.2) else (2 ^ 48 - 1, true)

/-- The context's counter (R287). -/
def State.ctxCount (s : State) (ctx : Word) : Nat × Bool :=
  let saved := ((s.ctx? ctx).map fun c => (c.savedSum, c.savedSat)).getD (0, false)
  s.clusters.foldl (fun t p => (p.2.accounts.filter fun a => a.ctx == ctx).foldl
    (fun t a => addCount t (a.count, a.sat)) t) saved

def execEnrd (d : Dst) (f : Bool) (s : State) : Out :=
  s.issue (.enrd d f) fun k s =>
    let x := s.ctxCount k.sw.ctx
    let w := accountWord x.1 x.2
    .fly s (k.flyScalar d [loWord w, hiWord w])

def execEnsave (d : Dst) (a : Src) (f : Bool) (s : State) : Out :=
  s.issue (.ensave d a f) fun k s =>
    let ctx := k.scalar a
    match (s.cluster k.clu).accounts.find? fun e => e.ctx == ctx with
    | none => .fly s (k.flyScalar d [0, 0])
    | some e =>
      let w := accountWord e.count e.sat
      let s := s.modCluster k.clu fun c => { c with
        accounts := c.accounts.map fun x =>
          if x.ctx = ctx then { x with count := 0, sat := false, read := true } else x }
      let s := s.modCtx ctx fun c =>
        let t := addCount (c.savedSum, c.savedSat) (e.count, e.sat)
        { c with savedSum := t.1, savedSat := t.2 }
      .fly (s.releaseAccounts k.clu) (k.flyScalar d [loWord w, hiWord w])

/-- The entry of a context as ENLOAD sets it; `none` when no entry is free. -/
def Cluster.loadAccount (c : Cluster) (ctx : Word) (count : Nat) (sat : Bool) : Option Cluster :=
  if c.accounts.any fun a => a.ctx == ctx then
    some { c with accounts := c.accounts.map fun a =>
      if a.ctx = ctx then { a with count := count, sat := sat, read := false } else a }
  else if c.accounts.length < Config.accounts then
    some { c with accounts := c.accounts ++ [⟨ctx, count, sat, false, false⟩] }
  else none

def execEnload (d : Dst) (a b : Src) (f : Bool) (s : State) : Out :=
  s.issue (.enload d a b f) fun k s =>
    let ctx := k.scalar a
    let w := (k.scalarPair b).toNat
    if nbits w 62 48 ≠ 0 then .trap s (mkTrap 0x01 k.act (w32 (Instr.enload d a b f).wordNat))
    else
      match (s.cluster k.clu).loadAccount ctx (w % 2 ^ 48) (w.testBit 63) with
      | none => .fly s (k.flyScalar d [1])
      | some c =>
        let s := s.modCluster k.clu fun _ => c
        .fly (s.modCtx ctx fun c => { c with savedSum := 0, savedSat := false }) (k.flyScalar d [0])

/-- One energy period: the static estimate is shared out by residency (R293). -/
def Cluster.endPeriod (c : Cluster) (r : Tab Nat) : Cluster :=
  let total := (r.map fun x => x.2).sum
  let est := c.enstatic.toNat
  if total = 0 then { c with unattr := (c.unattr + est) % 2 ^ 64 }
  else
    let shares := (r.filter fun x => x.2 != 0).map fun x => (x.1, est * x.2 / total)
    let c := shares.foldl (fun c x => c.charge (w32 x.1) x.2) c
    { c with unattr := (c.unattr + (est - (shares.map fun x => x.2).sum)) % 2 ^ 64 }

/-- ENERGY_PERIOD_END (R293); a period that ends while the clock is stopped is taken at the restart. -/
def execEnergyPeriodEnd (cl : Nat) (s : State) : Out :=
  .next (s.modCluster cl fun c =>
    if c.clock == .running then { c.endPeriod c.resid with resid := [] } else c)

/-! ## Stops of the clock (R276, R277) -/

/-- The droop detector stops the clock with no change of step (R276). -/
def execDroopThrottle (cl : Nat) (s : State) : Out :=
  .next (s.modCluster cl fun c =>
    if c.clock == .running then { c with clock := .throttle, stopAt := s.tim } else c)

/-- The energy periods that ended within a stop, the first after `first` ticks of it, each later one after
100 more (R277): what the slots held before and in the stop goes to its period. -/
def Cluster.periodsIn (res : Tab Nat) : Nat → Nat → Tab Nat → Cluster → Cluster
  | 0, _, pre, c => { c with resid := pre }
  | n + 1, ticks, pre, c =>
    let r := res.foldl (fun t x => t.put x.1 (t.getD x.1 0 + x.2 * ticks)) pre
    Cluster.periodsIn res n 100 [] (c.endPeriod r)

/-- Slots occupied by context. -/
def countSlots (l : List Word) : Tab Nat :=
  l.foldl (fun t c => t.put c.toNat (t.getD c.toNat 0 + 1)) []

/-- CLOCK_RESTART (R277): the new step and its voltage hold, the idle timer is advanced, energy periods that ended within the stop are
processed in turn, and the governor's due evaluations are made once. -/
def execClockRestart (cl ticks : Nat) (s : State) : Out :=
  let c := s.cluster cl
  if c.clock == .running then .next s
  else
    let now := s.tim / 10
    let start := now - ticks
    let slots := countSlots (s.residents cl)
    let before := slots.foldl (fun t x => t.put x.1 (t.getD x.1 0 - x.2 * ticks)) c.resid
    let periods := now / 100 - start / 100
    let first := (start / 100 + 1) * 100 - start
    let c := match c.clock with
      | .relock f => { c with fcur := f, volt := c.stepVolt f }
      | _ => c
    let c : Cluster := { c with clock := .running, idleTicks := if s.clusterIdle cl then c.idleTicks + ticks else 0 }
    let c := if periods = 0 then c
      else
        let c := Cluster.periodsIn slots periods first before c
        { c with resid := slots.foldl (fun t x => t.put x.1 (x.2 * (now % 100))) c.resid }
    let s := s.modCluster cl fun _ => c
    .next (if now / 200 != start / 200 then s.govern cl else s)

/-! ## Gating (R278) -/

def execGatingComplete (cl : Nat) (s : State) : Out :=
  .next (s.modCluster cl fun c => if c.gating == .starting then { c with gating := .off } else c)

/-! ## Ballast and the cap (R281, R282, R378) -/

/-- Quanta by which the estimate of the interval that ends falls short of a fall of 4 A (R281): a quantum of 2^−10 nJ
in 100 ns at a millivolt draws 10/1024 A (log 104). -/
def Cluster.shortfall (c : Cluster) : Nat :=
  let b := c.ballast
  let real := (b.cur.map fun x => x.2).sum
  if c.volt = 0 || b.mv = 0 then 0
  else ceilDiv (10 * b.total * c.volt - 4096 * c.volt * b.mv - 10 * real * b.mv) (10 * b.mv)

/-- The context whose weighted issue energy fell most between two intervals, the lowest of equals (R282). -/
def departing (prev cur : Tab Nat) : Option Word :=
  (prev.foldl (fun (m : Option (Nat × Nat)) x =>
    let fall := x.2 - cur.getD x.1 0
    match m with
    | some y => if y.2 < fall then some (x.1, fall) else m
    | none => some (x.1, fall)) none).map fun x => w32 x.1

/-- The energy of an interval's fillers: as many exposures as are named, within what is missing, and vector operations
for the rest (R281). -/
def Cluster.fill (c : Cluster) (exposures need : Nat) : Nat :=
  let x := min exposures (if c.weight 6 = 0 then 0 else need / c.weight 6)
  let v := if c.weight 2 = 0 then 0 else ceilDiv (need - x * c.weight 6) (c.weight 2)
  x * c.weight 6 + v * c.weight 2

/-- The account of the departing context keeps its entry while ballast is charged to it (R282, R294). -/
def Cluster.markBallast (c : Cluster) (ctx : Option Word) : Cluster :=
  { c with accounts := c.accounts.map fun a => { a with ballast := ctx == some a.ctx } }

/-- BALLAST_INTERVAL (R281, R282): where the estimate would fall by more than 4 A, fillers make up for the rest and are
charged to the departing context of the interval that began it; otherwise the ballast is over. -/
def execBallastInterval (cl exposures : Nat) (s : State) : Out :=
  let c := s.cluster cl
  let b := c.ballast
  let need := c.shortfall
  let real := (b.cur.map fun x => x.2).sum
  let who := if need = 0 then none else b.departing.or (departing b.prev b.cur)
  let fill := c.fill exposures need
  let close := fun (k : Cluster) =>
    ({ k with ballast := ⟨b.cur, [], real + fill, c.volt, who⟩ } : Cluster).markBallast who
  match who with
  | some ctx => .next (s.modCluster cl fun k => close (k.charge ctx fill))
  | none => .next ((s.modCluster cl close).releaseAccounts cl)

/-- CAP_EVALUATION: the mean power of the last 10 µs moves fctl (R378). -/
def execCapEvaluation (watts : Nat) (s : State) : Out :=
  .next (s.modPkg fun p =>
    let f := if p.plimit < watts then
        max 300 (p.fctl - 25 * max 1 (100 * (watts - p.plimit) / (2 * p.plimit)))
      else if 100 * watts < 95 * p.plimit then min 2450 (p.fctl + 25)
      else p.fctl
    { p with ppower := watts % 65536, fctl := f })

end Sys2Proof.Machine
end

