-- ==== Sys2Proof/Machine/Versioned.lean ====
section
/-!
DEFINITION. Versioned memory (R326 to R342): the versions of a sector, floors and their messages, the
waiters, and VREG, VUNREG, VST, VLD, VFLOOR and VQRY. A region's key is 64·partition + region id; its
sectors are named by virtual address.
-/
namespace Sys2Proof.Machine

/-! ## Versions of a sector (R327) -/

/-- The sector exists in some version of that number. -/
def VSector.has (x : VSector) (n : Nat) : Bool := x.vers.any fun v => v.n == n

/-- A reservation of XPERM counts as existing for VST and VQRY (R402). -/
def VSector.taken (x : VSector) (n : Nat) : Bool := x.has n || x.reserved.contains n

/-- The live count L. -/
def VSector.live (x : VSector) : Nat := x.vers.length + x.reserved.length

/-- The newest existing version that meets a bound. -/
def VSector.newest (x : VSector) (ok : Nat → Bool) : Option Version :=
  (x.vers.filter fun v => ok v.n).getLast?

/-- The head: the highest existing version, reservations counted (R402). -/
def VSector.head (x : VSector) : Nat := (x.vers.map fun v => v.n).foldl max (x.reserved.foldl max 0)

/-- A new version takes its place in rising order. -/
def VSector.insert (x : VSector) (v : Version) : VSector :=
  { x with vers := (x.vers.filter fun y => decide (y.n < v.n)) ++ [v] ++
      x.vers.filter fun y => decide (v.n < y.n) }

/-- Versions below a floor other than the base are reclaimed (R335). -/
def VSector.reclaim (x : VSector) (floor : Nat) : VSector :=
  match x.newest fun n => decide (n < floor) with
  | none => x
  | some b => { x with vers := x.vers.filter fun v => decide (floor ≤ v.n) || v.n == b.n }

/-- Pool slots in use: one for each existing version above 0 and each reservation (R326, R402). -/
def Region.slotsUsed (r : Region) : Nat :=
  (r.sectors.map fun p => (p.2.vers.filter fun v => v.n != 0).length + p.2.reserved.length).sum

/-- A slot of the pool is free (R341): 1024 a unit (R328). -/
def Region.slotFree (r : Region) : Bool := decide (r.slotsUsed < 1024 * r.pslots)

/-- Version 0 of a sector of its frame: the frame's contents, or zero (R328). -/
def State.versionZero (s : State) (r : Region) (pa : Nat) : Version :=
  let h := s.homeRead (sectorOf pa)
  if r.img then ⟨0, h.1, h.2⟩ else ⟨0, List.replicate 32 0, false⟩

/-- The sector at a virtual address whose frame stands at a physical one. -/
def State.versionsOf (s : State) (r : Region) (va pa : Nat) : VSector :=
  (r.sectors.get? (sectorOf va)).getD ⟨[s.versionZero r pa], []⟩

def State.modRegion (s : State) (key : Nat) (f : Region → Region) : State :=
  { s with regions := s.regions.modify key f }

/-- The partition of a context. -/
def State.partOfCtx (s : State) (ctx : Word) : Nat := ((s.ctx? ctx).map fun c => c.part).getD 0

/-- The registered region of a partition that holds a virtual address. -/
def State.regionAt (s : State) (part va : Nat) : Option (Nat × Region) :=
  s.regions.find? fun p =>
    let base := p.2.vbase % 2 ^ 57
    p.2.part == part && decide (base ≤ va) && decide (va < base + p.2.size)

/-- The number a die has: this package's own dies first, then those of every package (R338). -/
def State.dieId (s : State) (pkg die : Nat) : Nat := if pkg = s.pkg.fpkg then die else 4 * (pkg + 1) + die

/-- The die that holds an address. -/
def State.dieIdOf (s : State) (a : Nat) : Nat := s.dieId (pkgOf a) (dieOf a)

/-- The dies of a partition's roll: of its package, and of the members of its group table (R396). -/
def State.rollDies (s : State) (part : Nat) : List Nat :=
  let others := match s.parts.get? part with
    | some p => if p.ngrp < 2 then [] else
        (List.range p.ngrp).map fun i => s.homeDword (p.gtab + 8 * i) % 4096
    | none => []
  dedup ([0, 1, 2, 3] ++ others.flatMap fun g => [0, 1, 2, 3].map fun d => s.dieId g d)

/-! ## Waiters (R340) -/

/-- The weft waits for a version of a sector of a region; `none` stands for any sector. -/
def Weft.versionWaits (w : Weft) (key : Nat) (sec : Option Nat) : Bool :=
  match w.wait with
  | some x =>
    match x.form with
    | .version on _ _ hashed => on.any fun y => y.1 == key && match sec with
      | none => true
      | some n => n == y.2.1 || (hashed && Config.sectorHash n == Config.sectorHash y.2.1)
    | _ => false
  | none => false

/-- The waiter table of a region's home die is full: it holds the waits on the regions homed there, but for those it
keeps by hash (R326, R340). -/
def State.waitersFull (s : State) (key : Nat) : Bool :=
  let home := fun (k : Nat) => (s.regions.get? k).map fun r => r.die
  let n := (s.swatches.map fun p => (p.2.wefts.map fun q =>
    match q.2.wait with
    | some x =>
      match x.form with
      | .version on _ _ false => (on.filter fun y => home y.1 == home key).length
      | _ => 0
    | none => 0).sum).sum
  decide (Config.waiterTable ≤ n)

/-- Wake the wefts whose condition may now hold (R340): wake records of kind 4. -/
def State.wakeVersions (s : State) (key : Nat) (sec : Option Nat) (value : Nat) : State :=
  (s.swatches.flatMap fun p => (p.2.wefts.filter fun q => q.2.versionWaits key sec).map
    fun q => (p.1, q.1)).foldl (fun s x => s.wakeWeft x.1 x.2 4 0 (w32 value)) s

/-- A version of a sector comes into existence at its home. -/
def State.createVersion (s : State) (key sec : Nat) (x : VSector) (v : Version) : State :=
  (s.modRegion key fun r => { r with sectors := r.sectors.put sec (x.insert v) }).wakeVersions key
    (some sec) v.n

/-! ## Floors (R335) -/

/-- The floor rises at its point: versions are reclaimed and waiters woken. -/
def State.raiseFloor (s : State) (key floor : Nat) : State :=
  match s.regions.get? key with
  | none => s
  | some r =>
    if floor ≤ r.floor then s
    else
      (s.modRegion key fun r => { r with
        floor := floor
        sectors := r.sectors.map fun p => (p.1, p.2.reclaim floor) }).wakeVersions key none floor

/-- The first VFLOOR of a weft on this region that is in flight completes. -/
def Weft.floorDone (w : Weft) (key : Nat) : Weft :=
  match w.flights.findIdx? fun f => f.kind == .floor key with
  | some ix =>
    match w.flights[ix]? with
    | some f => (w.land f).dropFlight ix
    | none => w
  | none => w

/-- FLOOR_MESSAGE: a sharer die sets its copy of the floor and acknowledges the first floor it has not
acknowledged. -/
def Region.acknowledge (r : Region) (die : Nat) : Region :=
  match r.pendFloors.findIdx? fun p => p.await.contains die with
  | none => r
  | some ix =>
    let b := ((r.pendFloors[ix]?).map fun p => p.floor).getD 0
    { r with
      floorCopy := r.floorCopy.put die (max b (r.floorCopy.getD die 0))
      pendFloors := r.pendFloors.modify ix fun p => { p with await := p.await.filter fun d => d != die } }

def execFloorMessage (region die : Nat) (s : State) : Out :=
  .next (s.modRegion region fun r => r.acknowledge die)

/-- FLOOR_POINT: the last acknowledgement is one point in the order of every sector of the region. -/
def State.floorPoint (s : State) (key : Nat) : State :=
  match s.regions.get? key with
  | none => s
  | some r =>
    match r.pendFloors.findIdx? fun p => p.await.isEmpty with
    | none => s
    | some ix =>
      match r.pendFloors[ix]? with
      | none => s
      | some p =>
        let s := s.modRegion key fun r => { r with
          pendFloors := r.pendFloors.take ix ++ r.pendFloors.drop (ix + 1) }
        (s.raiseFloor key p.floor).modWeft p.sid p.wid fun w => w.floorDone key

def execFloorPoint (region : Nat) (s : State) : Out := .next (s.floorPoint region)

/-- VERSION_WAITER_WAKE: the waiters of a sector, and those that wait for a slot, test again. -/
def execVersionWaiterWake (region sector : Nat) (s : State) : Out :=
  .next (s.wakeVersions region (some sector)
    (((s.regions.get? region).map fun r => r.floor).getD 0))

/-! ## The checks of R331 -/

/-- A lane's access to a registered region. -/
structure VLane where
  lane : Nat
  va : Nat
  pa : Nat
  key : Nat
  deriving DecidableEq, Repr

/-- Lanes of one page group in their regions; one that lies in none meets the protection trap. -/
def State.regionLanes (k : Site) (scalar write : Bool) (s : State) (xs : List VLane) (ls : List LaneAt) :
    State × List VLane × Option Trap :=
  let part := s.partOfCtx k.sw.ctx
  let found := ls.map fun l => (l, s.regionAt part (l.va.toNat % 2 ^ 57))
  let bad := found.filter fun x => x.2.isNone
  if bad.isEmpty then
    (s, xs ++ found.filterMap fun x => x.2.map fun r => ⟨x.1.lane, x.1.va.toNat % 2 ^ 57, x.1.pa, r.1⟩, none)
  else (s, xs, some (k.laneTrap scalar write 0x09 (bad.map fun x => (x.1.lane, x.1.va)) 0))

/-- A lane takes its place among others by number. -/
def insertLane (x : VLane) : List VLane → List VLane
  | [] => [x]
  | y :: ys => if x.lane ≤ y.lane then x :: y :: ys else y :: insertLane x ys

/-- Every active lane is checked before any is performed; the lanes ascend (R331, R332). -/
def State.versionLanes (s : State) (k : Site) (scalar : Bool) (acc : Acc) (n : Nat) (ls : List (Nat × DWord)) :
    State × Except Trap (List VLane) :=
  let write := acc == .vstore
  match k.preCheck scalar write n ls with
  | some t => (s, .error t)
  | none =>
    match State.eachGroup k scalar write acc (State.regionLanes k scalar write) 32 ls 0 s [] with
    | (s, _, _, some t) => (s, .error { t with done := 0 })
    | (s, xs, _, none) => (s, .ok (xs.foldr insertLane []))

/-- The region of a checked lane as it stands. -/
def State.regionOf (s : State) (l : VLane) : Option Region := s.regions.get? l.key

/-- A die joins a region's sharer set with the floor as it stands, and floors on their way await it too; beyond 64
dies the region is marked as broadcast (R326, R335, R338). -/
def Region.join (r : Region) (die : Nat) : Region :=
  if r.die = die || r.sharers.contains die then r
  else
    { r with
      sharers := insNat die r.sharers
      broadcast := r.broadcast || decide (Config.exactSharers ≤ r.sharers.length)
      floorCopy := r.floorCopy.put die r.floor
      pendFloors := r.pendFloors.map fun p => { p with await := insNat die p.await } }

/-- A slice of the die holds the version, which is not below the die's copy of the floor: the lane is served there
(R338). -/
def State.versionHit (s : State) (r : Region) (key die sec n : Nat) : Bool :=
  (decide (r.die = die) || decide (r.floorCopy.getD die 0 ≤ n)) && s.clusters.any fun c => dieOfCluster c.1 == die &&
    c.2.slice.any fun l => l.tag == .version key n && l.valid.contains sec

/-- A version that a cluster reads stands in its slice afterwards; one that the home serves makes the reader's die a
sharer (R338). -/
def State.readVersion (s : State) (key clu sec n : Nat) : State :=
  let die := dieOfCluster clu
  let s := match s.regions.get? key with
    | some r => if s.versionHit r key die sec n then s else s.modRegion key fun r => r.join die
    | none => s
  s.modCluster clu fun c => { c with slice := sliceUse c.slice (.version key n) sec .read }

/-- The dies that a floor or the end of a region must reach. -/
def State.regionDies (s : State) (r : Region) : List Nat :=
  (if r.broadcast then s.rollDies r.part else r.sharers).filter fun d => d != r.die

/-- Every slice drops its lines of a region (R330). -/
def State.dropVersions (s : State) (key : Nat) : State :=
  { s with clusters := s.clusters.map fun p => (p.1, { p.2 with
      slice := p.2.slice.filter fun l => match l.tag with
        | .version k _ => k != key
        | _ => true }) }

/-! ## VST (R332) -/

/-- The lanes of one group: one sector and one version. -/
def vstGroups (ver : Nat → Nat) (ls : List VLane) : List (List VLane) :=
  (dedup (ls.map fun l => (l.key, sectorOf l.va, ver l.lane))).map fun g =>
    ls.filter fun l => (l.key, sectorOf l.va, ver l.lane) == g

/-- What a group's turn at the home comes to. -/
inductive VstTurn
  | made (s : State)
  | trap (cause : Nat) (info : Word)
  | hold (s : State) (pool : Bool)

/-- One group as one step of its sector's version order. -/
def State.vstGroup (s : State) (k : Site) (nb : Bool) (ver : Nat) (f : Nat → List Byte) (g : List VLane) : VstTurn :=
  match g with
  | [] => .made s
  | l :: _ =>
    match s.regionOf l with
    | none => .trap 0x09 1
    | some r =>
      let sec := sectorOf l.va
      let x := s.versionsOf r l.va l.pa
      if ver < r.floor || x.taken ver then .trap 0x0C (w32 ver)
      else if r.depth ≤ x.live then .hold s false
      else if !r.slotFree then
        let again : Bool := match k.w.wait with
          | some y => match y.form with
            | .version [(key, se, n, _)] true true _ => key == l.key && se == sec && n == ver
            | _ => false
          | none => false
        .hold (if again || nb then s
          else s.post (s.record 0x24 0 k.sw.ctx (w32 r.rid) 0 0 0 0)) true
      else
        let new := groupBytes (g.map fun y => ⟨y.lane, w64 y.va, y.va, 0⟩) f sec
        let old := (x.newest fun n => decide (n < ver)).getD ⟨0, List.replicate 32 0, false⟩
        if new.length < 32 && old.bad then .trap 0x15 k.e.pc
        else
          let s := s.createVersion l.key sec x ⟨ver, mergeBytes old.bytes new, false⟩
          .made (s.markDirty (sectorOf l.pa))

/-- Groups in ascending order of their lowest lane; under .nb an unserved group is passed over. -/
def State.vstGo (k : Site) (scalar nb : Bool) (ver : Nat → Nat) (f : Nat → List Byte) :
    List (List VLane) → Mask → Mask → State → Eff
  | [], _, un, s =>
    let s := if nb then s.modWeft k.sid k.wid fun w =>
        w.pput 6 (if scalar then 0xFFFFFFFF else k.e.mask) (if scalar && un != 0 then 0 else ~~~un)
      else s
    .fly s k.flight
  | g :: gs, done, un, s =>
    let lanes := k.span scalar (g.map fun l => l.lane)
    let n := ((g.head?).map fun l => ver l.lane).getD 0
    let sec := ((g.head?).map fun l => sectorOf l.va).getD 0
    match s.vstGroup k nb n f g with
    | .made s => State.vstGo k scalar nb ver f gs (done ||| lanes) un s
    | .trap c info => .trap s ⟨c, lanes, canonicalVa sec, info, done⟩
    | .hold s pool =>
      if nb then State.vstGo k scalar nb ver f gs done (un ||| lanes) s
      else
        let key := ((g.head?).map fun l => l.key).getD 0
        .wait s (.version [(key, sec, n, lanes)] true pool (s.waitersFull key)) done

def execVst (d : CSrc) (a b : Src) (f n w : Bool) (s : State) : Out :=
  s.issue (.vst d a b f n w) fun k s =>
    let scalar := k.allScalar [d.toSrc, a, b]
    let size := 4 * grp w
    let ver := fun (l : Nat) => (k.val b l).toNat
    match s.versionLanes k scalar .vstore size (k.accessLanes scalar (k.addr a)) with
    | (s, .error t) => .trap s t
    | (s, .ok ls) =>
      let past := ls.filter fun l => ver l.lane == 2 ^ 32 - 1
      match past with
      | l :: _ =>
        .trap s ⟨0x0D, k.span scalar (past.map fun l => l.lane), canonicalVa (sectorOf l.va), 0xFFFFFFFF, 0⟩
      | [] =>
        k.withRelease s true true
          (State.vstGo k scalar n ver (fun l => k.dataBytes d.toSrc size l) (vstGroups ver ls) 0 0)

/-! ## VLD (R333) -/

/-- What a lane's read comes to. -/
inductive VldTurn
  | read (v : Version)
  | missing
  | hold

/-- One lane at its point (R333). -/
def State.vldLane (s : State) (le : Bool) (ver : Nat) (l : VLane) : VldTurn :=
  match s.regionOf l with
  | none => .missing
  | some r =>
    let x := s.versionsOf r l.va l.pa
    if le then
      match x.newest fun n => decide (n ≤ ver) with
      | some v => .read v
      | none => .missing
    else if ver < r.floor then .missing
    else
      match x.vers.find? fun v => v.n == ver with
      | some v => .read v
      | none => .hold

def VldTurn.isMissing : VldTurn → Bool
  | .missing => true
  | _ => false

def VldTurn.isHold : VldTurn → Bool
  | .hold => true
  | _ => false

def VldTurn.version? : VldTurn → Option Version
  | .read v => some v
  | _ => none

def execVld (d : Dst) (a b : Src) (f n l w : Bool) (s : State) : Out :=
  s.issue (.vld d a b f n l w) fun k s =>
    let scalar := k.allScalar [d.toSrc, a, b]
    let g := grp w
    let ver := fun (x : Nat) => (k.val b x).toNat
    match s.versionLanes k scalar .vload (4 * g) (k.accessLanes scalar (k.addr a)) with
    | (s, .error t) => .trap s t
    | (s, .ok ls) =>
      let rs := ls.map fun x => (x, s.vldLane l (ver x.lane) x)
      let missing := rs.filter fun r => r.2.isMissing
      let held := rs.filter fun r => r.2.isHold
      match missing with
      | r :: _ =>
        .trap s ⟨0x0B, k.span scalar (missing.map fun r => r.1.lane), canonicalVa (sectorOf r.1.va),
          w32 (ver r.1.lane), 0⟩
      | [] =>
        if !held.isEmpty && !n then
          .wait s (.version (held.map fun r =>
            (r.1.key, sectorOf r.1.va, ver r.1.lane, k.span scalar [r.1.lane])) false false
            (held.any fun r => s.waitersFull r.1.key)) 0
        else
          let got := rs.filterMap fun r => r.2.version?.map fun v => (r.1, v)
          let m := k.span scalar (got.map fun r => r.1.lane)
          let vals := got.foldl (fun (t : Tab (List Word)) r => t.put r.1.lane
            (groupWords g (leNat ((r.2.bytes.drop (r.1.va % 32)).take (4 * g))))) []
          let bad := (got.filter fun r => r.2.bad).map fun r => (r.1.lane, canonicalVa r.1.va)
          let s := got.foldl (fun s r => s.readVersion r.1.key k.clu (sectorOf r.1.va) r.2.n) s
          let s := if n then s.modWeft k.sid k.wid fun w =>
              w.pput 6 (if scalar then 0xFFFFFFFF else k.act)
                (if scalar then (if held.isEmpty then 0xFFFFFFFF else 0) else m)
            else s
          let s := if got.isEmpty then s else s.acquire k.die true
          .fly s { ({ k with act := m } : Site).fly d g vals with poison := k.poisonOf scalar bad }

/-! ## VFLOOR and VQRY (R335, R336) -/

/-- The package and die that a number above this package's own dies names (`State.dieId`). -/
def awayDie (d : Nat) : Nat × Nat := (d / 4 - 1, d % 4)

/-- The floor is sent to the dies of other packages that it must reach (R335). -/
def State.sendFloor (s : State) (key floor : Nat) (r : Region) (dies : List Nat) : State :=
  s.modPkg fun p => { p with sent := p.sent ++ (dies.filter fun d => decide (4 ≤ d)).map fun d =>
    ⟨(awayDie d).1, (awayDie d).2, false, p.fpkg, r.die % 4, false, 11, 0, 0,
      natBytes 4 key ++ [2] ++ natBytes 4 floor⟩ }

def execVfloor (a b : Src) (f : Bool) (s : State) : Out :=
  s.issue (.vfloor a b f) fun k s =>
    match s.versionLanes k true .vstore 1 (k.accessLanes true (k.addr a)) with
    | (s, .error t) => .trap s t
    | (s, .ok []) => .fly s k.flight
    | (s, .ok (l :: _)) =>
      k.withRelease s true true fun s =>
      let b := (k.scalar b).toNat
      match s.regionOf l with
      | none => .fly s k.flight
      | some r =>
        let await := s.regionDies r
        if b ≤ r.floor then .fly s k.flight
        else if await.isEmpty then .fly (s.raiseFloor l.key b) k.flight
        else .fly ((s.sendFloor l.key b r await).modRegion l.key fun r => { r with
            pendFloors := r.pendFloors ++ [⟨b, await, k.sid, k.wid⟩] }) { k.flight with kind := .floor l.key }

/-- Head, floor, live count and base of a sector. -/
def State.queryVersions (s : State) (l : VLane) : List Word :=
  match s.regionOf l with
  | none => [0, 0, 0, 0]
  | some r =>
    let x := s.versionsOf r l.va l.pa
    let base := if r.floor = 0 then 2 ^ 32 - 1
      else ((x.newest fun n => decide (n < r.floor)).map fun v => v.n).getD (2 ^ 32 - 1)
    [w32 x.head, w32 r.floor, w32 x.live, w32 base]

def execVqry (d : Dst) (a : Src) (f : Bool) (s : State) : Out :=
  s.issue (.vqry d a f) fun k s =>
    let scalar := k.allScalar [d.toSrc, a]
    match s.versionLanes k scalar .vload 1 (k.accessLanes scalar (k.addr a)) with
    | (s, .error t) => .trap s t
    | (s, .ok ls) => .fly s (k.fly d 4 (ls.map fun l => (l.lane, s.queryVersions l)))

/-! ## VREG (R328, R329) -/

/-- A region descriptor as numbers. -/
def regionOfBytes (bs : List Byte) (part rid : Nat) : Region :=
  let t := leNat bs
  let f := fun (off n : Nat) => t / 2 ^ (8 * off) % 2 ^ n
  { part := part, rid := rid, die := 0, vbase := f 0 64, size := f 8 64
    depth := f 0x11 8, floor := 0, dir := f 0x18 64, pool := f 0x20 64, pslots := f 0x28 32
    img := t.testBit 128, sectors := [], sharers := [], broadcast := false, floorCopy := [], pendFloors := [] }

/-- Reserved fields of the descriptor hold zero. -/
def regionReservedZero (bs : List Byte) : Bool :=
  let t := leNat bs
  nbits t 135 129 == 0 && nbits t 159 144 == 0 && nbits t 191 160 == 0 && t / 2 ^ (8 * 0x2C) == 0

/-- The 64 KiB pieces of a range. -/
def pieces (size : Nat) : List Nat := (List.range ((size + 65535) / 65536)).map fun i => 65536 * i

/-- The frame of a piece of the range that R329 admits. -/
def State.regionFrame (s : State) (ctx : Word) (die va : Nat) : Option Nat :=
  match if canonical (w64 va) then s.walkPa ctx va else .error 0x09 with
  | .ok t => if pteVer t.leaf && pteR t.leaf && s.dieIdOf t.pa == die then some t.pa else none
  | .error _ => none

def spansMeet (a n b m : Nat) : Bool := decide (a < b + m) && decide (b < a + n)

/-- The status of a VREG: the first check that fails. -/
def State.regionStatus (s : State) (ctx : Word) (bs : List Byte) (r : Region) : Nat :=
  let al := fun (x : Nat) => x % 65536 == 0
  let own := s.regions.filter fun p => p.2.part == r.part
  let frames := (pieces r.size).map fun o => s.regionFrame ctx r.die (r.vbase + o)
  let dirLen := r.size / 2
  let poolLen := 65536 * r.pslots
  let below := fun (a n : Nat) => decide (dieAddr a + n ≤ s.sidecarAt a)
  if !regionReservedZero bs || r.depth < 2 || 16 < r.depth then 1
  else if !(al r.vbase && al r.size && al r.dir && al r.pool) || r.size == 0 || r.pslots == 0 then 2
  else if frames.any fun f => f.isNone then 3
  else if own.any fun p => spansMeet r.vbase r.size p.2.vbase p.2.size then 4
  else if Config.regionsPerPartition ≤ own.length then 5
  else if s.dieIdOf r.pool ≠ r.die || spansMeet r.dir dirLen r.pool poolLen || !below r.dir dirLen ||
      !below r.pool poolLen ||
      frames.any (fun f => match f with
        | some pa => spansMeet pa 65536 r.dir dirLen || spansMeet pa 65536 r.pool poolLen
        | none => false) then 6
  else 0

/-- The lowest free region id of a partition. -/
def State.freeRegion (s : State) (part : Nat) : Nat :=
  ((List.range 64).find? fun i => (s.regions.get? (64 * part + i)).isNone).getD 64

/-- VREG: the region id that a failed VREG writes is a free value (log 14). -/
def execVreg (d : Dst) (a : Src) (s : State) : Out :=
  s.issue (.vreg d a) fun k s =>
    match s.readLanes k true 64 false (k.accessLanes true (k.addr a)) with
    | (s, .error t) => .trap s t
    | (s, .ok r) =>
      k.withAnswers s r.asks <|
      let regs := k.dstRegs d 2
      let out := fun (s : State) (x y : Word) => s.modWeft k.sid k.wid fun w =>
        k.put w d 2 (((lanesOf k.act).take 1).map fun l => (l, [x, y]))
      match k.poisonOf true r.bad with
      | some p => .done ((out s 0 0).modWeft k.sid k.wid fun w => regs.foldl (fun w x => w.markPoison p x) w)
      | none =>
        let bs := ((r.vals.head?).map fun x => x.2).getD []
        let part := s.partOfCtx k.sw.ctx
        let rid := s.freeRegion part
        let reg := { regionOfBytes bs part rid with die := s.dieIdOf (regionOfBytes bs part rid).dir }
        let st := s.regionStatus k.sw.ctx bs reg
        if st ≠ 0 then .done (out { s with free := s.free + 1 } (w32 st) (Config.freeWord s.free))
        else k.withRelease s true true fun s =>
          .done (out { s with regions := s.regions.put (64 * part + rid) reg } 0 (w32 rid))

/-! ## VUNREG (R330) -/

/-- A precise trap that falls on a weft that is already waiting (R409): a resident weft takes it at once, an
absent one carries it in its image. -/
def State.trapWaiter (s : State) (sid wid : Nat) (t : Trap) : State :=
  match s.swatch? sid, s.weft? sid wid with
  | some sw, some w =>
    match w.wait with
    | none => s
    | some _ =>
      let pc := ((w.frontier.head?).map fun e => e.pc).getD 0
      let t := { t with done := t.done ||| w.performed }
      if w.place = .absent then
        (s.modWeft sid wid fun w => { w with late := some t }).modWeft sid wid fun w => w.wake s.turn
      else
        let s := s.modSwatch sid fun sw => sw.leaveQueues wid
        if w.trapMode then s.doubleTrap sid wid sw w t else s.takeTrap sid wid t pc
  | _, _ => s

/-- Wefts that wait on a region, with the missing-version trap each takes. -/
def State.regionWaiters (s : State) (key : Nat) : List (Nat × Nat × Trap) :=
  s.swatches.flatMap fun p => p.2.wefts.filterMap fun q =>
    match q.2.wait with
    | some x =>
      match x.form with
      | .version on _ _ _ =>
        match on.find? fun y => y.1 == key with
        | some y =>
          some (p.1, q.1, ⟨0x0B, (on.filter fun z => z.1 == key).foldl (fun m z => m ||| z.2.2.2) 0, canonicalVa y.2.1,
            w32 y.2.2.1, 0⟩)
        | none => none
      | _ => none
    | none => none

/-- Every wait on the region ends in its trap (R330). -/
def State.endRegionWaits (s : State) (key : Nat) : State :=
  (s.regionWaiters key).foldl (fun s x => s.trapWaiter x.1 x.2.1 x.2.2) s

/-- What a range of memory holds is undefined (log 11). -/
def State.loseBytes (s : State) (a n : Nat) : State :=
  { s with
    mem := (rangeFrom a n).foldl (fun m x => memPut m x (Config.undefinedByte s.free x)) s.mem
    free := s.free + 1 }

/-- Directory, pool and frames are ordinary memory again, their contents undefined (R330). -/
def State.loseRegion (s : State) (ctx : Word) (r : Region) : State :=
  let s := (s.loseBytes r.dir (r.size / 2)).loseBytes r.pool (65536 * r.pslots)
  (pieces r.size).foldl (fun s o => match s.regionFrame ctx r.die (r.vbase + o) with
    | some pa => s.loseBytes pa 65536
    | none => s) s

/-- A versioned access that moves in the region: a floor on its way, or a reservation (R330). -/
def Region.inFlight (r : Region) : Bool :=
  !r.pendFloors.isEmpty || r.sectors.any fun p => !p.2.reserved.isEmpty

def execVunreg (d : Dst) (a : Src) (s : State) : Out :=
  s.issue (.vunreg d a) fun k s =>
    let out := fun (s : State) (x : Word) => s.modWeft k.sid k.wid fun w =>
      k.put w d 1 (((lanesOf k.act).take 1).map fun l => (l, [x]))
    let id := (k.scalar a).toNat
    let key := 64 * s.partOfCtx k.sw.ctx + id
    match if id < 64 then s.regions.get? key else none with
    | none => .done (out s 1)
    | some r =>
      if r.inFlight then .hold s fun s => s.endRegionWaits key
      else
        let s := ((s.endRegionWaits key).dropVersions key).loseRegion k.sw.ctx r
        .done (out { s with regions := s.regions.del key } 0)

end Sys2Proof.Machine
end

