-- ==== Sys2Proof/Machine/Rotation.lean ====
section
/-!
DEFINITION. Placing and releasing swatches (R157 to R160, R280, R357, R361), the changing bag (R230 to
R236), the save of a swatch through the shadow store (R240, R364, R365), and the wakes that reach absent
wefts (R229, R236).
-/
namespace Sys2Proof.Machine

/-! ## What a core has in use -/

/-- Swatches placed on a core. -/
def State.onCore (s : State) (core : Nat) : List (Nat × Swatch) :=
  s.swatches.filter fun p => p.2.core? == some core

/-- Quadrant, slot and vector budget of each resident weft of a core. -/
def State.slotsUsed (s : State) (core : Nat) : List (Nat × Nat × Nat) :=
  (s.onCore core).flatMap fun p => p.2.wefts.filterMap fun q =>
    match q.2.place with
    | .slot a i => some (a, i, q.2.vbud)
    | .absent => none

/-- Free vector registers of a quadrant. -/
def quadFree (used : List (Nat × Nat × Nat)) (q : Nat) : Nat :=
  Config.vregsPerQuadrant - ((used.filter fun u => u.1 == q).map fun u => u.2.2).sum

/-- A quadrant has a free slot and room for a budget. -/
def quadRoom (used : List (Nat × Nat × Nat)) (v q : Nat) : Bool :=
  decide (v ≤ quadFree used q) && decide ((used.filter fun u => u.1 == q).length < Config.slotsPerQuadrant)

/-- The quadrant with the most free vector registers that has room, and its lowest free slot (R159). -/
def quadChoice (used : List (Nat × Nat × Nat)) (v : Nat) : Option (Nat × Nat) :=
  match [0, 1, 2, 3].filter fun q => quadRoom used v q with
  | [] => none
  | q :: qs =>
    let b := qs.foldl (fun b x => if quadFree used b < quadFree used x then x else b) q
    ((List.range Config.slotsPerQuadrant).find? fun i =>
      !used.any fun u => u.1 == b && u.2.1 == i).map fun i => (b, i)

/-- One slot can be had for each budget in turn. -/
def quadsFit : List Nat → List (Nat × Nat × Nat) → Bool
  | [], _ => true
  | v :: vs, used =>
    match quadChoice used v with
    | some (q, i) => quadsFit vs ((q, i, v) :: used)
    | none => false

/-- The lowest range of free scratchpad lines (R157). -/
def freeLines (used : List (Nat × Nat)) (n : Nat) : Option Nat :=
  let ok := fun (a : Nat) => decide (a + n ≤ Config.spadLines) &&
    used.all fun u => decide (a + n ≤ u.1) || decide (u.1 + u.2 ≤ a)
  ((0 :: used.map fun u => u.1 + u.2).filter ok).min?

/-- The lowest free numbers below a limit. -/
def freeNumbers (limit : Nat) (used : List Nat) (n : Nat) : Option (List Nat) :=
  let f := ((List.range limit).filter fun i => !used.contains i).take n
  if f.length = n then some f else none

/-- What a core gives a swatch. -/
structure Room where
  slot : Nat
  line : Nat
  acc : List Nat
  neg : List Nat
  deriving DecidableEq, Repr

/-- A cluster has an account entry for the context or a free one (R287). -/
def Cluster.hasAccount (c : Cluster) (ctx : Word) : Bool :=
  (c.accounts.any fun a => a.ctx == ctx) || decide (c.accounts.length < Config.accounts)

/-- The units a swatch would use are in service: not fenced, stopped or vacated (R364, R384). -/
def State.coreServes (s : State) (core : Nat) : Bool :=
  let k := s.core core
  !k.stopped && !k.vacated && !s.pkg.fclus.testBit (clusterOfCore core) &&
    !(s.pkg.fcore.getD (clusterOfCore core) 0).testBit (core % 6)

/-- Vector budgets of the declared roles of a launch. -/
def Launch.roleBudgets (l : Launch) : List Nat := l.roleRec.map fun r => r.2.2.1

/-- The capacity test of R157, with the account of R287. -/
def State.roomFor (s : State) (core : Nat) (sw : Swatch) : Option Room :=
  let on := s.onCore core
  let used := on.map fun p => (p.2.spline, p.2.spsize / 128)
  let recs := on.filterMap fun p => match p.2.place with
    | .placed _ r => some r
    | _ => none
  let roles := ((s.launches.get? sw.launch).map Launch.roleBudgets).getD []
  if !s.coreServes core || !(s.cluster (clusterOfCore core)).hasAccount sw.ctx then none
  else
    match (List.range Config.swatchRecords).find? (fun i => !recs.contains i),
        freeLines used (sw.spsize / 128),
        freeNumbers Config.accTiles (on.flatMap fun p => p.2.accMap) sw.accMap.length,
        freeNumbers Config.negSlots (on.flatMap fun p => p.2.negMap) sw.negMap.length with
    | some r, some l, some a, some n =>
      if quadsFit roles (s.slotsUsed core) then some ⟨r, l, a, n⟩ else none
    | _, _, _, _ => none

/-! ## Candidates (R230) -/

/-- The entry that issues next and header word 0 of its clause, from the running clause or the cached header. -/
def State.nextTest (s : State) (sw : Swatch) (w : Weft) : Option (Entry × Word) :=
  match w.clause with
  | some cl => if cl.tested then none else w.frontier.head?.map fun e => (e, cl.h0)
  | none =>
    match sortFrontier w.frontier with
    | e :: _ => (s.cachedWord sw.clu sw.ctx e.hdr.toNat).map fun h => (e, h)
    | [] => none

/-- A count whose wait is one in the sense of R8: a collective's (R404), or that of a BAR at which no entry
waits any more (R138). -/
def FlightKind.waits : FlightKind → Bool
  | .collective _ _ => true
  | .barHeld _ _ _ => true
  | _ => false

/-- The weft without the counts whose wait is one of R8. -/
def Weft.withoutWaits (w : Weft) : Weft :=
  let mine := fun (f : Flight) => f.kind.waits
  { (w.flights.filter mine).foldl (fun w f => w.flagDec f.flag) w with
    flights := w.flights.filter fun f => !mine f }

/-- The next clause is held only by counts of collectives (R404) or of left barriers (R138): its wait test fails,
and would not without them. -/
def State.countHeld (s : State) (sw : Swatch) (w : Weft) : Bool :=
  w.atRest && match s.nextTest sw w with
    | some (e, h) => !w.waitMet e h && w.withoutWaits.waitMet e h
    | none => false

/-- The weft waits in a form of R8. -/
def Weft.waitsR8 (w : Weft) : Bool := (w.wait.map fun x => !x.woken && x.form.isR8).getD false

/-- A classified poller that no write has woken; one of several entries is not woken while it is resident (R230,
R238). -/
def Weft.polls (w : Weft) : Bool :=
  w.wait.isNone && w.loupe.polling && (!w.loupe.fired || decide (2 ≤ w.frontier.length))

/-- A weft is an eviction candidate (R230); a halted one is none (R368). -/
def State.candidate (s : State) (sw : Swatch) (w : Weft) : Bool :=
  !w.ended && w.halted.isNone && !s.ctxHalted sw.ctx && (w.waitsR8 || w.polls || s.countHeld sw w)

/-- Since when a candidate has been one: one held by counts alone since it last issued. -/
def Weft.waitingSince (w : Weft) : Nat :=
  if w.wait.isNone && !w.loupe.polling then w.readySince else w.candSince

/-- An absent weft is runnable (R230, R404). -/
def State.runnable (s : State) (sw : Swatch) (w : Weft) : Bool :=
  w.place == .absent && w.runs && !s.ctxHalted sw.ctx &&
    (w.late.isSome || (!w.trapMode && w.pend.any) || !s.countHeld sw w)

/-! ## The distributor (R357, R361, R370) -/

/-- A context's swatches may be placed: no switch has given the partition's cores to another (R370). -/
def State.ctxActive (s : State) (ctx : Word) : Bool :=
  match (s.ctx? ctx).bind fun c => s.parts.get? c.part with
  | some p => !p.noCtx && (p.active.isNone || p.active == some ctx)
  | none => false

/-- The partner swatch of a per-swatch edge has been released (R361). -/
def State.partnerDone (s : State) (l : Launch) (linear : Nat) : Bool :=
  match l.node with
  | none => true
  | some (run, node) =>
    match s.graphs.get? run with
    | none => true
    | some g =>
      match g.swHeld.get? node with
      | none => true
      | some p => g.finished.contains p ||
        s.swatches.any fun x => x.2.linear == linear && x.2.place == .released &&
          (s.launches.get? x.2.launch).any fun m => m.node == some (run, p)

/-- A swatch is ready to be placed: it has not run, or it was saved and is back at the distributor or has a
runnable weft (R240, R364). -/
def State.awaits (s : State) (sw : Swatch) : Bool :=
  (match sw.place with
    | .waiting => true
    | .saved back => back || sw.wefts.any fun p => s.runnable sw p.2
    | _ => false) &&
  sw.control.isNone && s.ctxActive sw.ctx &&
  (s.launches.get? sw.launch).any fun l => l.startedOn.contains (dieOfCluster sw.cluster) && s.partnerDone l sw.linear

/-- The swatch at the head of a cluster's dispatch: launches in the order they started, then the linear
index. -/
def State.headSwatch (s : State) (clu : Nat) : Option (Nat × Swatch) :=
  match s.swatches.filter fun p => p.2.cluster == clu && s.awaits p.2 with
  | [] => none
  | x :: xs => some (xs.foldl (fun b y =>
      if y.2.launch < b.2.launch || (y.2.launch == b.2.launch && y.2.linear < b.2.linear) then y else b) x)

/-- Cores of a cluster in the order the distributor tries them (R357). -/
def State.coreOrder (s : State) (clu : Nat) : List Nat :=
  (List.range 6).map fun i => 6 * clu + ((s.cluster clu).lastCore + 1 + i) % 6

/-- The swatch dispatched next in a cluster and its core. -/
def State.dispatch? (s : State) (clu : Nat) : Option (Nat × Nat) :=
  match s.headSwatch clu with
  | none => none
  | some (sid, sw) =>
    ((s.coreOrder clu).find? fun c => (s.roomFor c sw).isSome).map fun c => (sid, c)

/-! ## Loading a weft (R159, R233) -/

/-- Resident wefts of a swatch. -/
def Swatch.residentCount (sw : Swatch) : Nat := (sw.wefts.filter fun p => p.2.place != .absent).length

/-- The swatch is below its residency cap (R159). -/
def Swatch.belowCap (sw : Swatch) : Bool := sw.cap == 0 || decide (sw.residentCount < sw.cap)

/-- A weft that has not run starts with the priority of its header (R46, R100). -/
def State.startPrio (s : State) (sid wid : Nat) : State :=
  match s.swatch? sid with
  | none => s
  | some sw => s.modWeft sid wid fun w =>
      if w.started then w
      else { w with frontier := w.frontier.map fun e => { e with prio := s.prioAt sw.clu sw.ctx e.hdr } }

/-- A weft takes a slot; `bag` says that the bag loads it. A trap recorded in its image is taken at once
(R409). -/
def State.loadInto (s : State) (sid wid q i : Nat) (bag : Bool) : State :=
  let late := (s.weft? sid wid).bind fun w => w.late
  let pc := (((s.weft? sid wid).bind fun w => w.frontier.head?).map fun e => e.pc).getD 0
  let s := s.startPrio sid wid
  let s := s.modWeft sid wid fun w => { w with
    place := .slot q i, started := true, spilled := false, fresh := bag, leaving := none, late := none
    latch := [], readySince := s.turn, resSince := s.turn }
  match late with
  | some t => s.takeTrap sid wid t pc
  | none => s

/-- Load a weft of a placed swatch if the cap, a slot and the registers allow. -/
def State.tryLoad (s : State) (sid wid : Nat) (bag : Bool) : Option State :=
  match s.swatch? sid, s.weft? sid wid with
  | some sw, some w =>
    match sw.core? with
    | some core =>
      if sw.belowCap && w.place == .absent && !w.ended then
        (quadChoice (s.slotsUsed core) w.vbud).map fun x => s.loadInto sid wid x.1 x.2 bag
      else none
    | none => none
  | _, _ => none

/-- Load wefts in order until one does not fit. -/
def State.loadAll (sid : Nat) : List Nat → State → State
  | [], s => s
  | w :: ws, s =>
    match s.tryLoad sid w false with
    | some s => State.loadAll sid ws s
    | none => s

/-- The lowest runnable wid of each role: the gang start (R159). -/
def Swatch.gang (sw : Swatch) : List Nat :=
  [Role.general, .load, .math, .store].filterMap fun r =>
    ((sw.wefts.filter fun p => p.2.role == r && p.2.task.isNone && p.2.runs).head?).map fun p => p.1

/-! ## Placing a swatch (R157 to R159) -/

/-- An entry of the static schedule from its eight words (R178). -/
def schedEntry (bs : List Byte) : SchedEntry :=
  let w := fun (i : Nat) => leNat ((bs.drop (4 * i)).take 4)
  ⟨w32 (w 0), w 1, [w 2, w 3, w 4, w 5], (w32 (w 6)).toInt, w32 (w 7)⟩

/-- Bytes at a virtual address, across a page's end too. -/
def State.virtualBytes (s : State) (ctx : Word) (va n : Nat) : Option (List Byte) :=
  let first := min n (65536 - va % 65536)
  match s.walkPa ctx va, (if first = n then .ok ⟨0, 0, 0⟩ else s.walkPa ctx (va + first)) with
  | .ok t, .ok u => some (s.homeBytes t.pa first ++ s.homeBytes u.pa (n - first))
  | _, _ => none

/-- The static schedule as read at placement: at most 64 entries, to the first that is last (R178). -/
def State.readSched (s : State) (ctx : Word) (va : Nat) : Nat → List SchedEntry
  | 0 => []
  | n + 1 =>
    match s.virtualBytes ctx va 32 with
    | none => []
    | some bs =>
      let e := schedEntry bs
      if e.w0.toNat.testBit 2 then [e] else e :: s.readSched ctx (va + 32) n

/-- A cluster binds an account and a deadline record to a context whose swatch it places (R284, R287). -/
def Cluster.bindCtx (c : Cluster) (ctx : Word) : Cluster :=
  let c := if c.accounts.any fun a => a.ctx == ctx then c
    else { c with accounts := c.accounts ++ [⟨ctx, 0, false, false, false⟩] }
  if (c.deadlines.get? ctx.toNat).isSome then c
  else { c with deadlines := c.deadlines.put ctx.toNat Deadline.empty }

/-- The stagger of a first placement (R280): how many swatches of the launch were placed here before, and the
cycle of the first. -/
def Cluster.staggerOf (c : Cluster) (launch : Nat) : Nat × Nat := (c.placedK.get? launch).getD (0, c.clk)

/-- Resources of a swatch as placement leaves them (R158): a swatch that has not run starts with all of them
clear. -/
def Swatch.cleared (sw : Swatch) : Swatch :=
  { sw with
    spad := [], spadBad := [], full := [], descs := [], bars := [], parts := [], hwq := [], tags := []
    shapes := [], tiles := [], negs := [] }

/-- A job saved with its swatch continues on the new core under its old number (R365). -/
def Weft.rehome (w : Weft) (core : Nat) : Weft :=
  { w with flights := w.flights.map fun f => match f.kind with
      | .copyJob _ n => { f with kind := .copyJob core n }
      | _ => f }

/-- The swatch record as it stands on its core. -/
def Swatch.placeAt (sw : Swatch) (core : Nat) (r : Room) : Swatch :=
  let sw := if sw.place = .waiting then sw.cleared else sw
  { sw with
    place := .placed core r.slot, spline := r.line, accMap := r.acc, negMap := r.neg, savedJobs := []
    wefts := sw.wefts.map fun p => (p.1, p.2.rehome core) }

/-- What the cluster notes of a placement. -/
def Cluster.notePlacement (c : Cluster) (core : Nat) (sw : Swatch) : Cluster :=
  let k := c.staggerOf sw.launch
  let c := c.bindCtx sw.ctx
  { c with
    lastCore := core % 6, idleTicks := 0
    placedK := if sw.firstPlaced then c.placedK else c.placedK.put sw.launch (k.1 + 1, k.2) }

/-- The launch's own deadline step opens with its first placement in a cluster (R284). -/
def State.openLaunchStep (s : State) (clu : Nat) (sw : Swatch) (owner : Option (Nat × Nat)) : State :=
  match s.launches.get? sw.launch with
  | none => s
  | some l =>
    match l.dline with
    | some (t, w) =>
      if ((s.cluster clu).placedK.get? sw.launch).isNone then
        s.modDeadline clu sw.ctx fun d => d.declare (s.tim + t) w owner
      else s
    | none => s

/-! ## A bolt's barrier records in the slice (R227, R246) -/

/-- The tag of a swatch's bolt. -/
def Swatch.boltTag (sw : Swatch) : SliceTag := .bolt sw.launch (sw.bai * 65536 + sw.boi)

/-- Lines that hold the 32 records of a bolt, eight a line (log 100). -/
def Swatch.boltLines (sw : Swatch) : List Nat := [0, 1, 2, 3].map fun i => 4 * (sw.bai * 65536 + sw.boi) + i

/-- The lines of a bolt's records are pinned in the slice while a swatch of the bolt is placed in the cluster. -/
def State.pinBolt (s : State) (clu : Nat) (sw : Swatch) : State :=
  s.modCluster clu fun c =>
    if c.slice.any fun x => x.tag == sw.boltTag then c
    else { c with slice := sw.boltLines.foldl (fun l n => match sliceRoom l n with
        | some rest => rest ++ [⟨n, [], [], [], sw.boltTag⟩]
        | none => l) c.slice }

/-- The lines of bolts that have no swatch placed in the cluster any more are no longer pinned there. -/
def State.unpinBolts (s : State) (clu : Nat) : State :=
  let tags := (s.swatches.filter fun p => p.2.core?.any fun k => clusterOfCore k == clu).map fun p => p.2.boltTag
  s.modCluster clu fun c => { c with slice := c.slice.filter fun x => !x.pinned || tags.contains x.tag }

/-- PLACEMENT of a swatch on a core. -/
def State.placeSwatch (s : State) (sid core : Nat) : State :=
  match s.swatch? sid with
  | none => s
  | some sw =>
    match s.roomFor core sw with
    | none => s
    | some r =>
      let clu := clusterOfCore core
      let l := s.launches.get? sw.launch
      let stag := (l.map fun l => l.stagger).getD 0
      let k := (s.cluster clu).staggerOf sw.launch
      let fresh := sw.place == .waiting
      let s := s.acquire (dieOfCore core) true
      let sched := if fresh then ((l.bind fun l => l.sched).map fun a => s.readSched sw.ctx a 64).getD []
        else sw.sched
      let s := s.modCore core fun c => { c with jobs := c.jobs ++ sw.savedJobs }
      let s := s.modSwatch sid fun x => { x.placeAt core r with
        sched := sched, firstPlaced := true
        deferTo := if sw.firstPlaced || stag * k.1 = 0 then none else some ((k.2 + 64 * stag * k.1) % 2 ^ 64) }
      let s := s.modCluster clu fun c => c.bindCtx sw.ctx
      let s := s.openLaunchStep clu sw ((sw.gang.head?).map fun w => (sid, w))
      let s := (s.modCluster clu fun c => c.notePlacement core sw).pinBolt clu sw
      let s := State.loadAll sid sw.gang s
      if fresh then State.loadAll sid ((sw.wefts.map fun p => p.1).filter fun w => !sw.gang.contains w) s
      else s

/-- SWATCH_PLACEMENT: the distributor places the head of a cluster's dispatch on the first core that passes
R157, while the cluster is powered (R279). -/
def execSwatchPlacement (sid core : Nat) (s : State) : Out :=
  let clu := clusterOfCore core
  .next (if (s.cluster clu).gating == .on && s.dispatch? clu == some (sid, core) then s.placeSwatch sid core
    else s)

/-- CLUSTER_WAKE: a dispatch to a gated cluster starts its wake (R278). -/
def execClusterWake (cl sid : Nat) (s : State) : Out :=
  .next (s.modCluster cl fun c => if c.gating == .off then { c with gating := .waking sid s.tim } else c)

/-- A wake that began at `since` is over (R278): 3 µs have passed. -/
def State.wakeOver (s : State) (since : Nat) : Bool := decide (3000 ≤ (s.tim + 2 ^ 64 - since) % 2 ^ 64)

/-- WAKE_COMPLETE: the wake is over, the idle timer restarts, and the dispatched swatch is placed (R278). -/
def execWakeComplete (cl : Nat) (s : State) : Out :=
  match (s.cluster cl).gating with
  | .waking _ since =>
    if !s.wakeOver since then .next s
    else
    let s := s.modCluster cl fun c => { c with gating := .on, idleTicks := 0 }
    .next (match s.dispatch? cl with
      | some (sid, core) => s.placeSwatch sid core
      | none => s)
  | _ => .next s

/-- GATING_START: after 50 µs of idleness; a dispatch in the same cycle wins (R278, R279). -/
def execGatingStart (cl : Nat) (s : State) : Out :=
  let c := s.cluster cl
  .next (if c.gating == .on && c.gateEn && s.clusterIdle cl && decide (5000 ≤ c.idleTicks) &&
      (s.dispatch? cl).isNone then
    s.modCluster cl fun c => { c with gating := .starting } else s)

/-- STAGGER_EXPIRY: the deferral of a swatch ends once its time has passed (R280). -/
def execStaggerExpiry (sid : Nat) (s : State) : Out :=
  .next (s.modSwatch sid fun sw => match sw.deferTo with
    | some t =>
      if 2 ^ 63 ≤ ((s.cluster sw.clu).clk + 2 ^ 64 - t) % 2 ^ 64 then sw else { sw with deferTo := none }
    | none => sw)

/-! ## Leaving a core -/

/-- The context has not left a cluster: a swatch of it stands there, in the shadow store too (R284, R303), or it is the
system context of the cluster's control core (R296). -/
def State.ctxStands (s : State) (clu : Nat) (ctx : Word) : Bool :=
  s.swatches.any fun p => p.2.ctx == ctx && p.2.clu == clu && match p.2.place with
    | .placed _ _ => true
    | .shadow _ _ => true
    | _ => p.2.control.isSome

/-- The context's last swatch has left a cluster: its record goes, and its account where R294 allows. -/
def State.departed (s : State) (clu : Nat) (ctx : Word) : State :=
  let s := if s.ctxStands clu ctx then s
    else s.modCluster clu fun c => { c with deadlines := c.deadlines.del ctx.toNat }
  s.releaseAccounts clu

/-- Tasks of a swatch that wait in its launch's pool (R363). -/
def State.hasTasks (s : State) (sid : Nat) (sw : Swatch) : Bool :=
  (s.launches.get? sw.launch).any fun l => l.pool.any fun t => t.sid == sid

/-- The conditions of release (R160, R363). -/
def State.releasable (s : State) (sid : Nat) (sw : Swatch) : Bool :=
  match sw.core? with
  | none => false
  | some core =>
    (sw.wefts.all fun p => p.2.ended && p.2.place == .absent && p.2.flights.isEmpty) &&
      (s.core core).jobs.all (fun j => j.kind == .firmware || j.sid != sid) && !s.hasTasks sid sw

/-- The release of a swatch has something to do: its core's writes leave, or other packages have acknowledged them
(R249, R358). -/
def State.releaseDue (s : State) (sid : Nat) (sw : Swatch) : Bool :=
  s.releasable sid sw && (s.pkg.acked || sw.core?.any fun c => !(s.core c).wbuf.isEmpty)

/-- SWATCH_RELEASE: everything it held is free; its completion is a release at .rl, which other packages acknowledge
first, and, for a graph node, a
kind-3 record (R160, R358). -/
def State.releaseSwatch (s : State) (sid : Nat) : State :=
  match s.swatch? sid with
  | none => s
  | some sw =>
    match sw.core? with
    | none => s
    | some core =>
      if !s.releasable sid sw then s
      else
        let clu := clusterOfCore core
        let s := s.drainCore core
        if !s.pkg.acked then s else
        let s := s.modSwatch sid fun x => { x.cleared with
          place := .released, accMap := [], negMap := [], jobLog := [], descFaults := [], sched := [], wefts := [] }
        let s := s.modLaunch sw.launch fun l => { l with left := l.left - 1 }
        let s := match s.launches.get? sw.launch with
          | some l =>
            if l.node.isSome then s.evPush clu ⟨3, 0, sw.ctx, l.num, w32 sw.swi⟩ else s
          | none => s
        (s.departed clu sw.ctx).unpinBolts clu

def execSwatchRelease (sid : Nat) (s : State) : Out := .next (s.releaseSwatch sid)

/-! ## The bag's choice (R231) -/

/-- A weft with what the bag compares. -/
structure Cand where
  sid : Nat
  wid : Nat
  since : Nat
  quad : Nat
  slot : Nat
  vbud : Nat
  deriving DecidableEq, Repr

def Cand.before (a b : Cand) : Bool :=
  decide (a.since < b.since) || (a.since == b.since && (decide (a.quad < b.quad) ||
    (a.quad == b.quad && decide (a.slot ≤ b.slot))))

def firstCand : List Cand → Option Cand
  | [] => none
  | c :: cs => some (cs.foldl (fun b x => if b.before x then b else x) c)

/-- The bag leaves a context alone that `griudb` holds (R245). -/
def State.bagMay (s : State) (sw : Swatch) : Bool := !s.griudbStopped sw.ctx

/-- The incoming weft: runnable longest, then the lowest swatch record, then the lowest wid. -/
def State.incoming? (s : State) (core : Nat) : Option Cand :=
  firstCand ((s.onCore core).flatMap fun p =>
    if !s.bagMay p.2 then []
    else
      let rec_ := match p.2.place with
        | .placed _ r => r
        | _ => 0
      (p.2.wefts.filter fun q => s.runnable p.2 q.2).map fun q =>
        ⟨p.1, q.1, q.2.runSince, rec_, q.1, q.2.vbud⟩)

/-- Resident wefts of a core that a test picks, with the age it compares. -/
def State.residentsWhere (s : State) (core : Nat) (f : Nat → Swatch → Weft → Bool) (age : Weft → Nat) :
    List Cand :=
  (s.onCore core).flatMap fun p => p.2.wefts.filterMap fun q =>
    match q.2.place with
    | .slot a i => if f p.1 p.2 q.2 then some ⟨p.1, q.1, age q.2, a, i, q.2.vbud⟩ else none
    | .absent => none

/-- The outgoing weft's quadrant, once freed, has room for the incoming one. -/
def Cand.frees (o : Cand) (used : List (Nat × Nat × Nat)) (v : Nat) : Bool :=
  decide (v ≤ quadFree used o.quad + o.vbud)

/-- Rows 1 to 3: the incoming weft and the one to save, if any. -/
def State.bagRow (s : State) (core : Nat) : Option (Cand × Option Cand) :=
  match s.incoming? core with
  | none => none
  | some x =>
    match s.swatch? x.sid with
    | none => none
    | some sw =>
      let used := s.slotsUsed core
      if sw.belowCap && (quadChoice used x.vbud).isSome then some (x, none)
      else if (s.core core).spillBlocked then none
      else
        let pick := fun (own : Bool) =>
          firstCand ((s.residentsWhere core (fun sid y w => (sid == x.sid) == own && s.bagMay y && w.leaving.isNone &&
            s.candidate y w) Weft.waitingSince).filter fun o => o.frees used x.vbud)
        match pick true with
        | some o => some (x, some o)
        | none => if sw.belowCap then (pick false).map fun o => (x, some o) else none

/-- Row 4: both have stood for 65536 turns (log 9), and the cap holds after the exchange. -/
def State.bagRow4 (s : State) (core : Nat) : Option (Cand × Cand) :=
  match s.incoming? core with
  | none => none
  | some x =>
    match s.swatch? x.sid with
    | none => none
    | some sw =>
      if s.turn - x.since < Config.bagAge || (s.core core).spillBlocked then none
      else
        let used := s.slotsUsed core
        (firstCand ((s.residentsWhere core (fun sid y w => !w.ended && w.halted.isNone && !w.fresh &&
          w.leaving.isNone && s.bagMay y && decide (Config.bagAge ≤ s.turn - w.resSince) &&
          (sid == x.sid || sw.belowCap)) fun w => w.resSince).filter fun o => o.frees used x.vbud)).map
            fun o => (x, o)

/-- Some weft of the core is on its way out. -/
def State.anyLeaving (s : State) (core : Nat) : Bool :=
  (s.onCore core).any fun p => p.2.wefts.any fun q => q.2.leaving.isSome

/-- The chosen weft may be loaded now. -/
def State.incomingFits (s : State) (core : Nat) : Bool :=
  match (s.core core).incoming with
  | some (sid, wid) =>
    match s.swatch? sid, s.weft? sid wid with
    | some sw, some w => sw.core? == some core && s.runnable sw w && s.bagMay sw && (s.tryLoad sid wid true).isSome
    | _, _ => false
  | none => false

/-- The bag may choose: nothing leaves, and no chosen weft can be loaded. -/
def State.bagFree (s : State) (core : Nat) : Bool :=
  !(s.core core).stopped && !s.anyLeaving core && !s.incomingFits core

/-- BAG_CHOICE: rows 1 to 3. -/
def State.bagChoice (s : State) (core : Nat) : State :=
  if !s.bagFree core then s
  else
    match s.bagRow core with
    | none => s
    | some (x, o) =>
      let s := s.modCore core fun c => { c with incoming := some (x.sid, x.wid) }
      match o with
      | some y => s.modWeft y.sid y.wid fun w => { w with leaving := some false }
      | none => s

def execBagChoice (core : Nat) (s : State) : Out := .next (s.bagChoice core)

/-- BAG_TIMESLICE: row 4, when no earlier row applies. -/
def State.bagTimeslice (s : State) (core : Nat) : State :=
  if !s.bagFree core || (s.bagRow core).isSome then s
  else
    match s.bagRow4 core with
    | none => s
    | some (x, y) =>
      (s.modCore core fun c => { c with incoming := some (x.sid, x.wid) }).modWeft y.sid y.wid
        fun w => { w with leaving := some true }

def execBagTimeslice (core : Nat) (s : State) : Out := .next (s.bagTimeslice core)

/-! ## The bag store and the spill area (R234, R235) -/

/-- Bytes of the bag store of a core. -/
def bagStore : Nat := 2 ^ 21

/-- Size of a weft's image (R234). -/
def Weft.imageBytes (w : Weft) : Nat := roundUp (256 + 128 * w.valloc + 4 * w.salloc) 256

/-- The weft's image stands in its core's bag store. -/
def Weft.inStore (w : Weft) : Bool := w.place == .absent && w.started && !w.ended && !w.spilled

def State.bagUsed (s : State) (core : Nat) : Nat :=
  ((s.onCore core).flatMap fun p => (p.2.wefts.filter fun q => q.2.inStore).map fun q => q.2.imageBytes).sum

/-- Bytes of a context's spill area in use. -/
def State.spillUsed (s : State) (ctx : Word) : Nat :=
  ((s.swatches.filter fun p => p.2.ctx == ctx).flatMap fun p =>
    (p.2.wefts.filter fun q => q.2.spilled && !q.2.ended).map fun q => q.2.imageBytes).sum

/-- The image absent longest in a core's bag store. -/
def State.oldestImage (s : State) (core : Nat) : Option Cand :=
  firstCand ((s.onCore core).flatMap fun p => (p.2.wefts.filter fun q => q.2.inStore).map fun q =>
    ⟨p.1, q.1, q.2.absentSince, p.1, q.1, q.2.imageBytes⟩)

/-- An image takes its bytes of the spill area, behind those in use; what they hold is opaque (R234, R235,
log 99). -/
def State.spillBytes (s : State) (ctx : Word) (n : Nat) : State :=
  match s.ctx? ctx with
  | none => s
  | some c =>
    if s.spillUsed ctx + n ≤ 65536 * c.spPages then
      let a := c.spBase + s.spillUsed ctx
      ({ s with free := s.free + 1 } : State).homeWriteBytes none a
        ((rangeFrom a n).map fun x => Config.undefinedByte s.free x)
    else s

/-- An image is written to the spill area of its context; the error names the context whose area is absent
or full. -/
def State.spillOne (s : State) (c : Cand) : Except Word State :=
  match s.swatch? c.sid with
  | none => .ok s
  | some sw =>
    let pages := ((s.ctx? sw.ctx).map fun x => x.spPages).getD 0
    if s.spillUsed sw.ctx + c.vbud ≤ 65536 * pages then
      .ok ((s.spillBytes sw.ctx c.vbud).modWeft c.sid c.wid fun w => { w with spilled := true })
    else .error sw.ctx

/-- Make room in the store, one image at a time. -/
def State.makeRoom (core need : Nat) : Nat → State → State × Option Word
  | 0, s => (s, none)
  | n + 1, s =>
    if s.bagUsed core + need ≤ bagStore then (s, none)
    else
      match s.oldestImage core with
      | none => (s, none)
      | some c =>
        match s.spillOne c with
        | .ok s => State.makeRoom core need n s
        | .error ctx => (s, some ctx)

/-- Images a core's swatches have in its store. -/
def State.imageCount (s : State) (core : Nat) : Nat :=
  ((s.onCore core).flatMap fun p => p.2.wefts.filter fun q => q.2.inStore).length

/-- The spill-exhausted record (R235, R354): the save is taken up again when spsize changes. -/
def State.spillExhausted (s : State) (core : Nat) (ctx : Word) : State :=
  (s.modCore core fun c => { c with spillBlocked := true, incoming := none }).post
    (s.record 0x23 0 ctx (w32 (dieOfCore core)) (w32 (clusterOfCore core % 8)) (w32 (core % 6)) 0 0)

/-! ## Saving a weft (R232) -/

/-- Every count that the save waits for is zero (R244, R404): a collective's or a left BAR's stays while the weft
waits for it. -/
def Weft.quiet (w : Weft) (held : Bool) : Bool :=
  (w.flights.isEmpty || (held && w.flights.all fun f => f.kind.waits)) &&
    (w.atRest || w.wait.isSome)

/-- A weft that stands in its image: no slot, no latch; an unfinished clause stays, one not begun does not; the watch of
a poller takes effect, so one that a write has reached is woken (R232, R238). -/
def Weft.toImage (w : Weft) (t : Nat) : Weft :=
  let w' : Weft := { w with
    place := .absent, latch := [], leaving := none, spilled := false, absentSince := t, fresh := false
    clause := if w.atRest then none else w.clause
    loupe := if w.loupe.polling && w.loupe.fired then Loupe.idle else w.loupe }
  if w'.runs then { w' with runSince := t } else w'

/-- A weft saved while polling resumes at its loop's branch target (R238): its top entry stands there. -/
def State.atLoop (s : State) (sw : Swatch) (w : Weft) : Weft :=
  if !w.loupe.polling || !w.atRest then w
  else
    match sortFrontier w.frontier with
    | [] => w
    | e :: es =>
      let t := w.loupe.target
      { w with
        clause := none
        frontier := sortFrontier (joinAt es ⟨t, t, s.prioAt sw.clu sw.ctx t, e.mask, false⟩) }

/-- The weft as its save leaves it. -/
def State.imageOf (s : State) (sw : Swatch) (w : Weft) : Weft := (s.atLoop sw w).toImage s.turn

/-- WEFT_SAVE: the weft leaves its slot when its flags allow; a wait that has ended, or a trap, abandons the
save; without room for the image the candidate stays. -/
def State.weftSave (s : State) (sid wid : Nat) : State :=
  match s.swatch? sid, s.weft? sid wid with
  | some sw, some w =>
    match w.leaving, sw.core? with
    | some row4, some core =>
      if w.ended || w.halted.isSome || (!row4 && !s.candidate sw w) then
        s.modWeft sid wid fun w => { w with leaving := none }
      else if !w.quiet (s.countHeld sw w) then s
      else
        match State.makeRoom core w.imageBytes (s.imageCount core + 1) s with
        | (s, some ctx) =>
          (s.modWeft sid wid fun w => { w with leaving := none }).spillExhausted core ctx
        | (s, none) => s.modWeft sid wid fun w =>
            { s.imageOf sw w with rot := (w.rot + 1) % 2 ^ 64 }
    | _, _ => s
  | _, _ => s

/-- WEFT_SAVE has something to do. -/
def State.saveDue (s : State) (sw : Swatch) (w : Weft) : Bool :=
  match w.leaving with
  | some row4 => w.ended || w.halted.isSome || (!row4 && !s.candidate sw w) || w.quiet (s.countHeld sw w)
  | none => false

def execWeftSave (sid wid : Nat) (s : State) : Out := .next (s.weftSave sid wid)

/-- WEFT_LOAD: the bag's chosen weft is restored into a slot (R233). -/
def State.weftLoad (s : State) (sid wid : Nat) : State :=
  match (s.swatch? sid).bind fun sw => sw.core? with
  | some core =>
    if (s.core core).incoming == some (sid, wid) && s.incomingFits core then
      match s.tryLoad sid wid true with
      | some s => s.modCore core fun c => { c with incoming := none }
      | none => s
    else s
  | none => s

def execWeftLoad (sid wid : Nat) (s : State) : Out := .next (s.weftLoad sid wid)

/-! ## Wakes (R229, R236) -/

/-- UNIT_ARRIVAL (R228). -/
def execUnitArrival (sid : Nat) (sc : BarScope) (n : Nat) (s : State) : Out := .next (s.unitArrival sid sc n)

/-- WAKE_MESSAGE (R229). -/
def execWakeMessage (core : Nat) (s : State) : Out := .next (s.wakeMessage core)

/-- A barrier's scope by its field (R196). -/
def barScopeOf (n : Nat) : BarScope :=
  match n with
  | 0 => .sw
  | 1 => .bo
  | 2 => .ba
  | _ => .rl

/-- The core serves a wake record (R236): a barrier's completes every absent waiter of the swatch on the record in its
image (R229); another's weft tests again, or goes on with its loop. -/
def State.serveWake (s : State) (r : WakeRec) : State :=
  match s.swatch? r.sid, r.wid with
  | none, _ => s
  | some sw, none =>
    let sc := barScopeOf (r.arg / 64)
    let n := r.arg % 32
    s.phaseIn r.sid sw sc n (s.barRec r.sid sw sc n).phase fun w => w.place == .absent
  | some _, some wid => s.modWeft r.sid wid fun w => w.wake s.turn

/-- WAKE_RECORD: the core serves the first record of its queue. -/
def execWakeRecord (core : Nat) (s : State) : Out :=
  match (s.core core).wakeQ with
  | [] => .next s
  | r :: rs => .next ((s.modCore core fun c => { c with wakeQ := rs }).serveWake r)

/-- Messages and records that wait at a core reach a swatch before it leaves (R229). -/
def State.flushWakes (s : State) (core sid : Nat) : State :=
  match s.swatch? sid with
  | none => s
  | some sw =>
    let k := s.core core
    let s := (k.wakeMsgs.filter fun m => s.inGroup m.launch m.sc m.group sid sw).foldl (fun s m =>
      s.phaseIn sid sw m.sc m.n (s.barRec sid sw m.sc m.n).phase fun _ => true) s
    let s := (k.wakeQ.filter fun r => r.sid == sid).foldl (fun s r => s.serveWake r) s
    s.modCore core fun c => { c with wakeQ := c.wakeQ.filter fun r => r.sid != sid }

/-! ## Saving a swatch (R240, R364, R365) -/

/-- A job that its marker does not wait for: it stands at a line, or behind such a job (R365). -/
def State.jobParked (s : State) (core ix : Nat) (j : Job) : Bool :=
  if j.begun then
    j.err == 0 && decide (j.lines < j.total) &&
      match s.swatch? j.sid with
      | some sw => !j.lineReady sw
      | none => true
  else !(s.core core).mayBegin ix

/-- The swatch's jobs on a core have come to rest. -/
def State.jobsParked (s : State) (core sid : Nat) : Bool :=
  ((s.core core).jobs.zip (List.range (s.core core).jobs.length)).all fun p =>
    p.1.kind == .firmware || p.1.sid != sid || s.jobParked core p.2 p.1

/-- A flight that stays with a saved weft: a parked copy job, a collective in prepare, a barrier's count. -/
def State.flightStays (s : State) (f : Flight) : Bool :=
  match f.kind with
  | .copyJob _ _ => true
  | .barHeld _ _ _ => true
  | .collective die op => ((s.die die).colls.find? fun c => c.id == op).all fun c => c.phase == .prepare
  | _ => false

/-- Every resident weft stands at a clause boundary or waits, and the markers of its engines have returned
(R364, R365). -/
def State.swatchRests (s : State) (core sid : Nat) (sw : Swatch) : Bool :=
  s.jobsParked core sid && sw.wefts.all fun p =>
    p.2.place == .absent || ((p.2.ended || p.2.atRest || p.2.wait.isSome) &&
      p.2.flights.all fun f => s.flightStays f)

/-- The images of a swatch that no spill has written yet are written to the spill area. -/
def State.spillSwatch (s : State) (sid : Nat) : State :=
  match s.swatch? sid with
  | none => s
  | some sw => (sw.wefts.filter fun p => p.2.started && !p.2.ended && !p.2.spilled).foldl (fun s p =>
      (s.spillBytes sw.ctx p.2.imageBytes).modWeft sid p.1 fun w => { w with spilled := true }) s

/-- A swatch is saved through the shadow store: its core's buffered writes are drained, so that its wefts find them
wherever they run next (R172), its images stand in the spill area and its resources are free. -/
def State.saveSwatch (s : State) (sid : Nat) (back : Bool) : State :=
  match s.swatch? sid with
  | none => s
  | some sw =>
    match sw.core? with
    | none => s
    | some core =>
      let s := (s.flushWakes core sid).drainCore core
      let mine := fun (j : Job) => j.kind != .firmware && j.sid == sid
      let jobs := (s.core core).jobs.filter mine
      let s := s.modCore core fun c => { c with
        jobs := c.jobs.filter fun j => !mine j
        incoming := if (c.incoming.map fun x => x.1) == some sid then none else c.incoming }
      let s := s.spillSwatch sid
      let s := s.modSwatch sid fun x => { x with
        place := .saved back, savedJobs := jobs
        wefts := x.wefts.map fun p =>
          (p.1, { (if p.2.place = .absent then p.2 else s.imageOf x p.2) with
            spilled := p.2.started && !p.2.ended }) }
      (s.departed (clusterOfCore core) sw.ctx).unpinBolts (clusterOfCore core)

/-- A swatch candidate (R240): every weft that has not ended is a candidate and is not loaded for a wake. -/
def State.swatchCandidate (s : State) (sw : Swatch) : Bool :=
  sw.wefts.any (fun p => !p.2.ended) &&
    sw.wefts.all fun p => p.2.ended || (s.candidate sw p.2 && p.2.late.isNone && !(!p.2.trapMode && p.2.pend.any))

/-- Since when it has been one. -/
def Swatch.candidateSince (sw : Swatch) : Nat :=
  sw.wefts.foldl (fun m p => if p.2.ended then m else max m p.2.waitingSince) 0

/-- The candidate that R240 saves for the swatch at the head of a cluster's dispatch, which no core passes: the
longest-standing one, once its wefts and engines have come to rest (R364). -/
def State.rotation? (s : State) (clu : Nat) : Option Nat :=
  match s.headSwatch clu with
  | none => none
  | some (_, h) =>
    if (s.dispatch? clu).isSome || (s.cluster clu).gating != .on then none
    else
      match firstCand ((s.swatches.filter fun p => p.2.launch == h.launch && s.bagMay p.2 &&
        s.swatchCandidate p.2 && p.2.core?.any fun core => clusterOfCore core == clu).map fun p =>
          ⟨p.1, 0, p.2.candidateSince, p.2.linear, 0, 0⟩) with
      | none => none
      | some c =>
        match s.swatch? c.sid with
        | some sw => if sw.core?.any fun core => s.swatchRests core c.sid sw then some c.sid else none
        | none => none

/-- SWATCH_ROTATION. -/
def execSwatchRotation (sid : Nat) (s : State) : Out :=
  match s.swatch? sid with
  | some sw => .next (if s.rotation? sw.clu == some sid then s.saveSwatch sid false else s)
  | none => .next s

end Sys2Proof.Machine
end

