-- ==== Sys2Proof/Machine/FrontEnd.lean ====
section
/-!
DEFINITION. The front end: partitions and contexts (R344, R345), command queues and their packets (R346
to R353), the host event ring's head (R355), launches (R42, R43, R324, R356 to R358), graphs (R359 to
R361) and tasks (R362, R363).
-/
namespace Sys2Proof.Machine

/-! ## Fields in memory -/

/-- A little-endian field of `n` bytes at an offset of a record. -/
def fieldAt (bs : List Byte) (off n : Nat) : Nat := leNat ((bs.drop off).take n)

/-- Every byte outside the listed fields (offset, length) is zero. -/
def zeroOutside (bs : List Byte) (fs : List (Nat × Nat)) : Bool :=
  (bs.zip (List.range bs.length)).all fun p =>
    p.1 == 0 || fs.any fun f => decide (f.1 ≤ p.2) && decide (p.2 < f.1 + f.2)

/-- A virtual address of a packet or table as the front end reaches it: a fault is cause 0x08 or 0x09. -/
def State.reach (s : State) (ctx : Word) (acc : Acc) (va : Nat) : Except Nat Nat :=
  if !canonical (w64 va) then .error 0x09
  else
    match s.walkPa ctx va with
    | .error e => .error e
    | .ok t => if pageAdmits acc t.leaf then .ok t.pa else .error 0x09

/-- A 32-bit word written by the front end. -/
def State.putWord (s : State) (pa n : Nat) : State := s.homeWriteBytes none pa (wordBytes (w32 n))

/-! ## Partitions and contexts (R344, R345) -/

/-- A partition record of the table. -/
structure PartRec where
  clusters : Nat
  en : Bool
  nctx : Nat
  ctab : Nat
  gtab : Nat
  ngrp : Nat
  deriving DecidableEq, Repr

def partRec (bs : List Byte) : PartRec :=
  let w := fieldAt bs 4 4
  ⟨fieldAt bs 0 4, w.testBit 8, w % 256, fieldAt bs 8 8, fieldAt bs 0x10 8, fieldAt bs 0x18 4 % 8192⟩

/-- The records that the front end reads from an address. -/
def State.partRecs (s : State) (a : Nat) : List (Nat × PartRec) :=
  (List.range 32).map fun i => (i, partRec (s.homeBytes (a + 64 * i) 64))

/-- A record that the front end ignores: no cluster, one of another enabled record, or a fenced one. -/
def State.ignores (s : State) (recs : List (Nat × PartRec)) (i : Nat) (r : PartRec) : Bool :=
  r.en && (r.clusters == 0 || (recs.any fun x => x.1 != i && x.2.en && x.2.clusters &&& r.clusters != 0) ||
    (r.clusters &&& s.pkg.fclus) != 0)

/-- Contexts of a partition. -/
def State.ctxsOf (s : State) (part : Nat) : List (Nat × Ctx) := s.ctxs.filter fun c => c.2.part == part

/-- The descriptor of a queue as it stands in memory (R346). -/
structure QDesc where
  at_ : Nat
  base : Nat
  en : Bool
  prio : Nat
  ring : Nat
  tail : Nat
  head : Nat
  done : Nat
  ecode : Nat
  deriving DecidableEq, Repr

def State.queueDesc (s : State) (c : Ctx) (q : Nat) : QDesc :=
  let a := c.qtab + 64 * q
  let w := s.homeWord (a + 8)
  { at_ := a, base := s.homeDword a, en := w.testBit 6, prio := nbits w 5 4, ring := 2 ^ (w % 16 + 4)
    tail := s.homeWord (a + 0x10), head := s.homeWord (a + 0x14), done := s.homeWord (a + 0x18)
    ecode := nbits (s.homeWord (a + 0x20)) 31 24 }

def QState.holdsSlot (q : QState) : Bool :=
  match q.held with
  | some (_, .word _ _) => true
  | some (_, .counts _) => true
  | _ => false

/-- The partition still holds a placed or saved swatch, a queue with packets, or a wait slot (R344). -/
def State.partInUse (s : State) (part : Nat) : Bool :=
  let cs := s.ctxsOf part
  let mine := fun (w : Word) => cs.any fun c => c.1 == w.toNat
  (s.swatches.any fun p => mine p.2.ctx && (match p.2.place with
    | .waiting => false
    | .released => false
    | _ => true)) ||
  cs.any (fun c => (List.range c.2.nq).any fun q =>
    let d := s.queueDesc c.2 q
    d.head != d.tail) ||
  s.queues.any fun q => mine q.ctx && q.holdsSlot

/-- A context descriptor (R345); what the part keeps for a known context stays. -/
def State.readCtx (s : State) (part : Nat) (bs : List Byte) : Option (Nat × Ctx) :=
  let f := fieldAt bs
  let id := f 0 4
  if id = 0 || !(f 4 4).testBit 1 then none
  else
    let old := s.ctxs.get? id
    some (id, {
      part := part, sys := (f 4 4).testBit 0, root := f 8 8, code := f 0x10 8, csize := f 0x18 4
      qtab := f 0x20 8, nq := f 0x28 2 % 512, ering := f 0x30 8, elsize := f 0x38 1 % 32
      gen := (old.map fun c => c.gen).getD 0, spBase := (old.map fun c => c.spBase).getD 0
      spPages := (old.map fun c => c.spPages).getD 0, savedSum := (old.map fun c => c.savedSum).getD 0
      spLo := old.bind fun c => c.spLo, spHi := old.bind fun c => c.spHi
      savedSat := (old.map fun c => c.savedSat).getD false, halted := (old.map fun c => c.halted).getD false })

/-- The contexts of a record replace those the partition had; each enabled queue has its state. -/
def State.loadCtxs (s : State) (part : Nat) (r : PartRec) : State :=
  let new := (List.range (min r.nctx 64)).filterMap fun i =>
    s.readCtx part (s.homeBytes (r.ctab + 64 * i) 64)
  let rest := s.ctxs.filter fun c => c.2.part != part
  let kept := s.queues.filter fun q => rest.any (fun c => c.1 == q.ctx.toNat) ||
    new.any fun c => c.1 == q.ctx.toNat && decide (q.q < c.2.nq)
  let fresh := new.flatMap fun c => ((List.range c.2.nq).filter fun n =>
    !kept.any fun q => q.ctx == w32 c.1 && q.q == n).map fun n => (⟨w32 c.1, n, false, none, false, 0, []⟩ : QState)
  { s with ctxs := new.foldl (fun t c => t.put c.1 c.2) rest, queues := kept ++ fresh }

/-- Cores that a QUIESCE vacated return when the partition record changes (R364). -/
def State.returnCores (s : State) (clusters : Nat) : State :=
  { s with cores := s.cores.map fun c =>
      (c.1, if clusters.testBit (clusterOfCore c.1) then { c.2 with vacated := false } else c.2) }

/-- One record of the table is applied, held back or ignored (R344). -/
def State.applyPart (s : State) (recs : List (Nat × PartRec)) (die i : Nat) (r : PartRec) : State :=
  if s.ignores recs i r then s
  else
    match s.parts.get? i with
    | none =>
      if r.en && dieOfCluster (lowCluster r.clusters) == die then
        let p : Part :=
          { clusters := r.clusters, nctx := r.nctx, ctab := r.ctab, gtab := r.gtab, ngrp := r.ngrp
            launches := 0, active := none, noCtx := false, quiesce := none }
        ({ s with parts := s.parts.put i p } : State).loadCtxs i r
      else s
    | some p =>
      if dieOfCluster (lowCluster p.clusters) ≠ die then s
      else
        let same := r.en && r.clusters == p.clusters && r.nctx == p.nctx && r.ctab == p.ctab &&
          r.gtab == p.gtab && r.ngrp == p.ngrp
        if same then s.loadCtxs i r
        else if s.partInUse i then s
        else if r.en then
          let p := { p with
            clusters := r.clusters, nctx := r.nctx, ctab := r.ctab, gtab := r.gtab, ngrp := r.ngrp }
          (({ s with parts := s.parts.put i p } : State).loadCtxs i r).returnCores r.clusters
        else
          ({ s with
            parts := s.parts.del i
            queues := s.queues.filter fun q => !(s.ctxsOf i).any fun c => c.1 == q.ctx.toNat
            ctxs := s.ctxs.filter fun c => c.2.part != i } : State).returnCores p.clusters

/-- PTAB_LO: the front end reads the whole table, as an acquire at .sy. -/
def State.readTable (s : State) (die : Nat) (lo : Word) : State :=
  let s := (s.modDie die fun d => { d with ptabLo := lo }).acquire die true
  let recs := s.partRecs ((s.die die).ptabHi.toNat * 2 ^ 32 + lo.toNat)
  recs.foldl (fun s x => s.applyPart recs die x.1 x.2) s

def execPtabLo (die : Nat) (value : Word) (s : State) : Out :=
  .next (if value.toNat % 2048 = 0 then s.readTable die value else s)

/-! ## Queues (R346 to R353) -/

def State.queue? (s : State) (ctx : Word) (q : Nat) : Option QState :=
  s.queues.find? fun x => x.ctx == ctx && x.q == q

def State.modQueue (s : State) (ctx : Word) (q : Nat) (f : QState → QState) : State :=
  { s with queues := s.queues.map fun x => if x.ctx = ctx && x.q = q then f x else x }

/-- The packet at an index of a queue (R346). -/
def State.readPacket (s : State) (ctx : Word) (d : QDesc) (idx : Nat) : Except Nat (List Byte) :=
  match s.reach ctx .load (d.base + 64 * (idx % d.ring)) with
  | .error e => .error e
  | .ok pa => .ok (s.homeBytes pa 64)

/-- A done count has reached an index, modulo 2^32. -/
def reached (done idx : Nat) : Bool := decide ((done + 2 ^ 32 - idx) % 2 ^ 32 < 2 ^ 31)

/-- The condition of a held packet (R348, R352). -/
def State.heldMet (s : State) (ctx : Word) (h : Held) : Bool :=
  match h with
  | .word pa val => decide (val ≤ s.homeDword pa)
  | .counts ps => match s.ctx? ctx with
    | some c => ps.all fun p => reached (s.queueDesc c p.1).done p.2
    | none => false
  | .earlier => false
  | .acks => s.pkg.acked
  | .members => false

/-- The fields of a WAIT obey R349. -/
def waitFields (bs : List Byte) : Bool := zeroOutside bs [(0, 4), (8, 16)] && fieldAt bs 8 8 % 8 == 0

/-- The fields of a QBARRIER obey R349. -/
def qbarrierFields (bs : List Byte) : Bool :=
  let n := fieldAt bs 0x28 1
  zeroOutside bs [(0, 4), (8, 8 * n), (0x28, 1)] && 1 ≤ n && n ≤ 4

/-- What a WAIT or QBARRIER waits for, from its bytes; none when it is in error or its address is not reached. -/
def State.waitOf (s : State) (ctx : Word) (bs : List Byte) : Option Held :=
  if fieldAt bs 0 4 / 512 ≠ 0 then none
  else if fieldAt bs 0 1 = 3 && waitFields bs then
    match s.reach ctx .load (fieldAt bs 8 8) with
    | .ok pa => some (.word pa (fieldAt bs 0x10 8))
    | .error _ => none
  else if fieldAt bs 0 1 = 6 && qbarrierFields bs then
    some (.counts ((List.range (fieldAt bs 0x28 1 % 8)).map fun i =>
      (fieldAt bs (8 + 8 * i) 4, fieldAt bs (12 + 8 * i) 4)))
  else none

/-- Wait slots in use in a context's partition. -/
def State.slotsHeld (s : State) (ctx : Word) : Nat :=
  (s.queues.filter fun q => q.holdsSlot && s.partOfCtx q.ctx == s.partOfCtx ctx).length

/-- The next packet would need a wait slot and none is free (R352). -/
def State.lacksSlot (s : State) (ctx : Word) (d : QDesc) : Bool :=
  match s.readPacket ctx d d.head with
  | .error _ => false
  | .ok bs =>
    match s.waitOf ctx bs with
    | some h => !s.heldMet ctx h && decide (Config.waitSlots ≤ s.slotsHeld ctx)
    | none => false

/-- Another package has answered every read of the queue's front end (R395). -/
def State.readsOver (s : State) (q : QState) : Bool :=
  q.reads.all fun r => !s.pkg.unacked.any fun m => m.txn == r.txn && m.mkind == 1

/-- The queue is eligible (R351): its next packet waits for what it reads of other packages (R395). -/
def State.eligible (s : State) (q : QState) : Bool :=
  match s.ctx? q.ctx with
  | none => false
  | some c =>
    let d := s.queueDesc c q.q
    s.ctxActive q.ctx && d.en && d.head != d.tail && d.ecode == 0 && !q.parked && q.held.isNone &&
      s.readsOver q && !s.lacksSlot q.ctx d

/-- The level at which a queue is served now (R351). -/
def QState.level (q : QState) (d : QDesc) : Nat := if q.aged then min 3 (d.prio + 1) else d.prio

/-- The position of a queue in its level's round-robin: ascending queue number, then context. -/
def QState.rank (q : QState) : Nat := q.q * 2 ^ 32 + q.ctx.toNat

/-- Eligible queues of a die's front end with their levels. -/
def State.eligibles (s : State) (die : Nat) : List (Nat × QState) :=
  (s.queues.filter fun q => s.frontDie q.ctx == die && s.eligible q).filterMap fun q =>
    (s.ctx? q.ctx).map fun c => (q.level (s.queueDesc c q.q), q)

/-- The arbiter's choice (R351). -/
def State.arbiter (s : State) (die : Nat) : Option QState :=
  let es := s.eligibles die
  match es with
  | [] => none
  | _ =>
    let lv := es.foldl (fun m e => max m e.1) 0
    let qs := (es.filter fun e => e.1 == lv).map fun e => e.2
    let last := (s.die die).rrLast.get? lv
    let later := qs.filter fun q => match last with
      | some l => decide (l < q.rank)
      | none => true
    let lowest := fun (l : List QState) => l.foldl (fun (b : Option QState) q => match b with
      | some x => if q.rank < x.rank then some q else b
      | none => some q) none
    (lowest later).or (lowest qs)

/-- A queue error stops the queue at the packet in error and posts its sticky record (R353). -/
def State.queueError (s : State) (ctx : Word) (q idx code : Nat) : State :=
  match s.ctx? ctx with
  | none => s
  | some c =>
    let a := (s.queueDesc c q).at_
    let s := (s.putWord (a + 0x20) (code * 2 ^ 24)).putWord (a + 0x24) idx
    s.post { s.record 0x20 code ctx (w32 q) (w32 idx) 0 0 0 with queue := some q }

/-- The queue waits for the next write of its tail word (R352). -/
def State.parkQueue (s : State) (ctx : Word) (q idx addr : Nat) : State :=
  (s.modQueue ctx q fun x => { x with parked := true }).post
    (s.record 0x21 0 ctx (w32 q) (w32 idx) (w32 addr) (w32 (addr / 2 ^ 32)) 0)

/-- A packet starts: head advances past it and its completion write is kept (R346, R350). -/
def State.openPacket (s : State) (d : QDesc) (f : Finish) : State :=
  let s := s.putWord (d.at_ + 0x14) (d.head + 1)
  { s with finishes := s.finishes ++ [f] }

/-- One packet completes: its completion write, its done count and its record (R346, R348, R349). -/
def State.closePacket (s : State) (ctx : Word) (q idx : Nat) : State :=
  match s.finishes.find? (fun f => f.ctx == ctx && f.q == q && f.idx == idx), s.ctx? ctx with
  | some f, some c =>
    let s := { s with finishes := s.finishes.filter fun x => !(x.ctx == ctx && x.q == q && x.idx == idx) }
    let s := match f.dadr with
      | some pa => s.homeWriteBytes none pa (natBytes 8 f.dval.toNat)
      | none => s
    let d := s.queueDesc c q
    let s := s.putWord (d.at_ + 0x18) (d.done + 1)
    let s := s.modQueue ctx q fun x => match x.held with
      | some (i, _) => if i = idx then { x with held := none } else x
      | none => x
    if f.evt then s.post (s.record 0x25 f.kind ctx (w32 q) (w32 idx) 0 0 0) else s
  | _, _ => s

/-- A FENCE held with nothing of its queue before it completes too, once what its queue wrote is performed (R350). -/
def State.completePacket (s : State) (ctx : Word) (q idx : Nat) : State :=
  let s := s.closePacket ctx q idx
  match (s.queue? ctx q).bind fun x => x.held with
  | some (i, .earlier) =>
    if s.finishes.any fun f => f.ctx == ctx && f.q == q && f.idx != i then s
    else if s.pkg.acked then s.closePacket ctx q i
    else s.modQueue ctx q fun x => { x with held := some (i, .acks) }
  | _ => s

/-! ## Launch records (R42, R43) -/

/-- A launch record's fields. -/
structure LRec where
  roles : Nat
  role : List (Nat × Nat × Nat × Nat)   -- entry, vregs, sregs, wefts of roles 0 to 3
  dims : Nat × Nat × Nat
  cap : Nat
  spad : Nat
  acc : Nat
  negs : Nat
  barriers : Nat
  queues : Nat
  heavy : Nat
  stagger : Nat
  hang : Bool
  frt : Bool
  trapvec : Nat
  sched : Option Nat
  args : Nat
  dline : Option (Nat × Nat)
  deriving DecidableEq, Repr

def readLRec (bs : List Byte) : LRec :=
  let f := fieldAt bs
  let w := f 4 4
  { roles := nbits (f 0 4) 11 8
    role := (List.range 4).map fun i =>
      (f (0x10 + 16 * i) 4, f (0x14 + 16 * i) 2, f (0x16 + 16 * i) 2, f (0x18 + 16 * i) 4)
    dims := (f 0x50 4, f 0x54 4, f 0x58 4), cap := f 0x60 4, spad := f 0x64 4, acc := f 0x68 2
    negs := f 0x6A 2, barriers := f 0x6C 1, queues := f 0x6D 1, heavy := f 0x6E 1, stagger := f 0x6F 1
    hang := w.testBit 2, frt := w.testBit 3, trapvec := f 0x70 4
    sched := if w.testBit 1 then some (f 0x78 8) else none, args := f 0x80 8
    dline := if w.testBit 0 then some (f 0x88 8, f 0x90 8) else none }

/-- The roles a record declares. -/
def LRec.declared (r : LRec) : List (Nat × Nat × Nat × Nat × Nat) :=
  ((List.range 4).zip r.role).filter fun x => r.roles.testBit x.1

/-- The checks of R43. -/
def lrecOk (bs : List Byte) (csize : Nat) : Bool :=
  let r := readLRec bs
  let f := fieldAt bs
  let listed := [(0, 8), (0x10, 64), (0x50, 12), (0x60, 20), (0x78, 32)]
  let target := fun (a : Nat) => a % 8 == 0 && decide (a < csize)
  f 0 1 == 1 && r.roles != 0 && f 0 4 / 4096 == 0 && f 4 4 / 16 == 0 && zeroOutside bs listed &&
    ((List.range 4).all fun i => f (0x1C + 16 * i) 4 == 0 &&
      (r.roles.testBit i || f (0x10 + 16 * i) 16 == 0)) &&
    (r.declared.all fun x => decide (1 ≤ x.2.2.1) && decide (x.2.2.1 ≤ 256) && decide (x.2.2.2.1 ≤ 192) &&
      x.2.2.2.2 != 0 && target x.2.1) &&
    decide ((r.declared.map fun x => x.2.2.2.2).sum ≤ 65536) &&
    r.dims.1 != 0 && r.dims.2.1 != 0 && r.dims.2.2 != 0 && r.spad % 128 == 0 &&
    decide (r.spad ≤ 2 ^ 22) && decide (r.acc ≤ 128) && decide (r.negs ≤ 16) && decide (r.barriers ≤ 32) &&
    decide (r.queues ≤ 16) && decide (r.heavy ≤ 32) && target r.trapvec

/-- Swatches of a whole launch. -/
def LRec.total (r : LRec) : Nat := r.dims.1 * r.dims.2.1 * r.dims.2.2

/-! ## Starting a launch (R324, R356, R357) -/

/-- Clusters of a partition in ascending order: their index is the rank. -/
def clustersOf (mask : Nat) : List Nat := (List.range 32).filter fun i => mask.testBit i

/-- The core set: clusters of the partition whose rank the mask names; 0 names all (R349, R356). -/
def coreSet (p : Part) (cmask : Nat) : List Nat :=
  let cs := clustersOf p.clusters
  ((List.range cs.length).zip cs).filterMap fun x => if cmask = 0 || cmask.testBit x.1 then some x.2 else none

/-- The cluster has a core that no QUIESCE has vacated and that is not fenced (R364, R384). -/
def State.hasCore (s : State) (cl : Nat) : Bool :=
  !s.pkg.fclus.testBit cl && (List.range 6).any fun i =>
    !(s.core (6 * cl + i)).vacated && !(s.pkg.fcore.getD cl 0).testBit i

/-- Clusters of a core set whose cores have not all left it (R364); the set itself where all have (log 106). -/
def State.serving (s : State) (cs : List Nat) : List Nat :=
  match cs.filter s.hasCore with
  | [] => cs
  | l => l

/-- The cluster to which a bolt moves when its own has no core left: one of its launch's core set, on its bale's die where
there is one, else one of the partition (R364, log 106). -/
def State.rehome (s : State) (sw : Swatch) : Nat :=
  match s.launches.get? sw.launch with
  | none => sw.cluster
  | some l =>
    let own := l.coreset.filter s.hasCore
    let near := own.filter fun c => dieOfCluster c == dieOfCluster sw.cluster
    let all := (((s.parts.get? l.part).map fun p => clustersOf p.clusters).getD []).filter s.hasCore
    match [near, own, all].find? fun cs => !cs.isEmpty with
    | some cs => cs.getD ((sw.bai * l.bolts + sw.boi) % cs.length) sw.cluster
    | none => sw.cluster

/-- A shadow store holds the swatch for its context (R366). -/
def Swatch.shadowed (sw : Swatch) : Bool :=
  match sw.place with
  | .shadow _ _ => true
  | _ => false

/-- The distributor has the swatch: it waits for its first placement, or its image for the next. -/
def Swatch.unplaced (sw : Swatch) : Bool :=
  match sw.place with
  | .waiting => true
  | .saved _ => true
  | _ => false

/-- Swatches of clusters without a core return to the distributor for another cluster (R364). -/
def State.rehouse (s : State) : State :=
  { s with swatches := s.swatches.map fun p =>
      (p.1, if p.2.control.isNone && p.2.unplaced && !s.hasCore p.2.cluster then { p.2 with cluster := s.rehome p.2 } else p.2) }

/-- Dies of a core set, ascending. -/
def diesOf (cs : List Nat) : List Nat := [0, 1, 2, 3].filter fun d => cs.any fun c => dieOfCluster c == d

/-- The cluster of a bolt: round-robin over the bolts of the bales homed on the bale's die, which has one of the ranks
from `first` on, out of `dies` (R356, R357, R396). -/
def boltCluster (cs : List Nat) (first dies bolts bale bolt : Nat) : Nat :=
  let d := (diesOf cs).getD (bale % dies - first) 0
  let on := cs.filter fun c => dieOfCluster c == d
  on.getD ((bale / dies * bolts + bolt) % on.length) 0

/-- The die ranks of a launch's own clusters and the number of dies ranked. -/
def ranksOf (cs : List Nat) (roll : Option Roll) : Nat × Nat :=
  match roll with
  | some r => (r.first, r.dies)
  | none => (0, (diesOf cs).length)

/-- The bale is homed on this member's dies. -/
def ownBale (cs : List Nat) (roll : Option Roll) (b : Nat) : Bool :=
  let r := ranksOf cs roll
  decide (r.1 ≤ b % r.2) && decide (b % r.2 < r.1 + (diesOf cs).length)

def roleOf (i : Nat) : Role :=
  match i with
  | 0 => .general
  | 1 => .load
  | 2 => .math
  | _ => .store

/-- The wefts of a swatch in role order (R159). -/
def State.newWefts (s : State) (clu : Nat) (ctx : Word) (r : LRec) : Tab Weft :=
  let ws := r.declared.flatMap fun x => List.replicate x.2.2.2.2
    (Weft.init (roleOf x.1) (w32 x.2.1) (s.prioAt clu ctx (w32 x.2.1)) 0xFFFFFFFF r.hang r.frt x.2.2.1 x.2.2.2.1
      s.turn none)
  (List.range ws.length).zip ws

/-- One swatch of a launch. -/
def State.newSwatch (s : State) (ctx : Word) (lid : Nat) (cs : List Nat) (roll : Option Roll) (r : LRec) (k : Nat) : Swatch :=
  let swi := k % r.dims.1
  let boi := k / r.dims.1 % r.dims.2.1
  let bai := k / r.dims.1 / r.dims.2.1
  let clu := boltCluster cs (ranksOf cs roll).1 (ranksOf cs roll).2 r.dims.2.1 bai boi
  let wefts := s.newWefts clu ctx r
  { Swatch.plain ctx lid with
    swi := swi, boi := boi, bai := bai, linear := k, cluster := clu, spsize := r.spad
    accMap := List.replicate r.acc 0, negMap := List.replicate r.negs 0
    cap := if r.cap = 0 then 0 else max r.cap r.declared.length
    nwf := wefts.length, barriers := r.barriers, queues := r.queues, heavy := r.heavy, wefts := wefts }

/-- Home barrier records of a die in use (R324): 32 for each bale homed there, and 32 on bale 0's die. -/
def Launch.recordsOn (l : Launch) (die : Nat) : Nat :=
  let ds := diesOf l.coreset
  let r := ranksOf l.coreset l.roll
  let mine := fun (b : Nat) => ownBale l.coreset l.roll b && ds.getD (b % r.2 - r.1) 0 == die
  32 * ((List.range l.bales).filter mine).length + if mine 0 then 32 else 0

def State.recordsUsed (s : State) (die : Nat) : Nat :=
  (s.launches.map fun p => if p.2.startedOn.contains die then p.2.recordsOn die else 0).sum

/-- A launch starts on each die that can allocate its records. -/
def State.startOn (s : State) (lid die : Nat) : State :=
  match s.launches.get? lid with
  | none => s
  | some l =>
    if !l.startedOn.contains die && (diesOf l.coreset).contains die &&
        decide (s.recordsUsed die + l.recordsOn die ≤ Config.homeBarriers) then
      s.modLaunch lid fun l => { l with startedOn := l.startedOn ++ [die] }
    else s

/-- Launches in the order they were accepted start where records are free. -/
def State.startLaunches (s : State) : State :=
  (s.launches.map fun p => p.1).foldl (fun s lid => [0, 1, 2, 3].foldl (fun s d => s.startOn lid d) s) s

/-- The instruction caches of some clusters hold no line of the context any more (R261). -/
def State.dropCode (s : State) (ctx : Word) (clus : List Nat) : State :=
  clus.foldl (fun s cl => s.modCluster cl fun c => { c with icache := c.icache.filter fun l => l.ctx != ctx }) s

/-- A LAUNCH is accepted: its number, its swatches, its records (R356). -/
def State.newLaunch (s : State) (ctx : Word) (part : Nat) (lrec : Nat) (r : LRec) (cs : List Nat)
    (roll : Option Roll) (origin node : Option (Nat × Nat)) : State :=
  let lid := s.nextLaunch
  let ks := (List.range r.total).filter fun k => ownBale cs roll (k / r.dims.1 / r.dims.2.1)
  let num := ((s.parts.get? part).map fun p => p.launches).getD 0
  let l : Launch :=
    { ctx := ctx, part := part, num := w32 num, lrec := lrec, origin := origin, node := node, coreset := cs
      roles := r.roles
      roleRec := r.declared.map fun x => (x.1, (w32 x.2.1, x.2.2.1, x.2.2.2.1, x.2.2.2.2))
      swatches := r.dims.1, bolts := r.dims.2.1, bales := r.dims.2.2, hang := r.hang, frt := r.frt
      stagger := r.stagger, trapvec := w32 r.trapvec, args := w64 r.args, dline := r.dline, roll := roll
      sched := r.sched, startedOn := [], left := ks.length, pool := [], liveTasks := 0, bars := [], parts := [], done := false }
  let sws := ks.map fun k => (s.nextSid + k, s.newSwatch ctx lid cs roll r k)
  (({ s with
    launches := s.launches.put lid l, nextLaunch := lid + 1
    swatches := sws.foldl (fun t x => t.put x.1 x.2) s.swatches, nextSid := s.nextSid + r.total
    parts := s.parts.modify part fun p => { p with launches := (p.launches + 1) % 2 ^ 32 } } :
    State).dropCode ctx (dedup (sws.map fun x => x.2.cluster))).startLaunches

/-- Read and check a launch record: queue error 5 or 3 (R353). -/
def State.fetchLRec (s : State) (ctx : Word) (va : Nat) : Except Nat LRec :=
  match s.reach ctx .load va with
  | .error _ => .error 5
  | .ok pa =>
    let bs := s.homeBytes pa 256
    if lrecOk bs (s.codeSize ctx) then .ok (readLRec bs) else .error 3

/-- The address of dval's write: none for 0 (R349, R352). -/
def State.fetchDadr (s : State) (ctx : Word) (va : Nat) : Except Nat (Option Nat) :=
  if va = 0 then .ok none
  else
    match s.reach ctx .store va with
    | .error _ => .error 5
    | .ok pa => .ok (some pa)

/-! ## Packets (R348, R349) -/

/-- What a packet's start needs: its queue, its index and its bytes. -/
structure Pkt where
  ctx : Word
  q : Nat
  d : QDesc
  part : Nat
  p : Part
  bs : List Byte
  deriving DecidableEq, Repr

def Pkt.at_ (k : Pkt) (off n : Nat) : Nat := fieldAt k.bs off n

def Pkt.finish (k : Pkt) (dadr : Option Nat) (dval : Nat) : Finish :=
  { ctx := k.ctx, q := k.q, idx := k.d.head, kind := k.at_ 0 1, evt := (k.at_ 0 4).testBit 8, dadr := dadr
    dval := w64 dval, page := none }

/-- The completion of a LAUNCH or GRAPH with its write to dadr, whose page is pinned until then (R349, R352). -/
def State.finishOf (s : State) (k : Pkt) (dadr : Option Nat) (va dval : Nat) : Finish :=
  { k.finish dadr dval with page := dadr.map fun pa =>
      ⟨va / 65536 * 65536, pa / 65536 * 65536, ((s.walkPa k.ctx va).toOption.map fun t => t.shift).getD 16, false⟩ }

def State.packetError (s : State) (k : Pkt) (code : Nat) : State := s.queueError k.ctx k.q k.d.head code

/-- A packet that starts and completes at once. -/
def State.passPacket (s : State) (k : Pkt) : State :=
  (s.openPacket k.d (k.finish none 0)).completePacket k.ctx k.q k.d.head

/-- A packet that is held: WAIT, QBARRIER or FENCE. -/
def State.holdPacket (s : State) (k : Pkt) (h : Held) : State :=
  (s.openPacket k.d (k.finish none 0)).modQueue k.ctx k.q fun x => { x with held := some (k.d.head, h) }

/-! ### Roll launches (R396) -/

/-- Members of a partition's roll group in table order: context, partition and package. -/
def State.rollTable (s : State) (p : Part) : List (Nat × Nat × Nat) :=
  (List.range p.ngrp).map fun i =>
    let e := s.homeDword (p.gtab + 8 * i)
    (nbits e 63 32, nbits e 20 16, nbits e 11 0)

/-- Dies of a member for a cmask: this package's by its partition record, another's as its package has them. -/
def State.memberDies (s : State) (cmask : Nat) (m : Nat × Nat × Nat) : List Nat :=
  if m.2.2 = s.pkg.fpkg then
    ((s.parts.get? m.2.1).map fun p => diesOf (s.serving (coreSet p cmask))).getD []
  else [0, 1, 2, 3].filter fun d => (Config.memberDies m.2.2 m.2.1 cmask % 15 + 1).testBit d

/-- What this member knows of a roll launch of a record: a partition that is alone, or whose table does not name it,
has none. `num` is the launch's number at bale 0's home where that is another package. -/
def State.rollOf (s : State) (part : Nat) (p : Part) (cmask num bales : Nat) (waits : Bool) : Option Roll :=
  let t := s.rollTable p
  let own := t.findIdx fun m => m.2.1 == part && m.2.2 == s.pkg.fpkg
  if p.ngrp < 2 || t.length ≤ own then none
  else
    let ds := t.map fun m => s.memberDies cmask m
    let first := ((ds.take own).map fun l => l.length).sum
    let dies := (ds.map fun l => l.length).sum
    let mine := (ds.getD own []).length
    let home := ((t.zip ds).find? fun x => !x.2.isEmpty).getD ((0, part, s.pkg.fpkg), [0])
    let here := home.1.2.2 == s.pkg.fpkg && home.1.2.1 == part
    some { first := first, dies := dies, members := t.map fun m => (m.2.2, m.2.1)
           home := (home.1.2.2, home.2.headD 0), number := (home.1.2.1, if here then w32 p.launches else w32 num)
           waits := if waits then t.length - 1 else 0
           away := (List.range bales).filter fun b => !(decide (first ≤ b % dies) && decide (b % dies < first + mine)) }

/-- The launch begins at this member. -/
def State.beginLaunch (s : State) (k : Pkt) (roll : Option Roll) (d : Option Nat) (r : LRec) (cs : List Nat) : State :=
  (s.openPacket k.d (s.finishOf k d (k.at_ 0x18 8) (k.at_ 0x20 8))).newLaunch k.ctx k.part (k.at_ 8 8) r cs roll
    (some (k.q, k.d.head)) none

/-- LAUNCH (R356): a roll launch waits until every other member has accepted the record (R396); `verdict` holds what they
say, and the launch's number at bale 0's home. -/
def State.packetLaunch (s : State) (k : Pkt) (verdict : Option (Nat × Bool)) : State :=
  let cs := s.serving (coreSet k.p (k.at_ 0x10 8))
  if !zeroOutside k.bs [(0, 4), (8, 32)] || k.at_ 8 8 % 256 ≠ 0 ||
      k.at_ 0x18 8 % 8 ≠ 0 || cs.isEmpty then s.packetError k 2
  else
    match s.fetchDadr k.ctx (k.at_ 0x18 8), s.fetchLRec k.ctx (k.at_ 8 8) with
    | .error e, _ => s.packetError k e
    | .ok _, .error e => s.packetError k e
    | .ok d, .ok r =>
      let roll := fun (num : Nat) => s.rollOf k.part k.p (k.at_ 0x10 8) num r.dims.2.2 true
      match verdict with
      | none =>
        if (roll 0).isSome then s.modQueue k.ctx k.q fun x => { x with held := some (k.d.head, .members) }
        else s.beginLaunch k none d r cs
      | some (_, false) => s.packetError k 3
      | some (num, true) => s.beginLaunch k (roll num) d r cs

/-- Every other member has answered for the roll launch at a queue's head. -/
def State.rollVerdict (s : State) (ctx : Word) (q num : Nat) (ok : Bool) : State :=
  match s.queue? ctx q, s.ctx? ctx with
  | some x, some c =>
    match x.held with
    | some (_, .members) =>
      let d := s.queueDesc c q
      let s := s.modQueue ctx q fun x => { x with held := none }
      match s.readPacket ctx d d.head, s.parts.get? c.part with
      | .ok bs, some p => s.packetLaunch ⟨ctx, q, d, c.part, p, bs⟩ (some (num, ok))
      | _, _ => s.queueError ctx q d.head 5
    | _ => s
  | _, _ => s

/-- A roll launch that another member's queue started begins here, in this member's own context (R396). -/
def State.rollJoin (s : State) (part lrec cmask num : Nat) : State :=
  match s.parts.get? part with
  | none => s
  | some p =>
    match (s.rollTable p).find? fun m => m.2.1 == part && m.2.2 == s.pkg.fpkg with
    | none => s
    | some m =>
      match s.fetchLRec (w32 m.1) lrec with
      | .error _ => s
      | .ok r =>
        match s.rollOf part p cmask num r.dims.2.2 false with
        | none => s
        | some roll => s.newLaunch (w32 m.1) part lrec r (s.serving (coreSet p cmask)) (some roll) none none

/-- One other member reports completion to the origin (R396). -/
def State.rollReport (s : State) (lid : Nat) : State :=
  s.modLaunch lid fun l => { l with roll := l.roll.map fun r => { r with waits := r.waits - 1 } }

/-- WAIT (R348, R352). -/
def State.packetWait (s : State) (k : Pkt) : State :=
  let a := k.at_ 8 8
  if !waitFields k.bs then s.packetError k 2
  else
    match s.reach k.ctx .load a with
    | .error e => if e = 0x08 then s.parkQueue k.ctx k.q k.d.head a else s.packetError k 5
    | .ok pa =>
      let h := Held.word pa (k.at_ 0x10 8)
      if s.heldMet k.ctx h then s.passPacket k else s.holdPacket k h

/-- A packet whose writes have been made completes once they are performed at .sy: where one of them went to another
package's home, when that has acknowledged it (R249, R348). -/
def State.performed (s : State) (k : Pkt) (here : Bool) : State :=
  if here || s.pkg.acked then s.passPacket k else s.holdPacket k .acks

/-- val written or added; an addition at another package's home is an atomic there (R349, R395). -/
def State.signal (s : State) (k : Pkt) (add : Bool) (pa v : Nat) : State :=
  if !add then s.homeWriteBytes none pa (natBytes 8 v)
  else if s.here pa then s.homeWriteBytes none pa (natBytes 8 ((s.homeDword pa + v) % 2 ^ 64))
  else s.modPkg fun p => p.request (p.atomicMsg (s.frontDie k.ctx) pa ((AtomAct.op .add v).body 8))

/-- SIGNAL (R349, R350). -/
def State.packetSignal (s : State) (k : Pkt) : State :=
  let a := k.at_ 8 8
  if !zeroOutside k.bs [(0, 4), (8, 17)] || k.at_ 0x18 1 / 2 ≠ 0 || a % 8 ≠ 0 then s.packetError k 2
  else
    let add := k.at_ 0x18 1 == 1
    match s.reach k.ctx (if add then .atomic else .store) a with
    | .error e => if e = 0x08 then s.parkQueue k.ctx k.q k.d.head a else s.packetError k 5
    | .ok pa =>
      (s.signal k add pa (k.at_ 0x10 8)).performed k (s.here pa)

/-- The 32-byte pieces of a COPY with their physical addresses, if every page of both ranges is reached. -/
def State.copyPieces (s : State) (ctx : Word) (src dst : Nat) : Nat → Option (List (Nat × Nat))
  | 0 => some []
  | n + 1 =>
    match s.copyPieces ctx src dst n, s.reach ctx .load ((src + 32 * n) % 2 ^ 64),
        s.reach ctx .store ((dst + 32 * n) % 2 ^ 64) with
    | some ps, .ok a, .ok b => some (ps ++ [(a, b)])
    | _, _, _ => none

/-- One sector copied at the homes; uncorrectable data stays so. -/
def State.copySector (s : State) (p : Nat × Nat) : State :=
  let h := s.homeRead p.1
  let s := s.homeWriteBytes none p.2 h.1
  if h.2 then { s with bad := insNat p.2 s.bad } else s

/-- COPY (R349). -/
def State.packetCopy (s : State) (k : Pkt) : State :=
  let src := k.at_ 8 8
  let dst := k.at_ 0x10 8
  let len := k.at_ 0x18 8
  if !zeroOutside k.bs [(0, 4), (8, 24)] || src % 32 ≠ 0 || dst % 32 ≠ 0 || len % 32 ≠ 0 then
    s.packetError k 2
  else
    match s.copyPieces k.ctx src dst (len / 32) with
    | none => s.packetError k 5
    | some ps => (ps.foldl State.copySector s).performed k (ps.all fun p => s.here p.2)

/-- QBARRIER (R348, R352). -/
def State.packetQbarrier (s : State) (k : Pkt) : State :=
  if !qbarrierFields k.bs then s.packetError k 2
  else
    match s.waitOf k.ctx k.bs with
    | none => s
    | some h => if s.heldMet k.ctx h then s.passPacket k else s.holdPacket k h

/-- FENCE (R350). -/
def State.packetFence (s : State) (k : Pkt) : State :=
  let sc := k.at_ 8 1
  if !zeroOutside k.bs [(0, 4), (8, 1)] || sc < 4 || 6 < sc then s.packetError k 2
  else if s.finishes.any fun f => f.ctx == k.ctx && f.q == k.q then s.holdPacket k .earlier
  else s.performed k (sc == 4)

/-! ## Graphs (R359 to R361) -/

/-- A node of a graph table at its physical address: record, npred, and its successors. -/
structure GNode where
  pa : Nat
  lrec : Nat
  npred : Nat
  succ : List (Bool × Nat)
  deriving DecidableEq, Repr

/-- A successor word: per-swatch edge and node. -/
def succWord (w : Nat) : Option (Bool × Nat) :=
  if w.testBit 31 then some (w.testBit 30, w % 4096) else none

/-- Words of an overflow list. -/
def State.overWords (s : State) (ctx : Word) (va : Nat) : Nat → Option (List Nat)
  | 0 => some []
  | n + 1 =>
    match s.overWords ctx va n, s.reach ctx .load (va + 4 * n) with
    | some ws, .ok pa => some (ws ++ [s.homeWord pa])
    | _, _ => none

def State.graphNode (s : State) (ctx : Word) (gtab j : Nat) : Option GNode :=
  match s.reach ctx .load (gtab + 64 * j) with
  | .error _ => none
  | .ok pa =>
    let bs := s.homeBytes pa 64
    let inline_ := (List.range 8).map fun i => fieldAt bs (0x10 + 4 * i) 4
    if 4096 < fieldAt bs 0xC 2 then none
    else
      (s.overWords ctx (fieldAt bs 0x30 8) (fieldAt bs 0xC 2)).map fun past =>
        ⟨pa, fieldAt bs 0 8, fieldAt bs 8 2, (inline_ ++ past).filterMap succWord⟩

/-- The table: the nodes that the start nodes lead to (log 15), and whether none of them lies beyond it. -/
def State.graphTable (s : State) (ctx : Word) (gtab : Nat) : Nat → List Nat → Tab GNode → Tab GNode × Bool
  | 0, _, t => (t, true)
  | _ + 1, [], t => (t, true)
  | f + 1, j :: js, t =>
    if (t.get? j).isSome then s.graphTable ctx gtab f js t
    else
      match if j < 4096 then s.graphNode ctx gtab j else none with
      | none => (t, false)
      | some n => s.graphTable ctx gtab f (n.succ.map (fun x => x.2) ++ js) (t.put j n)

/-- Incoming edges of a node of one kind: the nodes they come from. -/
def edgesInto (t : Tab GNode) (sw : Bool) (j : Nat) : List Nat :=
  t.flatMap fun p => (p.2.succ.filter fun x => x.1 == sw && x.2 == j).map fun _ => p.1

/-- Swatch totals of a node's launch. -/
def State.nodeTotal (s : State) (ctx : Word) (n : GNode) : Option Nat :=
  match s.fetchLRec ctx n.lrec with
  | .ok r => some r.total
  | .error _ => none

/-- The checks of R360. -/
def State.graphOk (s : State) (ctx : Word) (t : Tab GNode) : Bool :=
  t.all fun p => decide ((edgesInto t true p.1).length ≤ 1) && p.2.npred == (edgesInto t false p.1).length &&
    (edgesInto t true p.1).all fun x => match t.get? x with
      | some y => s.nodeTotal ctx y == s.nodeTotal ctx p.2
      | none => false

/-- A node launches: its launch takes a number; a record that is refused stops the queue (R353). -/
def State.launchNode (s : State) (run : Nat) (g : GraphRun) (part : Nat) (p : Part) (j : Nat) : State :=
  match s.graphNode g.ctx g.gtab j with
  | none => s.queueError g.ctx g.q g.idx 5
  | some n =>
    match s.fetchLRec g.ctx n.lrec with
    | .error e => s.queueError g.ctx g.q g.idx e
    | .ok r =>
      ({ s with graphs := s.graphs.modify run fun x => { x with started := x.started ++ [j] } } :
        State).newLaunch g.ctx part n.lrec r (s.serving (coreSet p g.cmask)) none none (some (run, j))

/-- Every node's count becomes its npred (R360). -/
def State.setCounts (s : State) (t : Tab GNode) : State :=
  t.foldl (fun s p => s.homeWriteBytes none (p.2.pa + 0xA) (natBytes 2 p.2.npred)) s

/-- The node's count in memory. -/
def State.nodeCount (s : State) (n : GNode) : Nat := leNat (s.homeBytes (n.pa + 0xA) 2)

/-- The node's per-swatch edge, if it has one, is satisfied: its partner has started (R361). -/
def GraphRun.edgeMet (g : GraphRun) (j : Nat) : Bool :=
  match g.swHeld.get? j with
  | some p => g.started.contains p
  | none => true

/-- Launch the successors that now may start; a node that starts may satisfy further edges. -/
def State.launchReady (run : Nat) : Nat → List Nat → State → State
  | 0, _, s => s
  | _ + 1, [], s => s
  | f + 1, j :: js, s =>
    match s.graphs.get? run with
    | none => s
    | some g =>
      match s.graphNode g.ctx g.gtab j, (s.ctx? g.ctx).bind fun c => (s.parts.get? c.part).map fun p => (c.part, p) with
      | some n, some (part, p) =>
        if g.started.contains j || s.nodeCount n ≠ 0 || !g.edgeMet j then State.launchReady run f js s
        else
          let s := s.launchNode run g part p j
          State.launchReady run f (((n.succ.filter fun x => x.1).map fun x => x.2) ++ js) s
      | _, _ => State.launchReady run f js s

/-- GRAPH (R360). -/
def State.packetGraph (s : State) (k : Pkt) : State :=
  let n := k.at_ 0x20 1
  let cs := s.serving (coreSet k.p (k.at_ 0x28 8))
  let starts := (List.range n).map fun i => k.at_ (0x10 + 2 * i) 2
  if !zeroOutside k.bs [(0, 4), (8, 8), (0x10, 17), (0x28, 24)] || n < 1 || 8 < n ||
      k.at_ 8 8 % 64 ≠ 0 || k.at_ 0x30 8 % 8 ≠ 0 || cs.isEmpty then s.packetError k 2
  else
    match s.fetchDadr k.ctx (k.at_ 0x30 8), s.reach k.ctx .atomic (k.at_ 8 8) with
    | .error e, _ => s.packetError k e
    | .ok _, .error _ => s.packetError k 5
    | .ok dadr, .ok _ =>
      let (t, whole) := s.graphTable k.ctx (k.at_ 8 8) 40000000 starts []
      let s := s.setCounts t
      if !whole || !s.graphOk k.ctx t then s.packetError k 4
      else
          match starts.findSome? fun j => (t.get? j).bind fun n => match s.fetchLRec k.ctx n.lrec with
              | .error e => some e
              | .ok _ => none with
          | some e => s.packetError k e
          | none =>
            let run := s.nextLaunch
            let held := t.foldl (fun (h : Tab Nat) p => match edgesInto t true p.1 with
              | x :: _ => h.put p.1 x
              | [] => h) []
            let g : GraphRun :=
              { ctx := k.ctx, q := k.q, idx := k.d.head, gtab := k.at_ 8 8, cmask := k.at_ 0x28 8
                swHeld := held, started := [], finished := [] }
            let s := s.openPacket k.d (s.finishOf k dadr (k.at_ 0x30 8) (k.at_ 0x38 8))
            let s := { s with graphs := s.graphs.put run g, nextLaunch := run + 1 }
            let s := (dedup starts).foldl (fun s j => match s.graphs.get? run with
              | some g => s.launchNode run g k.part k.p j
              | none => s) s
            let edges := (dedup starts).flatMap fun j => match t.get? j with
              | some n => (n.succ.filter fun x => x.1).map fun x => x.2
              | none => []
            State.launchReady run 40000 edges s

/-- GRAPH_NODE_COMPLETION: successors' counts fall, those that reach zero launch, and the packet completes
when every node that started has completed (R348, R360). -/
def State.nodeDone (s : State) (run node : Nat) : State :=
  match s.graphs.get? run with
  | none => s
  | some g =>
    match s.launches.find? fun l => l.2.node == some (run, node) && l.2.done with
    | none => s
    | some (lid, _) =>
      let succ := ((s.graphNode g.ctx g.gtab node).map fun n => n.succ).getD []
      let whole := (succ.filter fun x => !x.1).map fun x => x.2
      let s := whole.foldl (fun s j => match s.graphNode g.ctx g.gtab j with
        | some n => s.homeWriteBytes none (n.pa + 0xA) (natBytes 2 (s.nodeCount n - 1))
        | none => s) s
      let s : State := { s with
        launches := s.launches.del lid
        swatches := s.swatches.filter fun p => p.2.launch != lid
        graphs := s.graphs.modify run fun g => { g with finished := g.finished ++ [node] } }
      let s := (State.launchReady run 40000 (whole ++ succ.map fun x => x.2) s).startLaunches
      match s.graphs.get? run with
      | none => s
      | some g =>
        if g.started.all fun j => g.finished.contains j then
          ({ s with graphs := s.graphs.del run } : State).completePacket g.ctx g.q g.idx
        else s

def execGraphNodeCompletion (run node : Nat) (s : State) : Out := .next (s.nodeDone run node)

/-! ## What a packet reads of another package (R395) -/

/-- Sectors of a range within one page, if it is reached. -/
def State.reachSectors (s : State) (ctx : Word) (va n : Nat) : List Nat :=
  match s.reach ctx .load va with
  | .ok pa => sectorsOf pa n
  | .error _ => []

/-- Sectors of a node of a graph table, with its overflow list. -/
def State.nodeSectors (s : State) (ctx : Word) (gtab j : Nat) : List Nat :=
  match s.reach ctx .load (gtab + 64 * j) with
  | .error _ => []
  | .ok pa =>
    let bs := s.homeBytes pa 64
    sectorsOf pa 64 ++ (List.range (min (fieldAt bs 0xC 2) 4096)).flatMap fun i => s.reachSectors ctx (fieldAt bs 0x30 8 + 4 * i) 4

/-- Sectors that the start of a GRAPH reads: its nodes as far as they are known, and their records. -/
def State.graphSectors (s : State) (k : Pkt) : List Nat :=
  let starts := (List.range (k.at_ 0x20 1)).map fun i => k.at_ (0x10 + 2 * i) 2
  let t := (s.graphTable k.ctx (k.at_ 8 8) 40000000 starts []).1
  (dedup (starts ++ t.flatMap fun p => p.2.succ.map fun x => x.2)).flatMap (fun j => s.nodeSectors k.ctx (k.at_ 8 8) j) ++
    t.flatMap fun p => s.reachSectors k.ctx p.2.lrec 256

/-- Sectors that a packet's start reads. -/
def State.packetSectors (s : State) (k : Pkt) : List Nat :=
  match k.at_ 0 1 with
  | 1 => s.reachSectors k.ctx (k.at_ 8 8) 256
  | 2 => s.graphSectors k
  | 3 => s.reachSectors k.ctx (k.at_ 8 8) 8
  | 5 => ((s.copyPieces k.ctx (k.at_ 8 8) (k.at_ 0x10 8) (k.at_ 0x18 8 / 32)).getD []).map fun p => p.1
  | _ => []

/-- Sectors of a list that another package holds and the queue has not read for the packet at an index. -/
def State.unread (s : State) (x : QState) (idx : Nat) (secs : List Nat) : List Nat :=
  dedup (secs.filter fun sec => !s.here sec && s.present sec && !x.reads.any fun r => r.idx == idx && r.sector == sec)

/-- What a packet still has to read of other packages before it starts: its own bytes first. -/
def State.packetNeeds (s : State) (x : QState) (k : Pkt) : List Nat :=
  match s.unread x k.d.head (s.reachSectors k.ctx (k.d.base + 64 * (k.d.head % k.d.ring)) 64) with
  | [] => s.unread x k.d.head (s.packetSectors k)
  | secs => secs

/-- The reads of a packet are sent (R395). -/
def State.frontAsk (s : State) (ctx : Word) (q idx : Nat) (secs : List Nat) : State :=
  secs.foldl (fun s sec =>
    (s.modPkg fun p => p.request ⟨pkgOf sec, dieOf sec, false, p.fpkg, s.frontDie ctx, false, 1, 0, sec, []⟩).modQueue ctx q
      fun x => { x with reads := (x.reads.filter fun r => r.idx == idx) ++ [⟨idx, sec, s.pkg.nextTxn⟩] }) s

/-! ## Serving a queue -/

/-- The packet of a type starts. -/
def State.runPacket (s : State) (k : Pkt) : State :=
  if k.at_ 0 4 / 512 ≠ 0 then s.packetError k 2
  else
    match k.at_ 0 1 with
    | 1 => s.packetLaunch k none
    | 2 => s.packetGraph k
    | 3 => s.packetWait k
    | 4 => s.packetSignal k
    | 5 => s.packetCopy k
    | 6 => s.packetQbarrier k
    | _ => s.packetFence k

/-- The queue has been served: the round-robin moves on and its timer restarts (R351). -/
def State.noteServed (s : State) (q : QState) (d : QDesc) : State :=
  (s.modDie (s.frontDie q.ctx) fun x => { x with rrLast := x.rrLast.put (q.level d) q.rank }).modQueue q.ctx
    q.q fun x => { x with aged := false, waited := 0 }

/-- A type that R348 does not list. -/
def badType (n : Nat) : Bool := n == 0 || decide (7 < n)

/-- The next packet of an eligible queue, whose read of tail is an acquire at .sy (R347). The first type
also stands for a queue whose next packet has no type to start by: an error of R353. What it reads of another package
is asked for first. -/
def State.servePacket (s : State) (ctx : Word) (q type : Nat) : State :=
  match s.queue? ctx q, s.ctx? ctx with
  | some x, some c =>
    if !s.eligible x then s
    else
      let s := s.acquire (s.frontDie ctx) true
      let d := s.queueDesc c q
      if d.ring < (d.tail + 2 ^ 32 - d.head) % 2 ^ 32 then
        if type = 1 then (s.noteServed x d).queueError ctx q d.head 6 else s
      else
        match s.readPacket ctx d d.head, s.parts.get? c.part with
        | .ok bs, some p =>
          let ty := fieldAt bs 0 1
          let k : Pkt := ⟨ctx, q, d, c.part, p, bs⟩
          if !(s.packetNeeds x k).isEmpty then s.frontAsk ctx q d.head (s.packetNeeds x k)
          else if ty = type then (s.noteServed x d).runPacket k
          else if type = 1 && badType ty then (s.noteServed x d).queueError ctx q d.head 1
          else s
        | _, _ => if type = 1 then (s.noteServed x d).queueError ctx q d.head 5 else s
  | _, _ => s

def execLaunchPacket (ctx : Word) (q : Nat) (s : State) : Out := .next (s.servePacket ctx q 1)
def execGraphPacket (ctx : Word) (q : Nat) (s : State) : Out := .next (s.servePacket ctx q 2)
def execWaitPacket (ctx : Word) (q : Nat) (s : State) : Out := .next (s.servePacket ctx q 3)
def execSignalPacket (ctx : Word) (q : Nat) (s : State) : Out := .next (s.servePacket ctx q 4)
def execCopyPacket (ctx : Word) (q : Nat) (s : State) : Out := .next (s.servePacket ctx q 5)
def execQbarrierPacket (ctx : Word) (q : Nat) (s : State) : Out := .next (s.servePacket ctx q 6)
def execFencePacket (ctx : Word) (q : Nat) (s : State) : Out := .next (s.servePacket ctx q 7)

/-- The event that serves the arbiter's choice of a die. -/
def State.packetEvent (s : State) (die : Nat) : Option Instr :=
  match s.arbiter die with
  | none => none
  | some x =>
    match s.ctx? x.ctx with
    | none => none
    | some c =>
      let d := s.queueDesc c x.q
      let ty := if d.ring < (d.tail + 2 ^ 32 - d.head) % 2 ^ 32 then 1
        else
          match s.readPacket x.ctx d d.head with
          | .ok bs => fieldAt bs 0 1
          | .error _ => 1
      some (match ty with
        | 2 => .graphPacket x.ctx x.q
        | 3 => .waitPacket x.ctx x.q
        | 4 => .signalPacket x.ctx x.q
        | 5 => .copyPacket x.ctx x.q
        | 6 => .qbarrierPacket x.ctx x.q
        | 7 => .fencePacket x.ctx x.q
        | _ => .launchPacket x.ctx x.q)

/-- A held WAIT whose word another package holds, and whose last read of it has its answer: it reads again (R395). -/
def State.rereads (s : State) (x : QState) : Option Nat :=
  match x.held with
  | some (_, .word pa _) => if !s.here pa && s.present (sectorOf pa) && s.readsOver x then some (sectorOf pa) else none
  | _ => none

/-- A held WAIT or QBARRIER whose condition now holds, or that reads its word again. -/
def State.retestDue (s : State) (x : QState) : Bool :=
  match x.held with
  | some (_, h) => s.heldMet x.ctx h || (s.rereads x).isSome
  | none => false

/-- WAIT_RETEST (R352). -/
def execWaitRetest (ctx : Word) (q : Nat) (s : State) : Out :=
  match s.queue? ctx q with
  | some x =>
    match x.held with
    | some (i, h) =>
      .next (if s.heldMet ctx h then s.completePacket ctx q i
        else match s.rereads x with
          | some sec => s.frontAsk ctx q i [sec]
          | none => s)
    | none => .next s
  | none => .next s

/-- TAIL_WRITE: the host publishes packets (R346, R347); the write wakes a parked queue. -/
def execTailWrite (ctx : Word) (q : Nat) (tail : Word) (s : State) : Out :=
  match s.ctx? ctx with
  | some c => .next (s.putWord ((s.queueDesc c q).at_ + 0x10) tail.toNat)
  | none => .next s

/-- A queue of level 0 to 2 that has been eligible and unserved for 1 ms is served a level up (R351). -/
def State.comesOfAge (s : State) (x : QState) : Bool :=
  match s.ctx? x.ctx with
  | some c => s.eligible x && decide ((s.queueDesc c x.q).prio < 3 ∧ Config.queueAge ≤ x.waited)
  | none => false

/-- Time that queues spend eligible and unserved (R351). -/
def State.ageQueues (s : State) (ns : Nat) : State :=
  { s with queues := s.queues.map fun x =>
      let x := { x with waited := if s.eligible x then x.waited + ns else 0 }
      if s.comesOfAge x then { x with aged := true } else x }

/-- QUEUE_AGING: a queue of level 0 to 2 unserved for 1 ms (R351). -/
def execQueueAging (ctx : Word) (q : Nat) (s : State) : Out :=
  .next (s.modQueue ctx q fun x => if s.comesOfAge x then { x with aged := true } else x)

/-- ECODE_CLEAR: the host writes zero to ecode, and the queue resumes at head (R353). -/
def execEcodeClear (ctx : Word) (q : Nat) (s : State) : Out :=
  match s.ctx? ctx with
  | some c => .next ((s.putWord ((s.queueDesc c q).at_ + 0x20) 0).modQueue ctx q fun x => { x with reads := [] })
  | none => .next s

/-- Records that wait for room are posted in their order until the ring is full (R355). -/
def State.drainRing (die : Nat) (ctx : Word) : Nat → State → State
  | 0, s => s
  | n + 1, s =>
    match (s.die die).pendEv.findIdx? fun r => r.ctx == ctx with
    | none => s
    | some ix =>
      match (s.die die).pendEv[ix]? with
      | none => s
      | some r =>
        match s.ringWrite r with
        | none => s
        | some s => State.drainRing die ctx n (s.modDie die fun d =>
            { d with pendEv := d.pendEv.take ix ++ d.pendEv.drop (ix + 1) })

/-- A record that waits has found room, since the host moved head in memory (R355): its context and head. -/
def State.ringDue (s : State) : Option (Word × Word) :=
  s.dies.findSome? fun p => p.2.pendEv.findSome? fun r =>
    if (s.ringWrite r).isNone then none
    else
      match (s.ctx? r.ctx).map fun c => s.walkPa r.ctx (c.ering % 2 ^ 57) with
      | some (.ok h) => some (r.ctx, w32 (s.homeWord (h.pa + 4)))
      | _ => none

/-- EVENT_RING_HEAD_ADVANCE: the host frees records (R355). -/
def execEventRingHeadAdvance (ctx head : Word) (s : State) : Out :=
  match s.ctx? ctx with
  | none => .next s
  | some c =>
    match s.walkPa ctx (c.ering % 2 ^ 57) with
    | .error _ => .next s
    | .ok h =>
      let s := s.putWord (h.pa + 4) head.toNat
      let die := s.frontDie ctx
      .next (State.drainRing die ctx (s.die die).pendEv.length s)

/-! ## The end of a launch (R358) -/

/-- Every swatch is released, no task waits, no task weft runs, and every other member of a roll launch has
reported (R358, R396). -/
def Launch.finished (l : Launch) : Bool :=
  !l.done && l.left == 0 && l.pool.isEmpty && l.liveTasks == 0 && l.roll.all fun r => r.waits == 0

/-- A launch of this member that another's queue started. -/
def Launch.joined (l : Launch) : Bool := l.origin.isNone && l.node.isNone && l.roll.isSome

/-- LAUNCH_COMPLETION: the packet completes, or the graph's control core is told. -/
def State.launchOver (s : State) (lid : Nat) : State :=
  match s.launches.get? lid with
  | none => s
  | some l =>
    if !l.finished then s
    else
      let gone : State := { s with
        launches := s.launches.del lid
        swatches := s.swatches.filter fun p => p.2.launch != lid }
      match l.origin with
      | some (q, idx) => (gone.completePacket l.ctx q idx).startLaunches
      | none => if l.joined then gone.startLaunches else s.modLaunch lid fun l => { l with done := true }

def execLaunchCompletion (launch : Nat) (s : State) : Out := .next (s.launchOver launch)

/-! ## Tasks (R362, R363) -/

/-- The tasks of one group in the order they entered the pool: at most 32. -/
def Launch.group (l : Launch) (sid : Nat) (entry : Word) : List Task :=
  (l.pool.filter fun t => t.sid == sid && t.entry == entry).take 32

/-- The first group of 32 tasks, or of any size whose first task has waited long enough. -/
def Launch.gather? (l : Launch) (ok : Task → Nat → Bool) : Option (Nat × Word) :=
  (l.pool.find? fun t => ok t (l.group t.sid t.entry).length).map fun t => (t.sid, t.entry)

/-- Drop the first `n` tasks of a group. -/
def dropTasks (sid : Nat) (entry : Word) : Nat → List Task → List Task
  | 0, ts => ts
  | _, [] => []
  | n + 1, t :: ts =>
    if t.sid == sid && t.entry == entry then dropTasks sid entry n ts
    else t :: dropTasks sid entry (n + 1) ts

/-- A task weft is formed: lane i receives the i-th task. -/
def State.formTaskWeft (s : State) (lid : Nat) (sid : Nat) (entry : Word) : State :=
  match s.launches.get? lid, s.swatch? sid with
  | some l, some sw =>
    let ts := l.group sid entry
    let role := (l.roleRec.get? 0).getD (0, 1, 0, 0)
    let wid := (sw.wefts.map fun p => p.1 + 1).foldl max 0
    let w := Weft.init .general entry (s.prioAt sw.clu sw.ctx entry)
      (maskOf fun i => decide (i < ts.length)) l.hang l.frt role.2.1 role.2.2.1 s.turn
      (some ((List.range 32).map fun i => (ts[i]?.map fun t => t.arg).getD 0))
    let s := s.modLaunch lid fun l => { l with pool := dropTasks sid entry ts.length l.pool }
    (s.modSwatch sid fun x => { x with wefts := x.wefts.put wid w }).acquire (dieOfCluster sw.clu) true
  | _, _ => s

/-- TASK_GATHER: 32 matching tasks form a weft. -/
def execTaskGather (launch : Nat) (s : State) : Out :=
  match (s.launches.get? launch).bind fun l => l.gather? fun _ n => decide (32 ≤ n) with
  | some (sid, e) => .next (s.formTaskWeft launch sid e)
  | none => .next s

/-- The first task of a group has waited 256 cycles of its cluster. -/
def State.taskLate (s : State) (t : Task) : Bool :=
  match s.swatch? t.sid with
  | some sw =>
    let age := ((s.cluster sw.clu).clk + 2 ^ 32 - t.since) % 2 ^ 32
    decide (256 ≤ age) && decide (age < 2 ^ 31)
  | none => false

/-- TASK_GATHER_TIMEOUT: a partial group forms a weft. -/
def execTaskGatherTimeout (launch : Nat) (s : State) : Out :=
  match (s.launches.get? launch).bind fun l => l.gather? fun t _ => s.taskLate t with
  | some (sid, e) => .next (s.formTaskWeft launch sid e)
  | none => .next s

end Sys2Proof.Machine
end

