-- ==== Sys2Proof/Machine/System.lean ====
section
/-!
DEFINITION. The system instructions of opcode 0x7F: HALT, TLBINV, QUIESCE, CTXSWAP and PGATTR (R364 to
R372, R316, R317), and the markers of a QUIESCE.
-/
namespace Sys2Proof.Machine

/-- An instruction that selects no set slot holds its weft until it completes (R367): its wait is no waiting
under R8, and no flag counts it. -/
def Site.hold (k : Site) (s : State) (i : Instr) (f : WaitForm) : Eff :=
  .past (s.modWeft k.sid k.wid fun w =>
    { w with wait := some ⟨i, { k.cl with tested := true }, f, 12, false, none, 0⟩ })

/-- A scalar result written at once. -/
def Site.write (k : Site) (s : State) (d : Dst) (ws : List Word) : Eff :=
  .done (s.modWeft k.sid k.wid fun w =>
    k.put w d ws.length (((lanesOf k.act).take 1).map fun l => (l, ws)))

/-! ## HALT (R368) -/

def execHalt (a : Src) (s : State) : Out :=
  s.issue (.halt a) fun k s =>
    let ctx := k.scalar a
    match k.w.wait with
    | some _ => if s.allStopped ctx then .done s else .past s
    | none =>
      if (s.ctx? ctx).isNone then .done s
      else
        let s := s.modCtx ctx fun c => { c with halted := true }
        if s.allStopped ctx then .done s else k.hold s (.halt a) (.halt ctx)

def execHaltResume (a : Src) (s : State) : Out :=
  s.issue (.haltResume a) fun k s => .done (s.modCtx (k.scalar a) fun c => { c with halted := false })

/-! ## TLBINV (R316, R317, R371) -/

/-- A TLBINV after its generation has risen: its words are written when no older access is under way, and until
then it holds its weft (R316). -/
def Site.invalidated (k : Site) (s : State) (i : Instr) (d : Dst) (ctx : Word) (ws : List Word) : Eff :=
  if s.accessesDone ctx (s.ctxGen ctx) then k.write s d ws else k.hold s i (.tlbinv ctx (s.ctxGen ctx) ws)

/-- A TLBINV or PGATTR that holds its weft tests again. -/
def Site.invalidating (k : Site) (s : State) (d : Dst) : WaitForm → Eff
  | .tlbinv ctx gen ws => if s.accessesDone ctx gen then k.write s d ws else .past s
  | _ => .past s

/-- Every store that has issued stands at its home: accesses made with an old translation have taken their
place. -/
def State.drainAll (s : State) : State :=
  let s := (s.cores.map fun p => p.1).foldl (fun s c => s.drainCore c) s
  [0, 1, 2, 3].foldl (fun s d => s.flushOut d) s

/-- The entry is one of the context that covers the address, or any of it. -/
def TlbEntry.named (t : TlbEntry) (ctx : Word) (va : Option Nat) : Bool :=
  match va with
  | some a => t.covers ctx a
  | none => t.ctx == ctx

/-- Every TLB of the package drops the covered entries; the context's generation rises. -/
def State.tlbInvalidate (s : State) (ctx : Word) (va : Option Nat) : State :=
  let s := s.drainAll
  let keep := fun (l : List TlbEntry) => l.filter fun t => !t.named ctx va
  ({ s with
    cores := s.cores.map fun p => (p.1, { p.2 with tlb := keep p.2.tlb })
    clusters := s.clusters.map fun p => (p.1, { p.2 with tlb := keep p.2.tlb }) } : State).modCtx ctx
    fun c => { c with gen := c.gen + 1 }

/-- The page that holds an address now: 64 KiB where the walk finds none. -/
def State.pageShift (s : State) (ctx : Word) (va : Nat) : Nat :=
  match s.walkPa ctx va with
  | .ok t => t.shift
  | .error _ => 16

/-- Pages that a context's shape records (R317), collectives (R400) and started packets (R352) pin. -/
def State.pins (s : State) (ctx : Word) : List Pin :=
  ((s.swatches.filter fun p => p.2.ctx == ctx).flatMap fun p => p.2.shapes.flatMap fun r => r.2.pins) ++
    s.dies.flatMap (fun d => (d.2.colls.filter fun c => c.ctx == ctx).flatMap fun c => c.pins) ++
    (s.finishes.filter fun f => f.ctx == ctx).filterMap fun f => f.page

/-- Pinned pages of a context in the covered range, each once (R317). -/
def State.pinnedPages (s : State) (ctx : Word) (va : Option Nat) : List Nat :=
  let ins := fun (p : Pin) => match va with
    | some x => let sh := max p.shift (s.pageShift ctx x); p.va % 2 ^ 57 / 2 ^ sh == x % 2 ^ 57 / 2 ^ sh
    | none => true
  dedup (((s.pins ctx).filter ins).map fun p => p.va % 2 ^ 57 / 2 ^ p.shift * 2 ^ p.shift)

def execTlbinv (d : Dst) (a : Src) (l : Bool) (s : State) : Out :=
  s.issue (.tlbinv d a l) fun k s =>
    match k.w.wait with
    | some x => k.invalidating s d x.form
    | none =>
      let ctx := k.word a 0 0
      let va := concat64 (k.word a 3 0) (k.word a 2 0)
      if k.word a 1 0 ≠ 0 then .trap s (mkTrap 0x01 k.act (w32 (Instr.tlbinv d a l).wordNat))
      else if (s.ctx? ctx).isNone then k.write s d [0, 1, 0, 0]
      else
        let what := if l then none else some (va.toNat % 2 ^ 57)
        let pins := s.pinnedPages ctx what
        let low := canonicalVa ((pins.min?).getD 0)
        k.invalidated (s.tlbInvalidate ctx what) (.tlbinv d a l) d ctx
          [w32 (min pins.length (2 ^ 32 - 1)), 0, loWord low, hiWord low]

/-! ## PGATTR (R372) -/

/-- Replace bits [11:10] and [8:7] of an entry. -/
def withAttr (e attr : Nat) : Nat :=
  e - nbits e 11 10 * 2 ^ 10 - nbits e 8 7 * 2 ^ 7 + nbits attr 11 10 * 2 ^ 10 + nbits attr 8 7 * 2 ^ 7

/-- The status of a PGATTR and, when it is 0, the leaf's new value with its address. -/
def State.pageAttr (s : State) (ctx : Word) (attr va : Nat) : Nat × Option (Nat × Nat) :=
  match s.ctx? ctx with
  | none => (4, none)
  | some c =>
    match s.walk c.root va with
    | .error e => if e = 0x08 then (1, none) else (2, none)
    | .ok (leaf, at_, lo) =>
      let lv := ((walkLevels.find? fun x => x.2.2 == lo).map fun x => x.1).getD 4
      let new := withAttr leaf attr
      if s.malformed lv lo new then (2, none)
      else if !(s.pinnedPages ctx (some va)).isEmpty then (3, none)
      else if pteVer leaf then (5, none)
      else (0, some (at_, new))

def execPgattr (d : Dst) (a : Src) (s : State) : Out :=
  s.issue (.pgattr d a) fun k s =>
    match k.w.wait with
    | some x => k.invalidating s d x.form
    | none =>
      let ctx := k.word a 0 0
      let attr := (k.word a 1 0).toNat
      let va := (concat64 (k.word a 3 0) (k.word a 2 0)).toNat % 2 ^ 57
      if attr / 2 ^ 12 ≠ 0 || attr.testBit 9 || attr % 2 ^ 7 ≠ 0 then
        .trap s (mkTrap 0x01 k.act (w32 (Instr.pgattr d a).wordNat))
      else
        match s.pageAttr ctx attr va with
        | (0, some (at_, new)) =>
          k.invalidated ((s.homeWriteBytes (some k.die) at_ (natBytes 8 new)).tlbInvalidate ctx (some va))
            (.pgattr d a) d ctx [0]
        | (st, _) => k.write s d [w32 st]

/-! ## QUIESCE (R364, R365, R369) -/

/-- Cores of a partition by core index: those a QUIESCE has vacated are none of it (R344, R364). -/
def State.partCores (s : State) (p : Part) : List Nat :=
  ((clustersOf p.clusters).flatMap fun c => (List.range 6).map fun i => 6 * c + i).filter fun c =>
    !(s.core c).vacated

/-- The status of a QUIESCE, and the cores it takes: the highest core indices. -/
def State.quiesceCheck (s : State) (part n : Nat) (stop : Bool) : Nat × List Nat :=
  match s.parts.get? part with
  | none => (1, [])
  | some p =>
    let cs := s.partCores p
    if n = 0 || cs.length < n || (!stop && n == cs.length) then (2, [])
    else if p.quiesce.isSome then (3, [])
    else (0, cs.drop (cs.length - n))

/-- The distributor and the bag stop on these cores, and every weft there stops at its next boundary. -/
def State.beginQuiesce (s : State) (part : Nat) (cores : List Nat) (stop : Bool) : State :=
  let s := cores.foldl (fun s c => s.modCore c fun k => { k with stopped := true }) s
  { s with parts := s.parts.modify part fun p => { p with quiesce := some ⟨cores, cores.map fun c => (c, (s.core c).fwJobs), stop, []⟩ } }

def Site.quiesce (k : Site) (s : State) (i : Instr) (d : Dst) (a : Src) (stop : Bool) : Eff :=
  match k.w.wait with
  | some x => if x.woken then k.write s d [0] else .past s
  | none =>
    let part := (k.word a 0 0).toNat
    match s.quiesceCheck part (k.word a 1 0).toNat stop with
    | (0, cores) => k.hold (s.beginQuiesce part cores stop) i (.quiesce part)
    | (st, _) => k.write s d [w32 st]

def execQuiesce (d : Dst) (a : Src) (s : State) : Out :=
  s.issue (.quiesce d a) fun k s => k.quiesce s (.quiesce d a) d a false

def execQuiesceStop (d : Dst) (a : Src) (s : State) : Out :=
  s.issue (.quiesceStop d a) fun k s => k.quiesce s (.quiesceStop d a) d a true

/-- Every weft on a core stands still and its engines' markers may return (R364), the copy engine's behind the firmware
jobs accepted ahead of it (R265). -/
def State.coreRests (s : State) (q : Quiesce) (core : Nat) : Bool :=
  ((s.onCore core).all fun p => s.swatchRests core p.1 p.2) &&
    (s.core core).jobs.all fun j => j.kind != .firmware ||
      decide (2 ^ 31 ≤ (q.marks.getD core 0 + 2 ^ 33 - 1 - j.num) % 2 ^ 32)

/-- Images of a core's bag store go to the spill areas of their contexts as far as these hold them (R369). -/
def State.spillAll (core : Nat) : Nat → State → State
  | 0, s => s
  | n + 1, s =>
    match s.oldestImage core with
    | none => s
    | some c =>
      match s.spillOne c with
      | .ok s => State.spillAll core n s
      | .error ctx => s.spillExhausted core ctx

/-- A quiesce-done record to every context of the partition (R354, R369). -/
def State.quiesceRecords (s : State) (part n : Nat) : State :=
  (s.ctxsOf part).foldl (fun s c => s.post (s.record 0x26 0 (w32 c.1) (w32 part) (w32 n) 0 0 0)) s

/-- Wefts that hold a QUIESCE of the partition go on. -/
def State.wakeQuiesce (s : State) (part : Nat) : State :=
  { s with swatches := s.swatches.map fun p => (p.1, { p.2 with wefts := p.2.wefts.map fun q =>
      (q.1, match q.2.wait with
        | some x => if x.form == .quiesce part then q.2.wake s.turn else q.2
        | none => q.2) }) }

/-- A pair takes its place by its first component. -/
def insertPair (x : Nat × Nat) : List (Nat × Nat) → List (Nat × Nat)
  | [] => [x]
  | y :: ys => if x.1 ≤ y.1 then x :: y :: ys else y :: insertPair x ys

/-- Swatches of some cores in ascending linear index. -/
def State.swatchesOf (s : State) (cores : List Nat) : List Nat :=
  (((cores.flatMap fun c => s.onCore c).map fun p => (p.2.linear, p.1)).foldr insertPair []).map fun x => x.2

/-- The last marker has returned: the swatches are saved and the cores vacated, or the bag stores are written
out (R364, R369); images that the spill areas do not hold wait for a write of spsize (R235). -/
def State.endQuiesce (s : State) (part : Nat) (q : Quiesce) : State :=
  let s := if q.stop then q.cores.foldl (fun s c => State.spillAll c (s.imageCount c) s) s
    else
      let s := (s.swatchesOf q.cores).foldl (fun s sid => s.saveSwatch sid true) s
      q.cores.foldl (fun s c => s.modCore c fun k => { k with stopped := false, vacated := true }) s |> State.rehouse
  if q.stop && q.cores.any fun c => s.imageCount c != 0 then
    { s with parts := s.parts.modify part fun p => { p with quiesce := some { q with returned := [] } } }
  else
    let s : State := { s with parts := s.parts.modify part fun p => { p with quiesce := none } }
    (s.quiesceRecords part q.cores.length).wakeQuiesce part

/-- QUIESCE_MARKER_RETURN: a core's markers return; a core that has moved again meanwhile is waited for
afresh. -/
def State.markerReturn (s : State) (core : Nat) : State :=
  match s.parts.find? fun p => p.2.quiesce.any fun q => q.cores.contains core && !q.returned.contains core with
  | none => s
  | some (part, p) =>
    match p.quiesce with
    | none => s
    | some q =>
      if !s.coreRests q core then s
      else
        let q := { q with returned := q.returned ++ [core] }
        if q.cores.all fun c => q.returned.contains c then
          if q.cores.all fun c => s.coreRests q c then s.endQuiesce part q
          else { s with parts := s.parts.modify part fun p => { p with quiesce := some { q with returned := [] } } }
        else { s with parts := s.parts.modify part fun p => { p with quiesce := some q } }

def execQuiesceMarkerReturn (core : Nat) (s : State) : Out := .next (s.markerReturn core)

/-- A core whose markers may return now. -/
def State.markerDue (s : State) : Option Nat :=
  s.parts.findSome? fun p => p.2.quiesce.bind fun q =>
    q.cores.find? fun c => !q.returned.contains c && s.coreRests q c && !(q.stop && (s.core c).spillBlocked)

/-! ## CTXSWAP (R366, R370) -/

/-- The context that the partition's cores hold. -/
def State.outgoing (s : State) (p : Part) (cores : List Nat) : Option Word :=
  match p.active with
  | some c => some c
  | none => ((cores.flatMap fun c => s.onCore c).head?).map fun x => x.2.ctx

/-- The status of a CTXSWAP. -/
def State.swapCheck (s : State) (part : Nat) (inc : Word) : Nat :=
  match s.parts.get? part with
  | none => 1
  | some p =>
    let cores := s.partCores p
    if p.quiesce.isSome || cores.any fun c => !(s.core c).stopped then 2
    else
      match cores.findSome? fun c => (s.core c).shadow with
      | some x => if inc = x then 0 else 3
      | none =>
        if inc = 0xFFFFFFFF then 0
        else if ((s.ctx? inc).any fun c => c.part == part) && s.cores.all fun c => c.2.shadow != some inc then 0
        else 3

/-- One swatch of an exchanged core: what was live goes to the shadow store, what stood there comes back. -/
def Swatch.exchange (sw : Swatch) (cores : List Nat) (jobs : Nat → List Job) (sid : Nat) : Swatch :=
  match sw.place with
  | .placed c r => if cores.contains c then { sw with
      place := .shadow c r
      savedJobs := (jobs c).filter fun j => j.kind != .firmware && j.sid == sid } else sw
  | .shadow c r => if cores.contains c then { sw with place := .placed c r, savedJobs := [] } else sw
  | _ => sw

/-- Jobs a core has after the exchange: its firmware jobs, and those saved with the swatches that come
back. -/
def State.jobsBack (s : State) (core : Nat) : List Job :=
  ((s.core core).jobs.filter fun j => j.kind == .firmware) ++ s.swatches.flatMap fun p =>
    match p.2.place with
    | .shadow c _ => if c = core then p.2.savedJobs else []
    | _ => []

/-- Contexts of swatches placed in a cluster. -/
def State.placedCtxs (s : State) (cl : Nat) : List Word :=
  dedup ((s.swatches.filter fun p => p.2.core?.any fun c => clusterOfCore c == cl).map fun p => p.2.ctx)

/-- A cluster after a switch: contexts whose swatches are placed again have their entries (R287), entries of contexts
placed no longer may go (R294), the bolts' lines follow, and a gated cluster that holds swatches wakes (R278). -/
def State.clusterSwapped (s : State) (cl : Nat) : State :=
  let back := s.placedCtxs cl
  let s := back.foldl (fun s c => s.modCluster cl fun k => k.bindCtx c) s
  let s := (s.swatches.filter fun p => p.2.core?.any fun c => clusterOfCore c == cl).foldl
    (fun s p => s.pinBolt cl p.2) ((s.releaseAccounts cl).unpinBolts cl)
  s.modCluster cl fun k =>
    if back.isEmpty then k
    else { k with idleTicks := 0, gating := if k.gating == .off then .waking 0 s.tim else k.gating }

/-- Every cluster of the switch has an account entry, bound or free, for each context that comes back (R287). -/
def State.swapFits (s : State) (cores : List Nat) : Bool :=
  let back := s.swatches.filterMap fun p => match p.2.place with
    | .shadow c _ => if cores.contains c then some (clusterOfCore c, p.2.ctx) else none
    | _ => none
  back.all fun x =>
    let new := dedup ((back.filter fun y => y.1 == x.1 && !((s.cluster x.1).accounts.any fun a => a.ctx == y.2)).map
      fun y => y.2)
    decide ((s.cluster x.1).accounts.length + new.length ≤ Config.accounts)

def State.swapCtx (s : State) (part : Nat) (inc : Word) : State :=
  match s.parts.get? part with
  | none => s
  | some p =>
    let cores := s.partCores p
    let out := s.outgoing p cores
    let old := s
    let s : State := { s with swatches := s.swatches.map fun x =>
      (x.1, if x.2.control.isSome then x.2
        else x.2.exchange cores (fun c => (old.core c).jobs) x.1) }
    let s := cores.foldl (fun s c => s.modCore c fun k => { k with
      jobs := old.jobsBack c, shadow := out, stopped := false, incoming := none, spillBlocked := false }) s
    let none_ := inc == 0xFFFFFFFF
    let s : State := { s with parts := s.parts.modify part fun p =>
        { p with active := if none_ then none else some inc, noCtx := none_ } }
    (dedup (cores.map clusterOfCore)).foldl (fun s cl => s.clusterSwapped cl) s

def execCtxswap (d : Dst) (a : Src) (s : State) : Out :=
  s.issue (.ctxswap d a) fun k s =>
    let part := (k.word a 0 0).toNat
    let inc := k.word a 1 0
    match s.swapCheck part inc with
    | 0 =>
      if (s.parts.get? part).all fun p => s.swapFits (s.partCores p) then k.write (s.swapCtx part inc) d [0]
      else .stall s
    | st => k.write s d [w32 st]

end Sys2Proof.Machine
end

