-- ==== Sys2Proof/Machine/Collective.lean ====
section
/-!
DEFINITION. Collectives over packages (R399 to R404): the descriptor, the checks at issue, the prepare phase
with an XPERM's reservations, the data phase, and the completion.
-/
namespace Sys2Proof
namespace Machine

/-! ## The descriptor (R399) -/

structure CDesc where
  src : Nat
  dst : Nat
  len : Nat
  tag : Nat
  op : Nat
  mlist : Nat
  nmem : Nat
  root : Nat
  esz : Nat
  k : Nat
  swaps : List (Nat × Nat)          -- rbit, lbit of six entries
  deriving DecidableEq, Repr

def collDesc (bs : List Byte) : CDesc :=
  let f := fieldAt bs
  let w := f 0x24 4
  { src := f 0 8, dst := f 8 8, len := f 0x10 4, tag := f 0x14 2, op := f 0x16 1, mlist := f 0x18 8
    nmem := f 0x20 2, root := f 0x22 2, esz := w % 8, k := nbits w 10 8
    swaps := (List.range 6).map fun i => (f (0x28 + 2 * i) 1, f (0x29 + 2 * i) 1) }

/-- Reserved fields hold zero. -/
def collReservedZero (bs : List Byte) : Bool :=
  let w := fieldAt bs 0x24 4
  zeroOutside bs [(0, 0x17), (0x18, 0x0E), (0x28, 12)] && nbits w 15 11 == 0 && nbits w 7 3 == 0

/-- Bytes of the destination. -/
def CDesc.dstLen (c : CDesc) (form : Nat) : Nat := if form = 3 then c.nmem * c.len else c.len

/-- Bytes of an element of an XPERM: size codes 3 and 4 of R187. -/
def CDesc.elem (c : CDesc) : Nat := if c.esz = 4 then 8 else 4

/-- The exponent of a power of two, up to a bound. -/
def log2? (n bound : Nat) : Option Nat := (List.range (bound + 1)).find? fun p => 2 ^ p == n

/-- No element twice. -/
def distinct (l : List Nat) : Bool := decide (dedup l = l)

/-- The values an XPERM's descriptor may hold (R399, R402). -/
def CDesc.permOk (c : CDesc) (ver : Nat) : Bool :=
  let used := c.swaps.take c.k
  match log2? c.nmem 12, log2? (c.len / c.elem) 40 with
  | some p, some m =>
    1 ≤ p && 1 ≤ c.k && c.k ≤ 6 && (c.esz == 3 || c.esz == 4) && c.op == 0 && c.root == 0 && c.dst == c.src &&
      ((c.swaps.drop c.k).all fun x => x == (0, 0)) && distinct (used.map fun x => x.2) &&
      distinct (used.map fun x => x.1) && (used.all fun x => decide (x.2 < m) && decide (x.1 < p)) &&
      decide (ver < 0xFFFFFFFE)
  | _, _ => false

/-- The descriptor is valid for its form: else status 1 (R401). -/
def CDesc.ok (c : CDesc) (form ver : Nat) (bs : List Byte) : Bool :=
  collReservedZero bs && c.src % 32 == 0 && c.dst % 32 == 0 && c.len % 32 == 0 && c.len != 0 &&
    1 ≤ c.nmem && c.nmem ≤ 4096 &&
    (if form = 0 then c.permOk ver
    else c.k == 0 && c.esz == 0 && (c.swaps.all fun x => x == (0, 0)) &&
      (if form = 1 then decide (c.op ≤ 3) else c.op == 0) &&
      (if form = 2 then decide (c.root < c.nmem) else c.root == 0) &&
      !spansMeet c.src c.len c.dst (c.dstLen form))

/-! ## Issue (R400) -/

/-- The member list: entries of 16 bits, with the sectors that another package must still answer for. An entry that
is not reached traps as a load of it would. -/
def State.readMembers (s : State) (k : Site) (va : Nat) : Nat → State × Except Trap (List Nat × List Nat)
  | 0 => (s, .ok ([], []))
  | n + 1 =>
    match s.readMembers k va n with
    | (s, .error t) => (s, .error t)
    | (s, .ok (ms, asks)) =>
      let a := (va + 2 * n) % 2 ^ 64
      match if canonical (w64 a) then s.access k.core k.clu k.sw.ctx .load a else (s, .error 0x09) with
      | (s, .error c) => (s, .error ⟨c, k.act, w64 a, 0, 0⟩)
      | (s, .ok t) =>
        let r := s.loadBytes k.core k.die k.w.away t.pa 2 false
        (r.1, .ok (ms ++ [leNat r.2.1], asks ++ s.unanswered k.w.away t.pa 2))

/-- The pages of one range from its addresses: the first that fails traps, and the pages that pass are pinned.
Every page of an XPERM lies in one region. -/
def State.collPages (s : State) (k : Site) (perm wr : Bool) :
    List Nat → List Pin → Option Nat → State × Except Trap (List Pin × Option Nat)
  | [], pins, r => (s, .ok (pins, r))
  | a :: as, pins, r =>
    let acc : Acc := if perm then (if wr then .vstore else .vload) else if wr then .store else .load
    match if canonical (w64 a) then s.access k.core k.clu k.sw.ctx acc a else (s, .error 0x09) with
    | (s, .error c) => (s, .error ⟨c, k.act, w64 a, accInfo wr, 0⟩)
    | (s, .ok t) =>
      let here := (s.regionAt (s.partOfCtx k.sw.ctx) (a % 2 ^ 57)).map fun x => x.1
      if perm && (here.isNone || (r.isSome && r != here)) then
        (s, .error ⟨0x09, k.act, w64 a, accInfo wr, 0⟩)
      else
        s.collPages k perm wr as (pins ++ [⟨a / 65536 * 65536, t.pa / 65536 * 65536, t.shift, false⟩])
          (if perm then here else none)

/-- The first address of a range in each of its pages. -/
def rangePages (a n : Nat) : List Nat :=
  if n = 0 then [] else (granules a n).map fun g => if g = a / 65536 * 65536 then a else g

/-- The source and destination pages, in that order. -/
def State.collRanges (s : State) (k : Site) (c : CDesc) (form : Nat) (skip : Bool) :
    State × Except Trap (List Pin × Option Nat) :=
  match s.collPages k (form == 0) false (if skip then [] else rangePages c.src c.len) [] none with
  | (s, .error t) => (s, .error t)
  | (s, .ok x) => s.collPages k (form == 0) true (rangePages c.dst (c.dstLen form)) x.1 x.2

/-! ## What members tell each other (R401) -/

/-- What the members must agree on: form, len, op, root, nmem, k, esz, the swaps and the list (R401). -/
def CDesc.agreed (d : CDesc) (form : Nat) (members : List Nat) : List Byte :=
  natBytes 1 form ++ natBytes 4 d.len ++ natBytes 1 d.op ++ natBytes 2 d.root ++ natBytes 2 d.nmem ++ natBytes 1 d.k ++
    natBytes 1 d.esz ++ (d.swaps.flatMap fun x => [BitVec.ofNat 8 x.1, BitVec.ofNat 8 x.2]) ++ members.flatMap (natBytes 2)

/-- The operation as messages name it: form and tag. -/
def Coll.key (c : Coll) : Nat := c.form * 65536 + (collDesc c.desc).tag

/-- The members on other packages. -/
def Coll.others (c : Coll) (pkg : Nat) : List Nat := dedup (c.members.filter fun m => m != pkg)

/-- A message to members: the operation, its issue count, and what it says (R391, log 119). -/
def State.collSend (s : State) (die : Nat) (c : Coll) (dest : List Nat) (body : List Byte) : State :=
  s.modPkg fun p => { p with sent := p.sent ++ (dest.filter fun m => decide (m < 4096)).map fun m =>
    ⟨m, die, false, p.fpkg, die, false, 10, 0, 0, natBytes 4 c.key ++ natBytes 4 c.issue ++ body⟩ }

/-! ## Prepare (R401, R402) -/

def State.coll? (s : State) (die id : Nat) : Option Coll := (s.die die).colls.find? fun c => c.id == id

def State.modColl (s : State) (die id : Nat) (f : Coll → Coll) : State :=
  s.modDie die fun d => { d with colls := d.colls.map fun c => if c.id = id then f c else c }

/-- The package to which the messages of an operation in flight go for a number (R408). -/
def Package.forward (p : Package) (n : Nat) : Nat := p.fwd.getD n n

/-- What the descriptor and the member list alone decide: status 1, 2 or 3. -/
def State.collStatus (s : State) (c : Coll) : Nat :=
  if !(collDesc c.desc).ok c.form c.ver c.desc || c.members.any fun m => decide (4096 ≤ m) then 1
  else if !c.members.contains s.pkg.fpkg || !distinct c.members then 2
  else if c.members.any fun m => m != s.pkg.fpkg && !s.pkg.reaches (s.pkg.forward m) then 3
  else 0

/-- The physical address behind a pinned address. -/
def Coll.pa (c : Coll) (va : Nat) : Nat :=
  ((c.pins.find? fun p => p.va == va / 65536 * 65536).map fun p => p.pa).getD 0 + va % 65536

/-- Local sectors of an XPERM. -/
def CDesc.sectors (c : CDesc) : Nat := c.len / 32

/-- A version of a local sector: its address and what stands there. -/
def State.collSector (s : State) (c : Coll) (r : Region) (i : Nat) : Nat × VSector :=
  let va := (collDesc c.desc).src + 32 * i
  (va % 2 ^ 57, s.versionsOf r (va % 2 ^ 57) (c.pa va))

/-- What one sector's turn in prepare finds. -/
inductive PermTurn
  | wait
  | fail (status : Nat)
  | reserve
  deriving DecidableEq, Repr

def Region.permTurn (r : Region) (x : VSector) (n : Nat) : PermTurn :=
  if n < r.floor then .fail 4
  else if !x.has n then .wait
  else if x.taken (n + 1) || n + 1 < r.floor then .fail 5
  else if decide (x.live < r.depth) && r.slotFree then .reserve
  else .wait

/-- Reservations of an aborted operation are released, and the stores that they held wake. -/
def State.unreserve (s : State) (c : Coll) : State :=
  match c.region, c.region.bind fun key => s.regions.get? key with
  | some key, some r => (List.range c.reserved).foldl (fun s i =>
      let x := s.collSector c r i
      (s.modRegion key fun r => { r with sectors := r.sectors.modify x.1 fun y =>
        { y with reserved := y.reserved.filter fun v => v != c.ver + 1 } }).wakeVersions key (some x.1) r.floor) s
  | _, _ => s

/-- The operation ends in prepare with a status: no member writes a destination byte. -/
def State.collFail (s : State) (die id status : Nat) : State :=
  match s.coll? die id with
  | none => s
  | some c => (s.unreserve c).modColl die id fun c => { c with phase := .done, status := status, reserved := 0 }

/-- Sector by sector, an XPERM waits for version n, checks, and reserves version n + 1 (R402). -/
def State.collReserve (die id : Nat) : Nat → State → State
  | 0, s => s
  | f + 1, s =>
    match s.coll? die id with
    | none => s
    | some c =>
      match c.region, c.region.bind fun key => s.regions.get? key with
      | some key, some r =>
        if (collDesc c.desc).sectors ≤ c.reserved then s
        else
          let x := s.collSector c r c.reserved
          match r.permTurn x.2 c.ver with
          | .wait => s
          | .fail st => s.collFail die id st
          | .reserve =>
            let s := s.modRegion key fun r => { r with
              sectors := r.sectors.put x.1 { x.2 with reserved := x.2.reserved ++ [c.ver + 1] } }
            State.collReserve die id f (s.modColl die id fun c => { c with reserved := c.reserved + 1 })
      | _, _ => s

/-- The member's own part of prepare. -/
def State.collPrepare (s : State) (die id : Nat) : State :=
  match s.coll? die id with
  | none => s
  | some c =>
    match s.collStatus c with
    | 0 => if c.form = 0 then State.collReserve die id (collDesc c.desc).sectors s else s
    | st => s.collFail die id st

/-- The member's own prepare is sound. -/
def Coll.sound (c : Coll) : Bool :=
  c.phase == .prepare && (c.form != 0 || decide ((collDesc c.desc).sectors ≤ c.reserved))

/-- The operation stands in its engine: that of a swatch that has left its core is saved with it and reissued when it is
placed again (R404). -/
def State.collServed (s : State) (c : Coll) : Bool := (s.swatch? c.sid).any fun sw => sw.onCore

/-- This member's prepare has ended, sound or with a status: the others hear of it once, with the digest. -/
def State.collTell (s : State) (die id : Nat) : State :=
  match s.coll? die id with
  | none => s
  | some c =>
    if c.told || !(c.phase == .done || c.sound) then s
    else
      (s.collSend die c (c.others s.pkg.fpkg) (0 :: natBytes 1 c.status ++ natBytes 4 c.digest.toNat)).modColl die id
        fun c => { c with told := true }

/-- What a member has said of the operation. -/
def State.collHeard (s : State) (c : Coll) (m : Nat) : Option CollMail :=
  s.pkg.collMail.find? fun x => x.key == c.key && x.issue == c.issue && x.pkg == s.pkg.forward m

/-- What the other members report together: a digest that differs or a failed prepare ends the wait for the rest. -/
def State.collVerdict (s : State) (c : Coll) : MemberVerdict :=
  let said := (c.others s.pkg.fpkg).map fun m => (s.collHeard c m).bind fun x => x.verdict
  if said.any fun v => v.any fun x => x.2 != c.digest then .digestsDiffer
  else if said.any fun v => v.any fun x => x.1 != 0 then .aborted
  else if said.any fun v => v.isNone then .waiting
  else .sound

/-! ## This member's source (R402, R403) -/

/-- A byte with whether it is uncorrectable. -/
abbrev MByte := Byte × Bool

def Coll.rank (c : Coll) (pkg : Nat) : Nat := c.members.findIdx fun m => m == pkg

/-- Ranks whose source is read. -/
def Coll.readers (c : Coll) : List Nat :=
  let d := collDesc c.desc
  if c.form = 2 then [d.root] else List.range d.nmem

/-- Sectors of this member's plain source that another package holds and has not been asked for. -/
def State.collNeeds (s : State) (c : Coll) : List Nat :=
  let d := collDesc c.desc
  if c.form = 0 || !c.readers.contains (c.rank s.pkg.fpkg) || c.pins.all fun p => s.here p.pa then []
  else ((List.range (d.len / 32)).map fun i => c.pa (d.src + 32 * i)).filter fun sec =>
    !s.here sec && s.present sec && !c.away.any fun a => a.addr == sec

/-- Other packages have answered for what was asked. -/
def Coll.answered (c : Coll) : Bool := c.away.all fun a => a.answer.isSome

/-- Reads of this member's source on other packages are sent (R395). -/
def State.collAsk (s : State) (die id : Nat) : State :=
  match s.coll? die id with
  | none => s
  | some c =>
    let x := s.askReads ((s.swatch? c.sid).bind fun sw => sw.core?) die c.away (s.collNeeds c)
    x.1.modColl die id fun c => { c with away := x.2 }

/-- This member's source: version n of an XPERM, else its memory, at the home. -/
def State.collOwn (s : State) (c : Coll) : List MByte :=
  let d := collDesc c.desc
  (List.range (d.len / 32)).flatMap fun i =>
    match c.region.bind fun key => s.regions.get? key with
    | some r =>
      match ((s.collSector c r i).2.vers.find? fun v => v.n == c.ver) with
      | some v => v.bytes.map fun b => (b, v.bad)
      | none => []
    | none =>
      let sec := c.pa (d.src + 32 * i)
      let h := if s.here sec then s.homeRead sec
        else (readAnswer c.away sec).getD (List.replicate 32 0, !s.present sec)
      h.1.map fun b => (b, h.2)

/-- A source as messages carry it: its bytes, then a byte for each sector that says whether it is uncorrectable. -/
def sourceBytes (l : List MByte) : List Byte :=
  (l.map fun b => b.1) ++ (List.range (l.length / 32)).map fun i => if ((l.drop (32 * i)).take 32).any fun b => b.2 then 1 else 0

/-- Bytes in pieces of 2048, which a message's body holds (R391). -/
def bodies : Nat → List Byte → List (List Byte)
  | 0, _ => []
  | n + 1, bs => if bs.isEmpty then [] else bs.take 2048 :: bodies n (bs.drop 2048)

/-- In the data phase this member's source goes to the members that read it, of an XBC the root's alone (R401, R403). -/
def State.collShare (s : State) (die id : Nat) : State :=
  match s.coll? die id with
  | none => s
  | some c =>
    if c.phase ≠ .data || c.shared || !(s.collNeeds c).isEmpty || !c.answered then s
    else
      let dest := if c.readers.contains (c.rank s.pkg.fpkg) then c.others s.pkg.fpkg else []
      let bs := if dest.isEmpty then [] else sourceBytes (s.collOwn c)
      ((bodies (bs.length / 2048 + 1) bs).foldl (fun s b => s.collSend die c dest (1 :: b)) s).modColl die id
        fun c => { c with shared := true }

/-- COLLECTIVE_PREPARE_DONE: this member's prepare goes on, and ends as the others' reports say. An XPERM that still
waits for a version or a slot stays in prepare. -/
def State.prepareDone (s : State) (die id : Nat) (v : MemberVerdict) : State :=
  match s.coll? die id with
  | none => s
  | some c =>
    if c.phase ≠ .prepare || !s.collServed c then s
    else
      let s := (s.collPrepare die id).collTell die id
      match s.coll? die id with
      | none => s
      | some c =>
        if c.phase ≠ .prepare then s
        else
          match v with
          | .waiting => s
          | .unreachable => (s.collFail die id 3).collTell die id
          | .aborted => (s.collFail die id 6).collTell die id
          | .digestsDiffer => (s.collFail die id 7).collTell die id
          | .sound =>
            if c.sound then ((s.modColl die id fun c => { c with phase := .data }).collAsk die id).collShare die id
            else s

def execCollectivePrepareDone (die op : Nat) (verdict : MemberVerdict) (s : State) : Out :=
  .next (s.prepareDone die op verdict)

/-- A collective issues (R400, R404): a release at .rl, an operation place, its issue count, and its own part
of prepare. -/
def Site.collective (k : Site) (s : State) (form : Nat) (d : Dst) (a : Src) (ver : Nat) : Eff :=
  match s.readLanes k true 64 false (k.accessLanes true (k.addr a)) with
  | (s, .error t) => .trap s t
  | (s, .ok r) =>
    if !r.asks.isEmpty then .hold s fun s => s.askWeft k r.asks
    else
    match k.poisonOf true r.bad with
    | some p => .fly s { k.flyScalar d [0] with poison := some p }
    | none =>
      if k.act = 0 then .fly s k.flight
      else
      let bs := ((r.vals.head?).map fun x => x.2).getD []
      let c := collDesc bs
      match s.readMembers k c.mlist (min c.nmem 4096) with
      | (s, .error t) => .trap s t
      | (s, .ok (_, x :: xs)) => .hold s fun s => s.askWeft k (x :: xs)
      | (s, .ok (ms, [])) =>
        let skip := form == 2 && ms[c.root]? != some s.pkg.fpkg
        match s.collRanges k c form skip with
        | (s, .error t) => .trap s t
        | (s, .ok x) =>
          if Config.collectives ≤ ((s.die k.die).colls.filter s.collServed).length then .stall s
          else
            k.withRelease s true true fun s =>
            let key := (s.partOfCtx k.sw.ctx * 4 + form) * 65536 + c.tag
            let id := (s.die k.die).collSeq
            let op : Coll :=
              { id := id, form := form, sid := k.sid, wid := k.wid, ctx := k.sw.ctx, ver := ver, desc := bs
                members := ms, issue := s.pkg.collIssues.getD key 0, pins := x.1, region := x.2
                phase := .prepare, status := 0, digest := Config.collDigest (c.agreed form ms), reserved := 0, told := false
                shared := false, away := [] }
            let s := s.modDie k.die fun d => { d with colls := d.colls ++ [op], collSeq := id + 1 }
            let s := s.modPkg fun p => { p with collIssues := p.collIssues.put key (op.issue + 1) }
            let s := ((s.collPrepare k.die id).collTell k.die id).modWeft k.sid k.wid fun w => { w with candSince := s.turn }
            .fly s { k.flyScalar d [0] with kind := .collective k.die id }

def execXperm (d : Dst) (a b : Src) (f : Bool) (s : State) : Out :=
  s.issue (.xperm d a b f) fun k s => k.collective s 0 d a (k.scalar b).toNat

def execXred (d : Dst) (a : Src) (f : Bool) (s : State) : Out :=
  s.issue (.xred d a f) fun k s => k.collective s 1 d a 0

def execXbc (d : Dst) (a : Src) (f : Bool) (s : State) : Out :=
  s.issue (.xbc d a f) fun k s => k.collective s 2 d a 0

def execXag (d : Dst) (a : Src) (f : Bool) (s : State) : Out :=
  s.issue (.xag d a f) fun k s => k.collective s 3 d a 0

/-! ## The data phase (R402, R403) -/

/-- What a member has sent of its source: its bytes with their sectors' marks (R401). -/
def CollMail.source (x : CollMail) (len : Nat) : List MByte :=
  (List.range (len / 32)).flatMap fun i =>
    ((x.data.drop (32 * i)).take 32).map fun b => (b, x.data.getD (len + i) 0 != 0)

/-- The message of a rank's member. -/
def State.collMail? (s : State) (c : Coll) (r : Nat) : Option CollMail := (c.members[r]?).bind fun m => s.collHeard c m

/-- The source of a rank. -/
def State.collSrc (s : State) (c : Coll) (r : Nat) : List MByte :=
  if r = c.rank s.pkg.fpkg then s.collOwn c
  else match s.collMail? c r with
    | some x => x.source (collDesc c.desc).len
    | none => []

/-- Every source that is read has arrived. -/
def State.collHasAll (s : State) (c : Coll) : Bool :=
  let len := (collDesc c.desc).len
  c.answered && c.readers.all fun r => r == c.rank s.pkg.fpkg ||
    (s.collMail? c r).any fun x => decide (len + len / 32 ≤ x.data.length)

/-- Exchange bits i and j of a number. -/
def swapBits (x i j : Nat) : Nat :=
  if x.testBit i = x.testBit j then x else x ^^^ (2 ^ i) ^^^ (2 ^ j)

/-- π of R402. -/
def CDesc.perm (c : CDesc) (m g : Nat) : Nat :=
  (c.swaps.take c.k).foldl (fun g x => swapBits g x.2 (m + x.1)) g

/-- `n` bytes of a source from an offset. -/
def piece (l : List MByte) (off n : Nat) : List MByte := (l.drop off).take n

/-- The operation of an XRED (R142, R403). -/
def redOp (op : Nat) : ScanOp :=
  match op with
  | 0 => .addI32
  | 1 => .addF32
  | 2 => .maxI32
  | _ => .or

/-- The tree over ranks: twelve levels hold every list. -/
def redTree (o : ScanOp) : Nat → List (Option (Word × FBits)) → List (Option (Word × FBits))
  | 0, l => l
  | n + 1, l => redTree o n (redLevel o l)

/-- One element of an XRED over the ranks' sources. -/
def redElem (o : ScanOp) (srcs : List (List MByte)) (e : Nat) : List MByte :=
  let ps := srcs.map fun l => piece l (4 * e) 4
  let ws := ps.map fun p => some (w32 (leNat (p.map fun b => b.1)), (0 : FBits))
  let r := ((redTree o 12 ws).headD none).getD (0, 0)
  let bad := ps.any fun p => p.any fun b => b.2
  (wordBytes r.1).map fun b => (b, bad)

/-- The destination's bytes. -/
def State.collOut (s : State) (c : Coll) : List MByte :=
  let d := collDesc c.desc
  let srcs := c.readers.map fun r => s.collSrc c r
  match c.form with
  | 0 =>
    let e := d.elem
    let n := d.len / e
    let m := (log2? n 40).getD 0
    (List.range n).flatMap fun j =>
      let g := d.perm m (c.rank s.pkg.fpkg * n + j)
      piece (srcs.getD (g / n) []) (e * (g % n)) e
  | 1 => (List.range (d.len / 4)).flatMap fun e => redElem (redOp d.op) srcs e
  | _ => srcs.flatMap fun l => l

/-- One sector of the destination is written: a version of an XPERM, else memory; bytes that bad data enters
are marked. -/
def State.collPut (s : State) (die : Nat) (c : Coll) (out : List MByte) (i : Nat) : State :=
  let bs := piece out (32 * i) 32
  let bad := bs.any fun b => b.2
  let bytes := bs.map fun b => b.1
  match c.region, c.region.bind fun key => s.regions.get? key with
  | some key, some r =>
    let x := s.collSector c r i
    let y := { x.2 with reserved := x.2.reserved.filter fun v => v != c.ver + 1 }
    (s.createVersion key x.1 y ⟨c.ver + 1, bytes, bad⟩).markDirty
      (sectorOf (c.pa ((collDesc c.desc).src + 32 * i)))
  | _, _ =>
    let sec := c.pa ((collDesc c.desc).dst + 32 * i)
    let s := s.homeWriteBytes (some die) sec bytes
    if bad then { s with bad := insNat sec s.bad } else s

/-- The flight of the operation completes with its status. -/
def Weft.collDone (w : Weft) (die id : Nat) (status : Nat) (turn : Nat) : Weft :=
  match w.flights.findIdx? fun f => f.kind == .collective die id with
  | none => w
  | some ix =>
    match w.flights[ix]? with
    | none => w
    | some f =>
      let w := (w.land { f with swr := f.swr.map fun x => (x.1, w32 status) }).dropFlight ix
      if w.place = .absent then { w with runSince := turn } else w

/-- Some operation in flight names a package. -/
def State.collNames (s : State) (n : Nat) : Bool := s.dies.any fun d => d.2.colls.any fun y => y.members.contains n

/-- A forwarding entry lasts until the operation that uses it completes (R408): it goes when the list of no other
operation here names its package. -/
def State.dropForwards (s : State) (c : Coll) : State :=
  s.modPkg fun p => { p with fwd := p.fwd.filter fun x => !(c.members.contains x.1) || s.collNames x.1 }

/-- The operation has left prepare: every member has passed it, or there is no other member. -/
def Coll.inData (c : Coll) (pkg : Nat) : Bool :=
  c.phase == .data || (c.phase == .prepare && c.form != 0 && c.members == [pkg])

/-- Part of the plain destination is homed on another package. -/
def State.collFar (s : State) (c : Coll) : Bool :=
  let d := collDesc c.desc
  c.form != 0 && (rangePages d.dst (d.dstLen c.form)).any fun a => !s.here (c.pa a)

/-- In its data phase the operation has reads to send, its source to share, or every source that it reads. -/
def State.collGoes (s : State) (c : Coll) : Bool :=
  !(s.collNeeds c).isEmpty || (c.phase == .data && !c.shared && c.answered) || s.collHasAll c

/-- The operation may move: it has failed prepare, its data phase goes on, or what it has written is performed. -/
def State.collReady (s : State) (c : Coll) : Bool :=
  c.phase == .done || (c.phase == .written && s.pkg.acked) || (c.inData s.pkg.fpkg && s.collGoes c)

/-- The messages that an operation has received are done with. -/
def State.dropMail (s : State) (c : Coll) : State :=
  s.modPkg fun p => { p with collMail := p.collMail.filter fun x =>
    !(x.key == c.key && x.issue == c.issue && c.members.any fun m => s.pkg.forward m == x.pkg) }

/-- The operation ends: the status goes to the weft, and the completion is an acquire at .rl (R404). -/
def State.collEnd (s : State) (die id : Nat) (c : Coll) : State :=
  let s := (s.acquire die true).modDie die fun d => { d with colls := d.colls.filter fun x => x.id != id }
  ((s.dropMail c).dropForwards c).modWeft c.sid c.wid fun w => w.collDone die id c.status s.turn

/-- The destination is written: the operation ends with it, or once other packages have acknowledged their part (R403). -/
def State.collWrite (s : State) (die id : Nat) (c : Coll) : State :=
  let out := s.collOut c
  let s := (List.range (out.length / 32)).foldl (fun s i => s.collPut die c out i) s
  if s.collFar c then s.modColl die id fun c => { c with phase := .written } else s.collEnd die id c

/-- COLLECTIVE_COMPLETION: in the data phase this member's source is read and shared, and when every source has come the
destination is written and performed; then the operation ends (R401 to R404). -/
def State.collComplete (s : State) (die id : Nat) : State :=
  match s.coll? die id with
  | none => s
  | some c =>
    if !s.collReady c then s
    else if !c.inData s.pkg.fpkg then s.collEnd die id c
    else if !(s.collNeeds c).isEmpty then s.collAsk die id
    else
      let s := s.collShare die id
      if s.collHasAll c then s.collWrite die id c else s

def execCollectiveCompletion (die op : Nat) (s : State) : Out := .next (s.collComplete die op)

/-- This member's own prepare can go on: an XPERM's next sector is no wait (R402). -/
def State.prepareGoes (s : State) (c : Coll) : Bool :=
  c.form != 0 || s.collStatus c != 0 ||
    match c.region.bind fun key => s.regions.get? key with
    | some r => decide ((collDesc c.desc).sectors ≤ c.reserved) ||
        r.permTurn (s.collSector c r c.reserved).2 c.ver != .wait
    | none => false

/-- The prepare phase moves: this member's part goes on, or what the others have said decides it. -/
def State.prepareMoves (s : State) (c : Coll) : Bool :=
  c.phase == .prepare && s.collServed c &&
    match s.collVerdict c with
    | .waiting => !c.told && s.prepareGoes c
    | .sound => c.told || s.prepareGoes c
    | _ => true

/-- An operation that may move now. -/
def State.collDue (s : State) : Option Instr :=
  s.dies.findSome? fun d =>
    ((d.2.colls.find? fun c => s.collReady c).map fun c => .collectiveCompletion d.1 c.id).or
      ((d.2.colls.find? fun c => s.prepareMoves c).map fun c => .collectivePrepareDone d.1 c.id (s.collVerdict c))

end Machine
end Sys2Proof
end

