-- ==== Sys2Proof/Machine/Fabric.lean ====
section
/-!
DEFINITION. The fabric: flits with their CRC, acknowledgement and replay (R390 to R393), messages and what each
kind does at its destination (R229, R258, R325, R335, R391, R395, R401, R407; live migration itself stands in Migration, R405 to
R408). The bodies of messages are the model's (log 16): the spec gives the header and the interrupt's body.
-/
namespace Sys2Proof
namespace Machine

/-! ## Flits (R391) -/

/-- One bit of the CRC-64 of ECMA-182, most significant bit first. -/
def crcBit (c : DWord) : DWord := if c.msb then (c <<< 1) ^^^ 0x42F0E1EBA9EA3693 else c <<< 1

def crcByte (c : DWord) (b : Byte) : DWord :=
  crcBit (crcBit (crcBit (crcBit (crcBit (crcBit (crcBit (crcBit (c ^^^ (b.setWidth 64 <<< 56)))))))))

def crc64 (bs : List Byte) : DWord := bs.foldl crcByte 0

/-- A flit's header and payload. -/
structure Flit where
  seq : Nat
  ack : Nat
  nak : Bool
  kind : Nat
  payload : List Byte
  deriving DecidableEq, Repr

/-- The flit of 128 bytes, unless its CRC fails. -/
def readFlit (bs : List Byte) : Option Flit :=
  let h := fieldAt bs 0 8
  if bs.length = 128 && (crc64 (bs.take 0x78)).toNat == fieldAt bs 0x78 8 then
    some ⟨nbits h 63 52, nbits h 51 40, h.testBit 39, nbits h 27 24, (bs.drop 8).take 112⟩
  else none

def flitSeq (f : List Byte) : Nat := nbits (fieldAt f 0 8) 63 52

/-- A flit as this port sends it now: its next sequence number, and the last flit received in order. -/
def Port.flit (p : Port) (nak : Bool) (kind : Nat) (payload : List Byte) : List Byte :=
  let h := p.sendSeq * 2 ^ 52 + (p.expect + 4095) % 4096 * 2 ^ 40 + (if nak then 2 ^ 39 else 0) + kind * 2 ^ 24
  let bs := natBytes 8 h ++ payload ++ List.replicate (112 - payload.length) 0
  bs ++ natBytes 8 (crc64 bs).toNat

/-- Flits a replay buffer holds (R389). -/
def replayFlits : Nat := 512

/-- Send a flit; a full replay buffer stalls the port (R392). -/
def Port.transmit (p : Port) (nak : Bool) (kind : Nat) (payload : List Byte) : Port :=
  if replayFlits ≤ p.replay.length then p
  else
    let f := p.flit nak kind payload
    { p with wire := p.wire ++ [f], replay := p.replay ++ [f], sendSeq := (p.sendSeq + 1) % 4096 }

/-- Flits up to an acknowledged one leave the replay buffer. -/
def ackReplay (l : List (List Byte)) (a : Nat) : List (List Byte) :=
  if l.any fun f => flitSeq f == a then (l.dropWhile fun f => flitSeq f != a).drop 1 else l

/-- A counter of fretry or of retrainings saturates. -/
def satInc (n top : Nat) : Nat := min (n + 1) top

def Port.countNak (p : Port) : Port := { p with naks := satInc p.naks (2 ^ 32 - 1) }

/-- A flit that fails its CRC or is not the next: nak, with the last good flit (R392). -/
def Port.refuse (p : Port) : Port := p.countNak.transmit true 0 []

/-- A good flit: what it acknowledges leaves the replay buffer, and a nak has the rest sent again. -/
def Port.accept (p : Port) (f : Flit) : Port :=
  let rest := ackReplay p.replay f.ack
  let progress := decide (rest.length < p.replay.length)
  let run := if progress then 0 else p.nakRun
  { p with
    expect := (p.expect + 1) % 4096, replay := rest
    nakRun := if f.nak then run + 1 else run
    wire := if f.nak then p.wire ++ rest else p.wire }

/-! ## Messages in flits (R391) -/

/-- The 16-byte header. -/
def msgHeader (m : Msg) : List Byte :=
  natBytes 16 (m.dpkg * 2 ^ 116 + m.ddie * 2 ^ 114 + (if m.dh then 2 ^ 113 else 0) + m.spkg * 2 ^ 101 +
    m.sdie * 2 ^ 99 + (if m.sh then 2 ^ 98 else 0) + m.mkind * 2 ^ 92 + m.body.length * 2 ^ 80 +
    m.txn * 2 ^ 60 + m.addr)

def headerOf (bs : List Byte) : Msg :=
  let h := fieldAt bs 0 16
  ⟨nbits h 127 116, nbits h 115 114, h.testBit 113, nbits h 112 101, nbits h 100 99, h.testBit 98,
    nbits h 97 92, nbits h 79 60, nbits h 59 0, []⟩

def lenOf (bs : List Byte) : Nat := nbits (fieldAt bs 0 16) 91 80

/-- Whole messages out of received bytes, and the beginning of one that goes on in the next flit. Fewer than
16 bytes at a flit's end, and zeros where a header would stand, are padding (log 16). -/
def parseMsgs : Nat → List Byte → List Msg × List Byte
  | 0, _ => ([], [])
  | n + 1, bs =>
    if bs.length < 16 || (bs.take 16).all fun b => b == 0 then ([], [])
    else
      let len := lenOf bs
      if bs.length < 16 + len then ([], bs)
      else
        let r := parseMsgs n (bs.drop (16 + len))
        ({ headerOf bs with body := (bs.drop 16).take len } :: r.1, r.2)

/-- Kinds that R391 lists. -/
def msgKnown (m : Msg) : Bool := 1 ≤ m.mkind && m.mkind ≤ 12

/-- The bytes of a message as payloads of 112. -/
def payloads : Nat → List Byte → List (List Byte)
  | 0, _ => []
  | n + 1, bs => if bs.isEmpty then [] else bs.take 112 :: payloads n (bs.drop 112)

def msgPayloads (m : Msg) : List (List Byte) := payloads 40 (msgHeader m ++ m.body)

/-! ## Routes (R389, R392) -/

/-- Where a message's route lies in the table; forwarding entries are for collectives (R408). -/
def Package.destOf (p : Package) (m : Msg) : Nat :=
  if m.dh then 4096 + m.dpkg else if m.mkind = 10 then p.forward m.dpkg else m.dpkg

def Package.port (p : Package) (i : Nat) : Port := p.ports.getD i Port.reset

def Port.carries (p : Port) : Bool := p.up && !p.fenced

/-- The port that carries a destination's messages now: the first of its route that is up. -/
def Package.outPort (p : Package) (dest : Nat) : Option Nat :=
  (p.routes.getD dest []).find? fun i => (p.port i).carries

/-- Another port of a route that a port stands in, whose replay buffer has room for `n` flits. -/
def Package.otherPort (p : Package) (i n : Nat) : Option Nat :=
  (p.routes.filter fun r => r.2.contains i).findSome? fun r =>
    r.2.find? fun j => j != i && (p.port j).carries && decide ((p.port j).replay.length + n ≤ replayFlits)

def Package.modPort (p : Package) (i : Nat) (f : Port → Port) : Package :=
  { p with ports := p.ports.put i (f (p.port i)) }

/-- A port answers a flit: with the next message of a route it carries, else with an idle flit (R392, R393). -/
def Package.answer (p : Package) (i : Nat) : Package :=
  match p.sent.findIdx? fun m => p.outPort (p.destOf m) == some i with
  | none => p.modPort i fun x => x.transmit false 0 []
  | some ix =>
    match p.sent[ix]? with
    | none => p
    | some m =>
      if replayFlits < (p.port i).replay.length + (msgPayloads m).length then p
      else
        { p with sent := p.sent.take ix ++ p.sent.drop (ix + 1) }.modPort i fun x =>
          (msgPayloads m).foldl (fun x bs => x.transmit false 1 bs) x

/-- A port stops carrying traffic: what it has sent and not had acknowledged, and the message it is receiving,
go on at another port of the same route that has room for them; with none, they stay (R389, R392). -/
def Package.leavePort (p : Package) (i : Nat) : Package :=
  let x := p.port i
  let p := p.modPort i fun x => { x with up := false, gen := 0, nakRun := 0 }
  let msgs := x.replay.filter fun f => nbits (fieldAt f 0 8) 27 24 == 1
  match p.otherPort i msgs.length with
  | none => p
  | some j =>
    (p.modPort i fun x => { x with replay := [], partial_ := [] }).modPort j fun y =>
      { msgs.foldl (fun y f => y.transmit false 1 ((f.drop 8).take 112)) y with
        partial_ := y.partial_ ++ x.partial_ }

/-- The port retrains. -/
def Package.retrain (p : Package) (i : Nat) : Package :=
  (p.leavePort i).modPort i fun x => { x with retrains := satInc x.retrains 65535 }

/-! ## What each message does -/

/-- A message back to where one came from, under its tag. -/
def State.reply (s : State) (m : Msg) (kind : Nat) (body : List Byte) : State :=
  s.modPkg fun p => { p with sent := p.sent ++
    [⟨m.spkg, m.sdie, m.sh, p.fpkg, m.ddie, false, kind, m.txn, m.addr, body⟩] }

/-- A request has its answer. -/
def State.answered (s : State) (m : Msg) : State :=
  s.modPkg fun p => { p with unacked := p.unacked.filter fun r => r.txn != m.txn }

/-- READ: the sector at its home, with a byte that says whether it is uncorrectable (R395). -/
def State.msgRead (s : State) (m : Msg) : State :=
  if s.here m.addr then
    let h := s.homeRead (sectorOf m.addr)
    s.reply m 2 (h.1 ++ [if h.2 then 1 else 0])
  else s

/-- An answer reaches the access that waits for it. -/
def answerAway (txn : Nat) (x : List Byte × Bool) (l : List Away) : List Away :=
  l.map fun a => if a.txn = txn && a.answer.isNone then { a with answer := some x } else a

/-- An answer reaches whoever waits for it: a weft, a copy job, a cluster's fetch, a collective (R395). -/
def State.deliver (s : State) (txn : Nat) (x : List Byte × Bool) : State :=
  let f := answerAway txn x
  let jobs := fun (l : List Job) => l.map fun j => { j with away := f j.away }
  { s with
    swatches := s.swatches.map fun p => (p.1, { p.2 with
      savedJobs := jobs p.2.savedJobs
      wefts := p.2.wefts.map fun q => (q.1, { q.2 with away := f q.2.away }) })
    cores := s.cores.map fun p => (p.1, { p.2 with jobs := jobs p.2.jobs })
    clusters := s.clusters.map fun p => (p.1, { p.2 with away := f p.2.away })
    dies := s.dies.map fun p => (p.1, { p.2 with colls := p.2.colls.map fun c => { c with away := f c.away } }) }

/-- The request that a response answers, if one waits under its tag. -/
def Package.asked (p : Package) (m : Msg) (kind : Nat) : Bool :=
  p.unacked.any fun r => r.txn == m.txn && r.mkind == kind

/-- READ DATA: the sector as its home held it, with whether it is uncorrectable; it is also what this package's front
ends have last seen of that memory (log 16). -/
def State.msgReadData (s : State) (m : Msg) : State :=
  let sec := sectorOf m.addr
  if s.here m.addr || m.body.length < 33 || !s.pkg.asked m 1 then s.answered m
  else
    let bad := fieldAt m.body 32 1 != 0
    let s := (s.answered m).deliver m.txn (m.body.take 32, bad)
    { s with
      mem := memPutBytes s.mem sec (m.body.take 32)
      bad := if bad then insNat sec s.bad else s.bad.filter fun b => b != sec }

/-- ATOMIC RESULT: the old value, with whether the place was uncorrectable, reaches the lane that asked. -/
def State.msgAtomicResult (s : State) (m : Msg) : State :=
  if s.pkg.asked m 5 then
    let n := m.body.length - 1
    (s.answered m).deliver m.txn (m.body.take n, fieldAt m.body n 1 != 0)
  else s.answered m

/-- WRITE: at the home, and its acknowledgement (R395). -/
def State.msgWrite (s : State) (m : Msg) : State :=
  if s.here m.addr then (s.homeWriteBytes none m.addr m.body).reply m 4 [] else s

/-- What an atomic's body asks: operation (12 is compare and swap), width, operand, compared value. -/
def atomAct (body : List Byte) : Option AtomAct :=
  let n := fieldAt body 1 1
  match atomOps[fieldAt body 0 1]? with
  | some o => some (.op o (fieldAt body 8 n))
  | none => if fieldAt body 0 1 = 12 then some (.cas (fieldAt body 16 n) (fieldAt body 8 n)) else none

/-- Some leaf below a table maps a page that holds the address with this place attribute (R255, R310, R311). -/
def State.tableMaps (s : State) (pa ap t : Nat) : List (Nat × Nat × Nat) → Bool
  | [] => false
  | (lv, hi, lo) :: ls => (List.range (2 ^ (hi + 1 - lo))).any fun i =>
    let e := s.homeDword (t + 8 * i)
    pteV e && !s.malformed lv lo e &&
      if pteLeaf e then pteAddr e / 2 ^ lo == pa / 2 ^ lo && pteAp e == ap else s.tableMaps pa ap (pteAddr e) ls

/-- The address lies on a system page of some context (R255). -/
def State.systemPage (s : State) (pa : Nat) : Bool := s.ctxs.any fun c => s.tableMaps pa 2 c.2.root walkLevels

/-- The answer to an atomic. -/
def State.atomicReply (s : State) (m : Msg) (n old : Nat) (bad : Bool) : State :=
  s.reply m 6 (natBytes n old ++ [if bad then 1 else 0])

/-- ATOMIC: one place in the sector's order at the home; uncorrectable data leaves it unperformed (R256, R266). A
host's on a page that is no system page is a plain read here, and a plain write later (R258). -/
def State.msgAtomic (s : State) (m : Msg) : State :=
  let n := fieldAt m.body 1 1
  match atomAct m.body with
  | none => s
  | some act =>
    if !s.here m.addr || !(n == 4 || n == 8) || m.addr % n != 0 then s
    else
      let old := s.homeDword m.addr % 2 ^ (8 * n)
      let new := act.new? n old
      if (s.homeRead (sectorOf m.addr)).2 then s.atomicReply m n old true
      else if m.sh && !s.systemPage m.addr then
        s.modPkg fun p => { p with hostRmw := p.hostRmw ++ [⟨m, old, new⟩] }
      else
        match new with
        | some x => (s.homeWriteBytes none m.addr (natBytes n x)).atomicReply m n old false
        | none => s.atomicReply m n old false

/-- The write of the oldest host atomic that has only read so far (R258). -/
def State.hostWrite (s : State) : State :=
  match s.pkg.hostRmw with
  | [] => s
  | x :: xs =>
    let n := fieldAt x.msg.body 1 1
    let s := s.modPkg fun p => { p with hostRmw := xs }
    match x.new with
    | some v => (s.homeWriteBytes none x.msg.addr (natBytes n v)).atomicReply x.msg n x.old false
    | none => s.atomicReply x.msg n x.old false

/-- The name of a launch between packages: partition and number, for a roll launch those at bale 0's home (R396). -/
def Launch.name (l : Launch) : Nat × Word :=
  match l.roll with
  | some r => r.number
  | none => (l.part, l.num)

/-- The launch that a message names by partition and number, with a swatch of it. -/
def State.launchOf (s : State) (part num : Nat) : Option (Nat × Nat × Swatch) :=
  (s.launches.find? fun l => l.2.name == (part, w32 num)).bind fun l =>
    (s.swatches.find? fun p => p.2.launch == l.1 && p.2.control.isNone).map fun p => (l.1, p.1, p.2)

/-- BARRIER ARRIVAL of a bale at an .rl record: partition, launch number, barrier, bale and count (R325). A
count that fails its check changes nothing and is reported (R228). -/
def State.msgArrival (s : State) (m : Msg) : State :=
  let f := fun i => fieldAt m.body (4 * i) 4
  match s.launchOf (f 0) (f 1) with
  | none => s
  | some (_, sid, sw) =>
    match s.arriveHere sid sw .rl (f 2 % 32) (f 3) (f 4) with
    | .ok s => s
    | .error v => s.post (s.record 0x22 0x0E sw.ctx 0 0 (w32 (0x0E + 256 * (f 2 % 32) + 8192 * 3)) (w32 (f 4)) (w32 v))

/-- WAKE: an .rl record has changed phase: partition, launch number, barrier and phase (R229). -/
def State.msgWake (s : State) (m : Msg) : State :=
  let f := fun i => fieldAt m.body (4 * i) 4
  match s.launchOf (f 0) (f 1) with
  | none => s
  | some (lid, sid, sw) =>
    let n := f 2 % 32
    let r := s.barRec sid sw .rl n
    let s := s.setBar sid sw .rl n { r with phase := f 3, arrived := 0, who := [] }
    (s.clearParts lid .rl 0 n).sendWakes lid .rl 0 n (f 3)

/-- What a message adds to what a member has said: its verdict, or a further piece of its source (log 119). -/
def CollMail.take (x : CollMail) (body : List Byte) : CollMail :=
  if fieldAt body 8 1 = 0 then { x with verdict := some (fieldAt body 9 1, w32 (fieldAt body 10 4)) }
  else { x with data := x.data ++ body.drop 9 }

/-- COLLECTIVE: what a member says of an operation, form and tag with the issue count, is kept for it (R401). -/
def State.msgCollective (s : State) (m : Msg) : State :=
  let key := fieldAt m.body 0 4
  let issue := fieldAt m.body 4 4
  let mine := fun (x : CollMail) => x.key == key && x.issue == issue && x.pkg == m.spkg
  let put := fun (l : List CollMail) =>
    if l.any mine then l.map fun x => if mine x then x.take m.body else x
    else l ++ [CollMail.take ⟨key, issue, m.spkg, none, []⟩ m.body]
  s.modPkg fun p => { p with collMail := put p.collMail }

/-- VERSION CONTROL: a die acknowledges a floor, or becomes a sharer of a region; or a floor reaches a die of this
package, which sets its copy and acknowledges (R335, R338). -/
def State.msgVersion (s : State) (m : Msg) : State :=
  let key := fieldAt m.body 0 4
  let die := s.dieId m.spkg m.sdie
  match fieldAt m.body 4 1 with
  | 0 => s.modRegion key fun r => r.acknowledge die
  | 1 => s.modRegion key fun r => r.join die
  | _ =>
    (s.modRegion key fun r =>
      if r.die < 4 || (awayDie r.die).1 != m.spkg then r
      else { r with floorCopy := r.floorCopy.put m.ddie (max (fieldAt m.body 5 4) (r.floorCopy.getD m.ddie 0)) }).reply
      m 11 (natBytes 4 key ++ [0])

/-- MIGRATION: state for a partition of this package is kept until the transfer ends; a forwarding entry names
the package that takes a number's place (R407, R408). -/
def State.msgMigration (s : State) (m : Msg) : State :=
  s.modPkg fun p =>
    if fieldAt m.body 0 1 = 1 then
      if p.fwd.length < 64 then { p with
        fwd := p.fwd.put m.spkg (fieldAt m.body 1 2)
        collMail := p.collMail.map fun x => if x.pkg = m.spkg then { x with pkg := fieldAt m.body 1 2 } else x }
      else p
    else { p with arrived := p.arrived ++ [m] }

/-- A received message takes effect (R391). -/
def State.receiveMsg (s : State) (m : Msg) : State :=
  match m.mkind with
  | 1 => s.msgRead m
  | 2 => s.msgReadData m
  | 3 => s.msgWrite m
  | 4 => s.answered m
  | 5 => s.msgAtomic m
  | 6 => s.msgAtomicResult m
  | 7 => s.msgArrival m
  | 8 => s.msgWake m
  | 10 => s.msgCollective m
  | 11 => s.msgVersion m
  | 12 => s.msgMigration m
  | _ => s

def execMsgRead (msg : Msg) (s : State) : Out := .next (s.msgRead msg)
def execMsgReadData (msg : Msg) (s : State) : Out := .next (s.msgReadData msg)
def execMsgWrite (msg : Msg) (s : State) : Out := .next (s.msgWrite msg)
def execMsgWriteAck (msg : Msg) (s : State) : Out := .next (s.answered msg)
def execMsgAtomic (msg : Msg) (s : State) : Out := .next (s.msgAtomic msg)
def execMsgAtomicResult (msg : Msg) (s : State) : Out := .next (s.msgAtomicResult msg)
def execMsgBarrierArrival (msg : Msg) (s : State) : Out := .next (s.msgArrival msg)
def execMsgWake (msg : Msg) (s : State) : Out := .next (s.msgWake msg)
def execMsgCollective (msg : Msg) (s : State) : Out := .next (s.msgCollective msg)
def execMsgVersionControl (msg : Msg) (s : State) : Out := .next (s.msgVersion msg)
def execMsgMigration (msg : Msg) (s : State) : Out := .next (s.msgMigration msg)

/-! ## Receiving (R390, R392) -/

/-- Naks for one flit after which the port retrains. -/
def nakLimit : Nat := 16

/-- FLIT_RECEIVE: a flit in order acknowledges, is acknowledged, and its whole messages take effect; any other
is refused. -/
def State.receiveFlit (s : State) (i : Nat) (bs : List Byte) : State :=
  let x := s.pkg.port i
  if !x.carries then s
  else
    match (readFlit bs).filter fun f => f.seq == x.expect with
    | none => s.modPkg fun p => p.modPort i Port.refuse
    | some f =>
      let r := if f.kind = 1 then parseMsgs 8 (x.partial_ ++ f.payload) else ([], x.partial_)
      let drops := r.1.filter fun m => !msgKnown m
      let s := s.modPkg fun p => p.modPort i fun x =>
        drops.foldl (fun x _ => x.countNak) { x.accept f with partial_ := r.2 }
      let s := r.1.foldl State.receiveMsg s
      s.modPkg fun p => if nakLimit ≤ (p.port i).nakRun then p.retrain i else p.answer i

def execFlitReceive (port : Nat) (flit : List Byte) (s : State) : Out := .next (s.receiveFlit port flit)

/-- PORT_RETRAIN: the naks have run to their limit, or a flit has gone 10 µs without an acknowledgement. -/
def execPortRetrain (port : Nat) (s : State) : Out :=
  let x := s.pkg.port port
  .next (if x.carries && (nakLimit ≤ x.nakRun || !x.replay.isEmpty) then s.modPkg fun p => p.retrain port else s)

/-- PORT_TRAINED: the port carries traffic at a generation (1 is generation 2, 2 is generation 3); what is
unacknowledged is sent again. -/
def execPortTrained (port gen : Nat) (s : State) : Out :=
  let x := s.pkg.port port
  .next (if port < 48 && (gen == 1 || gen == 2) && !x.fenced then
    s.modPkg fun p => p.modPort port fun x => { x with up := true, gen := gen, wire := x.wire ++ x.replay }
  else s)

/-- The port that fpsel shows has its count cleared (R394). -/
def State.clearFretry (s : State) (die : Nat) : State :=
  s.modPkg fun p => p.modPort (s.die die).fpsel.toNat fun x => { x with naks := 0 }

def execFretryClear (die : Nat) (s : State) : Out := .next (s.clearFretry die)

end Machine
end Sys2Proof
end

