-- ==== Sys2Proof/Machine/Migration.lean ====
section
/-!
DEFINITION. Live migration of a partition to another package (R405 to R408): the migration registers, what the
sequencer sends, and how what arrives takes its place at the destination.
-/
namespace Sys2Proof
namespace Machine

/-! ## At the source (R405 to R407) -/

/-- The partition that a die's front end serves. -/
def State.servedPart (s : State) (die : Nat) : Option (Nat × Part) :=
  s.parts.find? fun p => dieOfCluster (lowCluster p.2.clusters) == die

/-- The status as far as the source decides it: a core not stopped, an unreachable destination. -/
def State.transferStatus (s : State) (p : Part) (dpkg : Nat) : Nat :=
  if (s.partCores p).any fun c => !(s.core c).stopped then 1
  else if dpkg != s.pkg.fpkg && !s.pkg.reaches dpkg then 2
  else 0

/-- What the sequencer sends of a partition: of its swatches, those the cores hold and those that are not placed; what
the shadow stores hold for another context stays (log 107). -/
def State.transferOf (s : State) (part : Nat) (p : Part) (dpkg dpart status : Nat) : Transfer :=
  let ctxs := s.ctxsOf part
  let mine := fun (w : Word) => ctxs.any fun c => c.1 == w.toNat
  let cores := s.partCores p
  let clus := clustersOf p.clusters
  let keep := status == 0
  { spkg := s.pkg.fpkg, dpkg := dpkg, dpart := dpart, part := part, status := status
    active := if keep then s.outgoing p cores else none, numbers := p.launches, clusters := clus
    cores := if keep then s.cores.filter fun c => cores.contains c.1 else []
    swatches := if keep then s.swatches.filter fun x => mine x.2.ctx && x.2.control.isNone && !x.2.shadowed else []
    launches := if keep then s.launches.filter fun l => l.2.part == part else []
    regions := if keep then s.regions.filter fun r => r.2.part == part else []
    queues := if keep then s.queues.filter fun q => mine q.ctx else []
    graphs := if keep then s.graphs.filter fun g => mine g.2.ctx else []
    finishes := if keep then s.finishes.filter fun f => mine f.ctx else []
    deadlines := if keep then (s.clusters.filter fun c => clus.contains c.1).map fun c =>
      (c.1, c.2.deadlines.filter fun d => mine (w32 d.1)) else []
    colls := if keep then s.dies.map fun d => (d.1, d.2.colls.filter fun c => mine c.ctx) else []
    mail := if keep then s.pkg.collMail else []
    issues := if keep then s.pkg.collIssues.filter fun x => x.1 / 262144 == part else []
    spill := if keep then ctxs.map fun c => (c.1, (c.2.spBase, c.2.spPages)) else [] }

/-- Packages that the lists of its collectives in prepare name (R408). -/
def Transfer.others (t : Transfer) : List Nat :=
  (dedup (t.colls.flatMap fun d => (d.2.filter fun c => c.phase == .prepare).flatMap fun c => c.members)).filter fun m =>
    m != t.spkg

/-- The final transfer starts (R407): the partition's state goes to the destination, and the other members of its
collectives in prepare hear where its number now leads (R408). -/
def State.startTransfer (s : State) (die dpkg dpart : Nat) : State :=
  match s.servedPart die with
  | none => s
  | some (part, p) =>
    let st := s.transferStatus p dpkg
    let t := s.transferOf part p dpkg dpart st
    s.modPkg fun q => { q with
      transfers := q.transfers ++ [t]
      sent := q.sent ++ ⟨dpkg, die, false, q.fpkg, die, false, 12, 0, 0, [0, BitVec.ofNat 8 st] ++ natBytes 4 dpart⟩ ::
        t.others.map fun m => ⟨m, 0, false, q.fpkg, die, false, 12, 0, 0, 1 :: natBytes 2 dpkg⟩ }

def mxferReserved (v : Nat) : Bool := nbits v 30 29 != 0 || nbits v 23 12 != 0

/-- A write of mxfer: go reads 0 (R405). -/
def State.writeMxfer (s : State) (die : Nat) (value : Word) : State :=
  let v := value.toNat
  let s := s.modDie die fun d => { d with mig := { d.mig with xfer := w32 (v % 2 ^ 31) } }
  if v.testBit 31 then s.startTransfer die (v % 4096) (nbits v 28 24) else s

def execMxfer (die : Nat) (value : Word) (s : State) : Out :=
  .next (if mxferReserved value.toNat then s else s.writeMxfer die value)

/-- A write of mctl: the homes of the die mark written pages, or stop (R406). -/
def State.writeMctl (s : State) (die : Nat) (value : Word) : State :=
  s.modDie die fun d => { d with mig := { d.mig with track := value.getLsbD 0 } }

def execMctl (die : Nat) (value : Word) (s : State) : Out :=
  .next (if value.toNat < 2 then s.writeMctl die value else s)

/-! ## At the destination (R407, R408) -/

/-- How what arrives is named here: its packages, partitions and clusters, and what is added to its swatch, launch and
collective numbers. -/
structure Landing where
  spkg : Nat
  own : Nat
  spart : Nat
  part : Nat
  from_ : List Nat
  here : List Nat
  sid : Nat
  launch : Nat
  coll : List Nat                   -- by die
  deriving DecidableEq, Repr

/-- A cluster, by its rank in the partition; a core, by its index (R344); a die, by its first cluster. -/
def Landing.cluster (g : Landing) (c : Nat) : Nat := g.here.getD (g.from_.findIdx fun x => x == c) 0
def Landing.core (g : Landing) (c : Nat) : Nat := 6 * g.cluster (clusterOfCore c) + c % 6
def Landing.die (g : Landing) (d : Nat) : Nat :=
  match g.from_.find? fun c => dieOfCluster c == d with
  | some c => dieOfCluster (g.cluster c)
  | none => d

/-- A frame keeps its die address: bits [59:48] alone change (R407). -/
def Landing.pa (g : Landing) (a : Nat) : Nat := if pkgOf a = g.spkg then a % 2 ^ 48 + g.own * 2 ^ 48 else a

/-- A region's key; a die as a sharer: this package's own dies have the numbers 0 to 3 (`State.dieId`). -/
def Landing.region (g : Landing) (key : Nat) : Nat := if key / 64 = g.spart then 64 * g.part + key % 64 else key
def Landing.sharer (g : Landing) (d : Nat) : Nat := if 4 ≤ d && (awayDie d).1 == g.own then (awayDie d).2 else d
def Landing.collOf (g : Landing) (die id : Nat) : Nat := id + g.coll.getD die 0

def Landing.pin (g : Landing) (p : Pin) : Pin := { p with pa := g.pa p.pa }
def Landing.shape (g : Landing) (r : Shape) : Shape := { r with pins := r.pins.map g.pin }
def Landing.job (g : Landing) (j : Job) : Job :=
  { j with sid := j.sid + g.sid, shape := g.shape j.shape, away := [] }

def Landing.wait (g : Landing) (w : Wait) : Wait :=
  { w with form := match w.form with
    | .version on st pool hashed => .version (on.map fun x => (g.region x.1, x.2)) st pool hashed
    | .quiesce p => .quiesce (if p = g.spart then g.part else p)
    | f => f }

def Landing.flight (g : Landing) (f : Flight) : Flight :=
  { f with kind := match f.kind with
    | .copyJob c n => .copyJob (g.core c) n
    | .collective d id => .collective (g.die d) (g.collOf d id)
    | .floor key => .floor (g.region key)
    | k => k }

/-- A weft repeats its test (R236): its ages begin again, and no classification comes with it. -/
def Landing.weft (g : Landing) (turn : Nat) (w : Weft) : Weft :=
  { w with
    wait := w.wait.map g.wait, barSaved := w.barSaved.map g.wait, flights := w.flights.map g.flight, away := []
    watch := w.watch.map fun x => { x with sector := g.pa x.sector }
    loupe := Loupe.idle, readySince := turn, candSince := turn, runSince := turn, resSince := turn, absentSince := turn }

/-- What a core held stands in the shadow store of the core with its index, until CTXSWAP brings it back. -/
def Landing.place : Landing → SwPlace → SwPlace
  | g, .placed c r => .shadow (g.core c) r
  | _, p => p

/-- A swatch with the descriptors of its jobs, which are reissued under their numbers (R365, R408). -/
def Landing.swatch (g : Landing) (turn sid : Nat) (cores : Tab Core) (sw : Swatch) : Swatch :=
  let jobs : List Job := match sw.place with
    | .placed c _ => (cores.getD c Core.reset).jobs.filter fun j => j.kind != .firmware && j.sid == sid
    | _ => sw.savedJobs
  { sw with
    launch := sw.launch + g.launch, cluster := g.cluster sw.cluster, place := g.place sw.place
    savedJobs := jobs.map g.job, shapes := sw.shapes.map fun r => (r.1, g.shape r.2)
    wefts := sw.wefts.map fun w => (w.1, g.weft turn w.2) }

/-- A roll launch keeps its name; the place of the source in its group is this package's now (R396). -/
def Landing.roll (g : Landing) (r : Roll) : Roll :=
  { r with
    home := if r.home.1 = g.spkg then (g.own, g.die r.home.2) else r.home
    members := r.members.map fun m => if m = (g.spkg, g.spart) then (g.own, g.part) else m }

def Landing.launchRec (g : Landing) (l : Launch) : Launch :=
  { l with
    part := g.part, coreset := l.coreset.map g.cluster, startedOn := dedup (l.startedOn.map g.die)
    node := l.node.map fun x => (x.1 + g.launch, x.2), roll := l.roll.map g.roll, pool := l.pool.map fun t => { t with sid := t.sid + g.sid } }

/-- A region: its directory and pool by their new addresses, its sharers by their numbers here (R342, R407). -/
def Landing.regionRec (g : Landing) (r : Region) : Region :=
  { r with
    part := g.part, dir := g.pa r.dir, pool := g.pa r.pool, sharers := dedup (r.sharers.map g.sharer)
    floorCopy := r.floorCopy.map fun x => (g.sharer x.1, x.2)
    pendFloors := r.pendFloors.map fun f => { f with await := dedup (f.await.map g.sharer), sid := f.sid + g.sid } }

def Landing.queue (g : Landing) (q : QState) : QState :=
  { q with
    reads := []
    held := q.held.map fun h => (h.1, match h.2 with
      | .word pa v => .word (g.pa pa) v
      | x => x) }

def Landing.finish (g : Landing) (f : Finish) : Finish := { f with dadr := f.dadr.map g.pa, page := f.page.map g.pin }

def Landing.deadline (g : Landing) (d : Deadline) : Deadline :=
  { d with owner := d.owner.map fun o => (o.1 + g.sid, o.2) }

/-- A collective: its source's place in the list is this package's now. -/
def Landing.collRec (g : Landing) (die : Nat) (c : Coll) : Coll :=
  { c with
    id := g.collOf die c.id, sid := c.sid + g.sid, pins := c.pins.map g.pin, region := c.region.map g.region, away := []
    members := c.members.map fun m => if m = g.spkg then g.own else m }

/-- The destination partition suits: it is enabled, holds no context, and has as many clusters (R407). -/
def State.suits (s : State) (part : Nat) (t : Transfer) : Bool :=
  match s.parts.get? part with
  | none => false
  | some p =>
    let cores := s.partCores p
    p.active.isNone && (clustersOf p.clusters).length == t.clusters.length &&
      (cores.all fun c => (s.core c).shadow.isNone && (s.onCore c).isEmpty)

def State.landing (s : State) (part : Nat) (p : Part) (t : Transfer) : Landing :=
  { spkg := t.spkg, own := s.pkg.fpkg, spart := t.part, part := part, from_ := t.clusters, here := clustersOf p.clusters
    sid := s.nextSid, launch := s.nextLaunch
    coll := [0, 1, 2, 3].map fun d => (s.die d).collSeq }

/-- Lines cached under the old place of what has moved are dropped (R342). -/
def State.dropLines (s : State) (pkg : Nat) : State :=
  { s with clusters := s.clusters.map fun c => (c.1, { c.2 with
      slice := c.2.slice.filter fun l => !(l.tag == .mem && pkgOf (128 * l.line) == pkg) }) }

/-- The transfer's state takes its place in the partition (R407). -/
def State.install (s : State) (part : Nat) (p : Part) (t : Transfer) : State :=
  let g := s.landing part p t
  let past := fun (l : List Nat) => (l.map fun k => k + 1).foldl max 0
  let s := s.dropLines t.spkg
  let s : State := { s with
    swatches := t.swatches.foldl (fun x y => x.put (y.1 + g.sid) (g.swatch s.turn y.1 t.cores y.2)) s.swatches
    launches := t.launches.foldl (fun x y => x.put (y.1 + g.launch) (g.launchRec y.2)) s.launches
    graphs := t.graphs.foldl (fun x y => x.put (y.1 + g.launch) y.2) s.graphs
    regions := t.regions.foldl (fun x y => x.put (g.region y.1) (g.regionRec y.2)) s.regions
    queues := (s.queues.filter fun q => !t.queues.any fun x => x.ctx == q.ctx && x.q == q.q) ++ t.queues.map g.queue
    finishes := s.finishes ++ t.finishes.map g.finish
    nextSid := s.nextSid + past t.swatches.keys
    nextLaunch := s.nextLaunch + max (past t.launches.keys) (past t.graphs.keys)
    ctxs := t.spill.foldl (fun x y => x.modify y.1 fun c => { c with spBase := g.pa y.2.1, spPages := y.2.2 }) s.ctxs
    parts := s.parts.modify part fun p => { p with launches := t.numbers } }
  let s := (s.partCores p).foldl (fun s c => s.modCore c fun k => { k with shadow := t.active }) s
  let s := t.deadlines.foldl (fun s x => s.modCluster (g.cluster x.1) fun c => { c with
    deadlines := x.2.foldl (fun y d => y.put d.1 (g.deadline d.2)) c.deadlines }) s
  let s := t.colls.foldl (fun s x => s.modDie (g.die x.1) fun d => { d with
    colls := d.colls ++ x.2.map (g.collRec x.1)
    collSeq := max d.collSeq (past (x.2.map fun c => g.collOf x.1 c.id)) }) s
  s.modPkg fun q => { q with
    collMail := q.collMail ++ t.mail.filter fun x => !q.collMail.any fun y => y.key == x.key && y.issue == x.issue && y.pkg == x.pkg
    collIssues := t.issues.foldl (fun y x => y.put (part * 262144 + x.1 % 262144) x.2) q.collIssues }

/-- The status of a transfer at its end: what the sequencer reports, or 3 where the partition does not suit what has
arrived. -/
def State.landStatus (s : State) (die part status : Nat) : Nat :=
  if status % 4 ≠ 0 then status % 4
  else
    match s.pkg.landed.get? die with
    | some t => if s.suits part t then 0 else 3
    | none => 0

/-- MIGRATION_DONE: what has arrived takes its place, the destination's contexts get their record and the host its
interrupt (R407). -/
def State.migrationDone (s : State) (die status : Nat) : State :=
  match s.pkg.arrived.find? fun m => m.ddie == die with
  | none => s
  | some m =>
    let part := fieldAt m.body 2 4
    let st := s.landStatus die part status
    let s := match s.pkg.landed.get? die, s.parts.get? part with
      | some t, some p => if st = 0 then s.install part p t else s
      | _, _ => s
    let s := s.modPkg fun p => { p with
      arrived := p.arrived.filter fun x => x.ddie != die, landed := p.landed.del die }
    (s.ctxsOf part).foldl (fun s c =>
      (s.post (s.record 0x27 st (w32 c.1) (w32 m.spkg) (w32 part) 0 0 0)).interrupt 3 (w32 c.1)) s

def execMigrationDone (die status : Nat) (s : State) : Out := .next (s.migrationDone die status)

end Machine
end Sys2Proof
end

