-- ==== Sys2Proof/Machine/Boot.lean ====
section
/-!
DEFINITION. The package: fencing (R377, R384, R385), errors that are counted (R386, R387), starts and their
reasons (R379, R381 to R383), attestation and the management interfaces (R375, R388).
-/
namespace Sys2Proof
namespace Machine

/-! ## Fencing (R376, R377, R384, R385) -/

/-- Pairs of dies in the order of fd2d. -/
def diePairs : List (Nat × Nat) := [(0, 1), (0, 2), (0, 3), (1, 2), (1, 3), (2, 3)]

/-- The link of two dies is fenced. -/
def linkFenced (mask i j : Nat) : Bool :=
  (List.range 6).any fun k => mask.testBit k && (diePairs[k]? == some (i, j) || diePairs[k]? == some (j, i))

/-- Traffic between two dies has its way: their link, or the lower-numbered of the other two dies. -/
def dieRoute (mask i j : Nat) : Bool :=
  !linkFenced mask i j ||
    match [0, 1, 2, 3].find? fun k => k != i && k != j with
    | some k => !linkFenced mask i k && !linkFenced mask k j
    | none => false

/-- A die with two fenced links that some other die does not reach. -/
def dieCut (mask d : Nat) : Bool :=
  let others := [0, 1, 2, 3].filter fun k => k != d
  2 ≤ (others.filter fun k => linkFenced mask d k).length && others.any fun k => !dieRoute mask d k

/-- Swatches placed in a cluster are saved as by QUIESCE. -/
def State.saveCluster (s : State) (cl : Nat) : State :=
  (s.swatchesOf ((List.range 6).map fun i => 6 * cl + i)).foldl (fun s sid => s.saveSwatch sid true) s

/-- Set a bit of a mask. -/
def setBit (m i : Nat) : Nat := m ||| 2 ^ i

/-- The masks with one unit fenced. -/
def Package.fence (p : Package) (u : FenceUnit) : Package :=
  match u with
  | .core n => { p with fcore := p.fcore.modify (n / 6) fun m => setBit m (n % 6) }
  | .cluster n => { p with fclus := setBit p.fclus n }
  | .memLink d l => { p with flink := p.flink.modify d fun m => setBit m l }
  | .port n => { (p.leavePort n).modPort n (fun x => { x with fenced := true }) with fport := setBit p.fport n }
  | .d2d k => { p with fd2d := setBit p.fd2d k }

/-- The unit stands fenced already, or is none of the package. -/
def Package.fencedAlready (p : Package) (u : FenceUnit) : Bool :=
  match u with
  | .core n => decide (192 ≤ n) || (p.fcore.getD (n / 6) 0).testBit (n % 6)
  | .cluster n => decide (32 ≤ n) || p.fclus.testBit n
  | .memLink d l => decide (4 ≤ d) || decide (24 ≤ l) || (p.flink.getD d 0).testBit l
  | .port n => decide (48 ≤ n) || p.fport.testBit n
  | .d2d k => decide (6 ≤ k) || p.fd2d.testBit k

/-- Every fencing asks for replacement: repl, an alert on the management bus, a fabric interrupt (R385). -/
def State.askReplace (s : State) : State :=
  (s.modPkg fun p => { p with repl := true, alerts := p.alerts + 1 }).interrupt 2 0

/-- One unit is fenced. -/
def State.fenceUnit (s : State) (u : FenceUnit) : State :=
  if s.pkg.fencedAlready u then s
  else
    let s := match u with
      | .cluster n => s.saveCluster n
      | .core n => (s.swatchesOf [n]).foldl (fun s sid => s.saveSwatch sid true) s
      | _ => s
    (s.modPkg fun p => p.fence u).rehouse.askReplace

/-- Clusters and memory links of a die. -/
def dieUnits (d : Nat) : List FenceUnit :=
  ((List.range 8).map fun i => .cluster (8 * d + i)) ++ (List.range 24).map fun l => .memLink d l

def State.fenceDie (s : State) (d : Nat) : State := (dieUnits d).foldl State.fenceUnit s

/-- A unit is fenced, and the dies that a fenced link leaves unreachable with it. -/
def State.fence (s : State) (u : FenceUnit) : State :=
  let s := s.fenceUnit u
  match u with
  | .d2d _ => ([0, 1, 2, 3].filter fun d => dieCut s.pkg.fd2d d).foldl State.fenceDie s
  | _ => s

/-- UNIT_FENCE (R384). -/
def execUnitFence (u : FenceUnit) (s : State) : Out := .next (s.fence u)

/-! ## Corrected errors (R386, R387) -/

/-- CORRECTED_ERROR of a unit code, 1 to 8, in a cluster: counted, saturating; as the count passes the threshold
the cluster's control core gets an event of kind 4. -/
def State.correctedError (s : State) (unit cl : Nat) : State :=
  if unit < 1 || 8 < unit then s
  else
    let old := s.pkg.cecnt.getD (unit - 1) 0
    let new := satInc old (2 ^ 32 - 1)
    let s := s.modPkg fun p => { p with cecnt := p.cecnt.set (unit - 1) new }
    if s.pkg.cethr ≠ 0 && old ≤ s.pkg.cethr && s.pkg.cethr < new then
      s.evPush cl ⟨4, 0, 0, w32 unit, w32 new⟩
    else s

def execCorrectedError (unit cl : Nat) (s : State) : Out := .next (s.correctedError unit cl)

/-- A counter is cleared (R376). -/
def State.clearCecnt (s : State) (unit : Nat) : State :=
  s.modPkg fun p => { p with cecnt := p.cecnt.set (unit - 1) 0 }

def execCecntClear (unit : Nat) (s : State) : Out :=
  .next (if 1 ≤ unit && unit ≤ 8 then s.clearCecnt unit else s)

/-! ## The always-on block (R375, R382) -/

/-- A reason record: code and argument. -/
def reasonWord (code arg : Nat) : Word := w32 (code + 256 * arg)

/-- A reason is shifted into reason0. -/
def Package.pushReason (p : Package) (code arg : Nat) : Package :=
  { p with reasons := reasonWord code arg :: p.reasons.take 7 }

/-- A reset of the package. Standby power, the fuses, the flash, the memory modules' contents, global time and
the model's own scheduling stay (log 17). -/
def State.resetPackage (s : State) : State :=
  { State.reset with
    mem := s.mem, bad := s.bad, tim := s.tim, agenda := s.agenda, turn := s.turn, free := s.free
    nextSid := s.nextSid, nextLaunch := s.nextLaunch
    pkg := { Package.reset with
      fsc := s.pkg.fsc, reasons := s.pkg.reasons, minimal := s.pkg.minimal, repl := s.pkg.repl
      flash := s.pkg.flash, flashVer := s.pkg.flashVer, fusedVer := s.pkg.fusedVer
      vendorKey := s.pkg.vendorKey, seed := s.pkg.seed } }

/-- A start, or the running package, ends in a reset with a reason. -/
def State.failStart (s : State) (code arg : Nat) : State :=
  s.resetPackage.modPkg fun p => p.pushReason code arg

/-- RAIL_FAULT: every clock stops and the package is reset; the reason is 0x08 (R379). -/
def execRailFault (s : State) : Out := .next (s.failStart 0x08 0)

/-- STANDBY_POWER_LOSS: the always-on block forgets (R375). -/
def execStandbyPowerLoss (s : State) : Out :=
  .next (s.modPkg fun p => { p with fsc := 0, reasons := List.replicate 8 0 })

/-- FSC_CLEAR by the board manager (R383, R388). -/
def execFscClear (s : State) : Out := .next (s.modPkg fun p => { p with fsc := 0 })

/-! ## A start (R381 to R383) -/

/-- The unit that a reason record names, for codes 0x03 to 0x06. -/
def reasonUnits (w : Word) : List FenceUnit :=
  let arg := nbits w.toNat 15 8
  match w.toNat % 256 with
  | 3 => [.memLink (arg / 32 % 4) (arg % 32)]
  | 4 => dieUnits (arg % 4)
  | 5 => [.d2d arg]
  | 6 => [.port arg]
  | _ => []

/-- Stage k as the ROM meets it: a read error, a bad signature, or a version below the fused one. -/
def Package.stageFault (p : Package) (rep : StartReport) (k : Nat) : Option Nat :=
  if rep.flashError = some k then some 0x09
  else if rep.signatureBad = some k then some 0x01
  else if p.flashVer.getD k 0 < p.fusedVer.getD k 0 then some 0x02
  else none

/-- Measurement register k is extended with stage k (R381). -/
def Package.extend (p : Package) (k : Nat) (stage : List Byte) : Package :=
  { p with mrs := p.mrs.modify k fun m => Config.shake256 (m ++ Config.shake256 stage 64) 64 }

/-- The stages in order: each is verified, measured and started; the first that fails gives its code and
stage. -/
def State.runStages (rep : StartReport) : List Nat → State → State × Option (Nat × Nat)
  | [], s => (s, none)
  | k :: ks, s =>
    match s.pkg.stageFault rep k with
    | some c => (s, some (c, k))
    | none =>
      let s := s.modPkg fun p => p.extend k (p.flash.getD k [])
      if k != 0 && rep.watchdog == some k then (s, some (0x07, k)) else State.runStages rep ks s

/-- Every cluster of a die is fenced: the start does not try it. -/
def Package.dieOut (p : Package) (d : Nat) : Bool := (List.range 8).all fun i => p.fclus.testBit (8 * d + i)

/-- A unit of this start fails: the first in the order die, pair, memory link, port. A fenced unit is not
tried. -/
def Package.unitFault (p : Package) (rep : StartReport) : Option (Nat × Nat) :=
  let die := (rep.dieFail.filter fun d => !p.dieOut d).map fun d => (0x04, d)
  let pair := (rep.d2dFail.filter fun k => !p.fencedAlready (.d2d k)).map fun k => (0x05, k)
  let link := (rep.linkFail.filter fun x => !p.fencedAlready (.memLink x.1 x.2)).map fun x => (0x03, 32 * x.1 + x.2)
  let port := (rep.portFail.filter fun k => !p.fencedAlready (.port k)).map fun k => (0x06, k)
  ((die.or pair).or link).or port

/-- Everything but die 0, its cluster 0, its memory link 0 and port 0 is fenced (R383). -/
def Package.fenceMinimal (p : Package) : Package :=
  { p with
    fclus := 2 ^ 32 - 2, flink := [2 ^ 24 - 2, 2 ^ 24 - 1, 2 ^ 24 - 1, 2 ^ 24 - 1], fport := 2 ^ 48 - 2
    fd2d := 63
    ports := (List.range 48).foldl (fun t i => if i = 0 then t
      else t.put i { p.port i with fenced := true, up := false }) p.ports }

/-- Links, ports, routes and the package number as this start trains them: what is fenced stays out, and a
module below 1 GiB is not used (R307, R380, R390). -/
def State.train (s : State) (rep : StartReport) (minimal : Bool) : State :=
  let links := rep.links.filter fun x =>
    !s.pkg.fencedAlready (.memLink x.1 x.2.1) && 1 ≤ x.2.2 && x.2.2 ≤ 256
  let ports := rep.ports.filter fun x => !s.pkg.fencedAlready (.port x.1) && (x.2 == 1 || x.2 == 2)
  let s := links.foldl (fun s x => s.modDie x.1 fun d => { d with links := d.links.put x.2.1 x.2.2 }) s
  s.modPkg fun p =>
    { ports.foldl (fun p x => p.modPort x.1 fun y => { y with up := true, gen := if minimal then 1 else x.2 }) p with
      fpkg := rep.pkg % 4096, routes := rep.routes }

/-- The failed-start counter at release. -/
def Package.countStart (p : Package) : Package := { p with fsc := satInc p.fsc 7 }

/-- The units a start fences before training (R382, R383). -/
def State.fenceBefore (s : State) (minimal : Bool) : State :=
  if minimal then (s.modPkg Package.fenceMinimal).askReplace
  else (reasonUnits (s.pkg.reasons.getD 0 0)).foldl State.fence s

/-- RESET_RELEASE: the counter rises, the start fences what failed before, and the stages run; then the units
train. A stage that fails ends in a reset with its reason, and so does a unit of a full start; a unit of
minimal mode that fails leaves the management interfaces alone. -/
def State.release_ (s : State) (rep : StartReport) : State :=
  let s := s.resetPackage.modPkg Package.countStart
  let minimal := decide (3 ≤ s.pkg.fsc)
  let s := s.fenceBefore minimal
  match State.runStages rep [0, 1, 2, 3] s with
  | (s, some (c, k)) => s.failStart c k
  | (s, none) =>
    match s.pkg.unitFault rep with
    | some (c, a) => if minimal then s.modPkg fun p => { p with boot := .failed } else s.failStart c a
    | none => (s.train rep minimal).modPkg fun p => { p with boot := if minimal then .startingMinimal else .starting }

def execResetRelease (rep : StartReport) (s : State) : Out := .next (s.release_ rep)

/-- WATCHDOG_EXPIRY of a stage, 1 to 3: the start fails (R382). -/
def execWatchdogExpiry (stage : Nat) (s : State) : Out :=
  .next (if (s.pkg.boot == .starting || s.pkg.boot == .startingMinimal) && 1 ≤ stage && stage ≤ 3 then s.failStart 0x07 stage else s)

/-- Some unit is fenced. -/
def Package.anyFenced (p : Package) : Bool :=
  p.fclus != 0 || p.fport != 0 || p.fd2d != 0 || (p.flink.any fun m => m != 0) || p.fcore.any fun m => m != 0

/-- The system context of the control cores (R262): id 0, with its tables and its code at physical address 0
(log 4). -/
def controlCtx : Ctx :=
  { part := 32, sys := true, root := 0, code := 0, csize := 2 ^ 32, qtab := 0, nq := 0, ering := 0, elsize := 0
    gen := 0, spBase := 0, spPages := 0, spLo := none, spHi := none, savedSum := 0, savedSat := false
    halted := false }

/-- A cluster's control core: one weft of one lane at its firmware's entry (R262). -/
def State.startControl (s : State) (cl : Nat) : State :=
  let entry := (s.cluster cl).fwEntry
  let w := Weft.init .general entry 0 1 false false 256 192 s.turn none
  let sid := s.nextSid
  let s := s.modCluster cl fun c => { c with deadlines := c.deadlines.put 0 Deadline.empty }
  { s with
    nextSid := sid + 1
    swatches := s.swatches.put sid { Swatch.plain 0 0 with
      control := some cl, cluster := cl, launch := 0, wefts := [(0, { w with place := .slot 0 0, started := true })] } }

/-- START_COMPLETE: every live die's front end has accepted its partition table. A full start clears the counter,
records 0x00, and clears repl if it has fenced nothing; a minimal one sets minimal and repl (R382, R383,
R385). The control cores run. -/
def State.startComplete (s : State) : State :=
  if s.pkg.boot ≠ .starting && s.pkg.boot ≠ .startingMinimal then s
  else
    let s := s.modPkg fun p =>
      if p.boot = .startingMinimal then { p with boot := .minimal, minimal := true, repl := true }
      else { p with boot := .full, minimal := false, fsc := 0, repl := p.repl && p.anyFenced }.pushReason 0x00 0
    let cls := (List.range 32).filter fun c => !s.pkg.fclus.testBit c
    cls.foldl State.startControl { s with ctxs := s.ctxs.put 0 controlCtx }

def execStartComplete (s : State) : Out := .next s.startComplete

/-! ## Attestation and management (R376, R381, R388) -/

/-- pkstat (R376). -/
def Package.pkstat (p : Package) : Word :=
  w32 ((if p.repl then 2 ^ 31 else 0) + (if p.minimal then 2 ^ 30 else 0) + p.fsc % 8 * 2 ^ 27)

/-- A report: the eight registers, the nonce and pkstat, signed under the identity key (R381). -/
def Package.report (p : Package) (nonce : List Byte) : List Byte :=
  let body := p.mrs.flatMap (fun m => m) ++ nonce ++ wordBytes p.pkstat
  body ++ Config.slhSign (Config.identityKey p.seed) body

def execAttestationReport (nonce : List Byte) (s : State) : Out :=
  .next (s.modPkg fun p => { p with reports := p.reports ++ [p.report nonce] })

/-- The board manager writes plimit (R388); a value R376 does not admit is not taken. -/
def State.boardLimit (s : State) (w : Nat) : State :=
  if 800 ≤ w && w ≤ 1500 then s.modPkg fun p => { p with plimit := w } else s

/-- A signed debug policy opens JTAG: register 7 is extended with its digest first (R388). -/
def State.openDebug (s : State) (digest : List Byte) : State :=
  s.modPkg fun p => { p with mrs := p.mrs.modify 7 fun m => Config.shake256 (m ++ digest) 64 }

/-! ## griudb and the watch set -/

/-- GRIUDB_RESUME: the context continues with the same entry (R155). -/
def execGriudbResume (ctx : Word) (s : State) : Out :=
  .next (s.modPkg fun p => { p with stoppedCtx := p.stoppedCtx.filter fun c => c != ctx })

/-- WATCH_FIRE: a write to a sector has taken its place (R259). -/
def execWatchFire (sector : Nat) (s : State) : Out := .next (s.fireWatches sector)

/-! ## Writes on their way (R248, R318, R319) -/

def execWriteBufferDrain (core sector : Nat) (s : State) : Out := .next (s.drainEntry core sector)

def execRemoteWrite (die : Nat) (s : State) : Out := .next (s.remoteWrite die)

/-- UPDATE_APPLY: one notice that may be applied. -/
def State.updateApply (s : State) (d ix : Nat) : State :=
  match (s.die d).notices[ix]? with
  | some n =>
    if (s.die d).mayApply n then
      s.modDie d fun x => ({ x with notices := x.notices.take ix ++ x.notices.drop (ix + 1) } : Die).apply n
    else s
  | none => s

def execUpdateApply (die ix : Nat) (s : State) : Out := .next (s.updateApply die ix)

end Machine
end Sys2Proof
end

