-- ==== Sys2Proof/Machine/Csr.lean ====
section
/-!
DEFINITION. The control and status registers (R32): the trap record (R115), weft control (R47, R113), deadlines
and power (R264, R265, R295), counters (R107, R242), spill areas (R235), the die front end (R309, R344, R394,
R405) and management (R376); CSRR, CSRW, and the writes that are events of their own.
-/
namespace Sys2Proof
namespace Machine

/-- What a write comes to. -/
inductive CsrOut
  | ok (s : State)
  | illegal
  | stall

/-! ## The weft's own registers -/

/-- Bits as a number, bit 0 first. -/
def bitsNat : List Bool → Nat
  | [] => 0
  | b :: bs => (if b then 1 else 0) + 2 * bitsNat bs

def TrapRec.read (r : TrapRec) (n : Nat) : Word :=
  if 0x010 ≤ n then r.tscr.getD (n - 0x010) 0
  else
    match n with
    | 0 => r.tcause
    | 1 => r.tpc
    | 2 => r.tlanes
    | 3 => r.tdone
    | 4 => loWord r.taddr
    | 5 => hiWord r.taddr
    | 6 => r.tinfo
    | 7 => w32 (16 * r.twinS + r.twinV)
    | 8 => r.tfst.setWidth 32
    | _ => w32 r.snap.length

/-- Window bases of R25: vbase/16 at most 12, sbase/16 at most 9. -/
def windowsOk (v s : Nat) : Bool := v ≤ 12 && s ≤ 9

/-- A write of a writable field of the trap record; none where R115 makes it illegal. -/
def TrapRec.write (r : TrapRec) (n : Nat) (x : Word) : Option TrapRec :=
  if 0x010 ≤ n then some { r with tscr := r.tscr.store (n - 0x010) x 0 }
  else if n = 0x007 then
    if x.toNat / 256 = 0 && windowsOk (x.toNat % 16) (x.toNat / 16) then
      some { r with twinV := x.toNat % 16, twinS := x.toNat / 16 }
    else none
  else if n = 0x008 then
    if x.toNat / 64 = 0 then some { r with tfst := x.setWidth 6 } else none
  else none

/-- wctl, wstat, wbud, walloc, fstat (R47, R113). -/
def Weft.csrRead (w : Weft) (n : Nat) : Word :=
  match n with
  | 0x020 => w32 (bitsNat [w.ctlfrt, w.hangen])
  | 0x021 => w32 (bitsNat [w.frd, w.hng])
  | 0x022 => w32 (w.sbud * 65536 + w.vbud)
  | 0x023 => w32 (w.salloc * 65536 + w.valloc)
  | _ => w.fstat.setWidth 32

def Weft.csrWrite (w : Weft) (n : Nat) (x : Word) : Option Weft :=
  if n = 0x028 then if x.toNat / 64 = 0 then some { w with fstat := x.setWidth 6 } else none
  else if x.toNat / 4 ≠ 0 then none
  else if n = 0x020 then some { w with ctlfrt := x.getLsbD 0, hangen := x.getLsbD 1 }
  else some { w with frd := x.getLsbD 0, hng := x.getLsbD 1 }

/-- Half of a 64-bit value: the low word for an even register. -/
def halfWord (n : Nat) (x : Nat) : Word := if n % 2 = 0 then w32 x else w32 (x / 2 ^ 32)

/-- slip, dstall and rot (R107, R242). -/
def Weft.counterRead (w : Weft) (n : Nat) : Word :=
  halfWord n (if n < 0x042 then w.slip else if n < 0x044 then w.dstall else w.rot)

/-! ## Deadlines and power (R264, R265, R295) -/

def State.deadlineRead (s : State) (k : Site) (n : Nat) : Word :=
  let c := s.cluster k.clu
  let d := (c.deadlines.get? k.sw.ctx.toNat).getD Deadline.empty
  match n with
  | 0x030 => w32 (bitsNat [d.opened, d.risk])
  | 0x031 => d.n
  | 0x032 => halfWord n d.due
  | 0x033 => halfWord n d.due
  | 0x034 => halfWord n d.work
  | 0x035 => halfWord n d.work
  | 0x036 => halfWord n d.issues
  | 0x037 => halfWord n d.issues
  | _ => w32 (s.fcap c * 65536 + c.fcur)

/-- The event queue's head record and status (R263, R264). -/
def Cluster.eventRead (c : Cluster) (n : Nat) : Word :=
  match n, c.evq with
  | 0x2F0, r :: _ => w32 (r.arg * 65536 + r.kind)
  | 0x2F1, r :: _ => r.ctx
  | 0x2F2, r :: _ => r.data0
  | 0x2F3, r :: _ => r.data1
  | 0x2F5, q => w32 ((if c.evOvf then 2 ^ 31 else 0) + c.evLost * 65536 + q.length)
  | _, _ => 0

def State.clusterRead (s : State) (cl n : Nat) : Word :=
  let c := s.cluster cl
  if n < 0x210 then w32 (c.weight (n - 0x200))
  else if 0x220 ≤ n && n ≤ 0x276 then c.vf.getD (n - 0x220) 0
  else if 0x2F0 ≤ n then c.eventRead n
  else
    match n with
    | 0x210 => c.enstatic
    | 0x211 => w32 c.fdefault
    | 0x212 => w32 (s.fcap c)
    | 0x213 => w32 (bitsNat [c.gateEn])
    | 0x214 => halfWord n c.unattr
    | 0x215 => halfWord n c.unattr
    | 0x2E0 => loWord c.cpSrc
    | 0x2E1 => hiWord c.cpSrc
    | 0x2E2 => loWord c.cpDst
    | 0x2E3 => hiWord c.cpDst
    | 0x2E4 => c.cpLen
    | 0x2E5 => c.cpCore
    | _ => c.cpJob

/-- A frequency that R295 admits. -/
def freqOk (f : Nat) : Bool := f % 25 == 0 && 300 ≤ f && f ≤ 2450

/-- A pair's low or high word replaced. -/
def setHalf (n : Nat) (old : DWord) (x : Word) : DWord :=
  if n % 2 = 0 then concat64 (hiWord old) x else concat64 x (loWord old)

/-- Writes of the power registers; none where R295 makes them illegal. Read-only fields ignore a write; the voltage
follows the table's value of the current step (R275). -/
def Cluster.powerWrite (c : Cluster) (n : Nat) (x : Word) : Option Cluster :=
  let v := x.toNat
  if n < 0x210 then
    if v < 65536 then some { c with weights := c.weights.put (n - 0x200) v } else none
  else if 0x220 ≤ n && n ≤ 0x276 then
    if v < 65536 then some { c with
      vf := c.vf.store (n - 0x220) x 0, volt := if n - 0x220 = (c.fcur - 300) / 25 then v else c.volt } else none
  else
    match n with
    | 0x210 => some { c with enstatic := x }
    | 0x211 => if freqOk v then some { c with fdefault := v } else none
    | 0x212 => if freqOk v then some { c with fsw := v } else none
    | 0x213 => if v < 2 then some { c with gateEn := x.getLsbD 0 } else none
    | 0x2E0 => some { c with cpSrc := setHalf n c.cpSrc x }
    | 0x2E1 => some { c with cpSrc := setHalf n c.cpSrc x }
    | 0x2E2 => some { c with cpDst := setHalf n c.cpDst x }
    | 0x2E3 => some { c with cpDst := setHalf n c.cpDst x }
    | 0x2E4 => some { c with cpLen := x }
    | 0x2E5 => if v < 8 then some { c with cpCore := x } else none
    | _ => some c

/-- The head record leaves the event queue (R264); a completed firmware job may then post its own. -/
def State.evPop (s : State) (cl : Nat) : State := s.modCluster cl fun c => { c with evq := c.evq.drop 1 }

/-- ovf and lost are cleared. -/
def State.evClear (s : State) (cl : Nat) : State :=
  s.modCluster cl fun c => { c with evOvf := false, evLost := 0 }

def execEvpop (cl : Nat) (s : State) : Out := .next (s.evPop cl)
def execEvqStatusClear (cl : Nat) (s : State) : Out := .next (s.evClear cl)

/-- A physical address of the firmware copy interface. -/
def copyAddrOk (a : DWord) : Bool := a.toNat % 32 == 0 && a.toNat / 2 ^ 60 == 0

/-- The checks of a submission (R265). -/
def State.copyOk (s : State) (cl : Nat) : Bool :=
  let c := s.cluster cl
  let n := c.cpLen.toNat
  copyAddrOk c.cpSrc && copyAddrOk c.cpDst && n != 0 && n % 32 == 0 && decide (c.cpCore.toNat ≤ 5) &&
    !s.pkg.fclus.testBit cl && !(s.pkg.fcore.getD cl 0).testBit c.cpCore.toNat &&
    !spansMeet c.cpSrc.toNat n c.cpDst.toNat n

/-- The firmware's job (R265). -/
def firmwareJob (num sid src dst bytes : Nat) : Job :=
  { num := num, sid := sid, kind := .firmware, ring := false, record := 0
    shape := { base := 0, wr := true, coded := false, described := false, ndim := 1, esz := 0, ext := [], str := []
               tile := [], sbase := 0, slen := 0, table := none, pins := [] }
    org := [], rows := [], spad := 0, bytes := bytes, src := src, dst := dst, begun := false, lines := 0, pos := 0
    err := 0, badDesc := (0, 0), away := [], owner := 0 }

/-- The control core's swatch of a cluster. -/
def State.controlSid (s : State) (cl : Nat) : Nat :=
  ((s.swatches.find? fun p => p.2.control == some cl).map fun p => p.1).getD 0

/-- cpgo: a job enters the named core's engine; with no free place the write stalls (R168, R265). -/
def State.copyGo (s : State) (cl : Nat) : CsrOut :=
  if !s.copyOk cl then .illegal
  else
    let c := s.cluster cl
    let core := 6 * cl + c.cpCore.toNat
    let k := s.core core
    if Config.jobPlaces ≤ k.jobs.length then .stall
    else
      let s := s.modCore core fun k => { k with
        jobs := k.jobs ++ [firmwareJob k.fwJobs (s.controlSid cl) c.cpSrc.toNat c.cpDst.toNat c.cpLen.toNat]
        fwJobs := (k.fwJobs + 1) % 2 ^ 32 }
      .ok (s.modCluster cl fun c => { c with cpJob := w32 k.fwJobs, idleTicks := 0 })

/-- CPGO from outside: a write that is refused or finds no place changes nothing. -/
def execCpgo (cl : Nat) (s : State) : Out :=
  .next (match s.copyGo cl with
    | .ok s => s
    | _ => s)

/-! ## Spill areas (R235) -/

/-- The front end of the issuing weft: its partition's, or its die's for a control core. -/
def State.frontOf (s : State) (k : Site) : Nat :=
  match k.sw.control with
  | some _ => k.die
  | none => s.frontDie k.sw.ctx

/-- The context that spctx names, if this front end serves it. -/
def State.spillCtx (s : State) (die : Nat) : Option (Word × Ctx) :=
  let w := (s.die die).spctx
  ((s.ctx? w).filter fun _ => s.frontDie w == die).map fun c => (w, c)

def Ctx.spillRead (c : Ctx) (n : Nat) : Word :=
  match n with
  | 0x120 => c.spLo.getD (w32 c.spBase)
  | 0x121 => c.spHi.getD (w32 (c.spBase / 2 ^ 32))
  | _ => w32 c.spPages

def State.spillRead (s : State) (die n : Nat) : Word :=
  if n = 0x123 then (s.die die).spctx
  else
    match s.spillCtx die with
    | some (_, c) => c.spillRead n
    | none => 0

/-- spsize commits the setting, and the bags that found no room look again. -/
def Ctx.commitSpill (c : Ctx) (pages : Word) : Ctx :=
  { c with
    spBase := (c.spillRead 0x121).toNat * 2 ^ 32 + (c.spillRead 0x120).toNat, spPages := pages.toNat
    spLo := none, spHi := none }

def State.commitSpill (s : State) (ctx pages : Word) : State :=
  let s := s.modCtx ctx fun c => c.commitSpill pages
  { s with cores := s.cores.map fun p => (p.1, { p.2 with spillBlocked := false }) }

def State.spillWrite (s : State) (die n : Nat) (x : Word) : CsrOut :=
  if n = 0x123 then .ok (s.modDie die fun d => { d with spctx := x })
  else
    match s.spillCtx die with
    | none => .illegal
    | some (w, _) =>
      match n with
      | 0x120 => if x.toNat % 65536 = 0 then .ok (s.modCtx w fun c => { c with spLo := some x }) else .illegal
      | 0x121 => if x.toNat / 2 ^ 28 = 0 then .ok (s.modCtx w fun c => { c with spHi := some x }) else .illegal
      | _ => .ok (s.commitSpill w x)

/-- SPSIZE: a write of spsize at a die's front end. -/
def execSpsize (die : Nat) (pages : Word) (s : State) : Out :=
  .next (match s.spillWrite die 0x122 pages with
    | .ok s => s
    | _ => s)

/-! ## The die front end (R309, R344, R394, R405) -/

/-- The interleave set as a mask. -/
def Die.linkMask (d : Die) : Nat := d.links.foldl (fun m p => setBit m p.1) 0

def Port.status (p : Port) : Word :=
  w32 (p.retrains * 65536 + (if p.fenced then 8 else 0) + (if p.up then 4 else 0) + p.gen % 4)

def State.dieRead (s : State) (die n : Nat) : Word :=
  let d := s.die die
  match n with
  | 0x300 => d.ptabLo
  | 0x301 => d.ptabHi
  | 0x310 => w32 s.pkg.fpkg
  | 0x311 => d.fhost
  | 0x31C => d.fpsel
  | 0x31D => (s.pkg.port d.fpsel.toNat).status
  | 0x31E => w32 (s.pkg.port d.fpsel.toNat).naks
  | 0x320 => w32 (bitsNat [d.mig.track])
  | 0x321 => loWord d.mig.bmap
  | 0x322 => hiWord d.mig.bmap
  | 0x323 => d.mig.base
  | 0x324 => d.mig.pages
  | 0x325 => d.mig.xfer
  | 0x3E0 => w32 d.linkMask
  | 0x3E1 => w32 (d.populated / 65536)
  | _ => w32 (d.sidecar / 65536)

/-- A migration register. -/
def State.setMig (s : State) (die : Nat) (f : Migration → Migration) : CsrOut :=
  .ok (s.modDie die fun d => { d with mig := f d.mig })

def State.dieWrite (s : State) (die n : Nat) (x : Word) : CsrOut :=
  let v := x.toNat
  match n with
  | 0x300 => if v % 2048 = 0 then .ok (s.readTable die x) else .illegal
  | 0x301 => if v / 2 ^ 28 = 0 then .ok (s.modDie die fun d => { d with ptabHi := x }) else .illegal
  | 0x311 => if v < 256 then .ok (s.modDie die fun d => { d with fhost := x }) else .illegal
  | 0x31C => if v < 48 then .ok (s.modDie die fun d => { d with fpsel := x }) else .illegal
  | 0x31E => if v = 0 then .ok (s.clearFretry die) else .illegal
  | 0x320 => if v < 2 then .ok (s.writeMctl die x) else .illegal
  | 0x321 => if v % 4096 = 0 then s.setMig die fun m => { m with bmap := setHalf 0 m.bmap x } else .illegal
  | 0x322 => if v / 2 ^ 28 = 0 then s.setMig die fun m => { m with bmap := setHalf 1 m.bmap x } else .illegal
  | 0x323 => if v / 2 ^ 30 = 0 then s.setMig die fun m => { m with base := x } else .illegal
  | 0x324 => s.setMig die fun m => { m with pages := x }
  | 0x325 => if mxferReserved v then .illegal else .ok (s.writeMxfer die x)
  | _ => .illegal

/-! ## Management (R376) -/

/-- Cores that no mask fences. -/
def Package.liveCores (p : Package) : Nat :=
  ((List.range 192).filter fun c => !p.fclus.testBit (c / 6) && !(p.fcore.getD (c / 6) 0).testBit (c % 6)).length

def Package.read (p : Package) (n : Nat) : Word :=
  if n = 0x400 then p.pkstat
  else if n ≤ 0x408 then p.reasons.getD (n - 0x401) 0
  else if n = 0x410 then w32 p.fclus
  else if n ≤ 0x414 then w32 (p.flink.getD (n - 0x411) 0)
  else if 0x440 ≤ n then w32 (p.fcore.getD (n - 0x440) 0)
  else if 0x430 ≤ n && n ≤ 0x437 then w32 (p.cecnt.getD (n - 0x430) 0)
  else
    match n with
    | 0x415 => w32 p.fport
    | 0x416 => w32 (p.fport / 2 ^ 32)
    | 0x417 => w32 p.fd2d
    | 0x418 => w32 p.liveCores
    | 0x420 => w32 p.plimit
    | 0x421 => w32 p.ppower
    | _ => w32 p.cethr

/-- A write of fd2d, whose mask R376 does not call read-only: the links, and the dies that they cut off (R377,
log 95). -/
def State.linkMaskWrite (s : State) (v : Nat) : State :=
  let s := s.modPkg fun p => { p with fd2d := v }
  ([0, 1, 2, 3].filter fun d => dieCut v d).foldl State.fenceDie s

def State.managementWrite (s : State) (n : Nat) (x : Word) : CsrOut :=
  let v := x.toNat
  if n = 0x420 then
    if 800 ≤ v && v ≤ 1500 then .ok (s.modPkg fun p => { p with plimit := v }) else .illegal
  else if n = 0x438 then .ok (s.modPkg fun p => { p with cethr := v })
  else if n = 0x417 then
    if v < 64 then .ok (s.linkMaskWrite v) else .illegal
  else if 0x430 ≤ n && n ≤ 0x437 then
    if v = 0 then .ok (s.clearCecnt (n - 0x42F)) else .illegal
  else .illegal

/-! ## CSRR and CSRW (R32) -/

/-- The value of a register that R32 lets the weft read. -/
def State.csrRead (s : State) (k : Site) (n : Nat) : Word :=
  if n < 0x020 then k.w.trec.read n
  else if n < 0x030 then k.w.csrRead n
  else if n < 0x040 then s.deadlineRead k n
  else if n < 0x080 then k.w.counterRead n
  else if n < 0x200 then s.spillRead (s.frontOf k) n
  else if n < 0x300 then s.clusterRead k.clu n
  else if n < 0x400 then s.dieRead k.die n
  else s.pkg.read n

/-- The weft with one of its registers written. -/
def Site.weftWrite (k : Site) (s : State) (w : Option Weft) : CsrOut :=
  match w with
  | some w => .ok (s.modWeft k.sid k.wid fun _ => w)
  | none => .illegal

/-- A write of a cluster register. -/
def State.clusterWrite (s : State) (cl n : Nat) (x : Word) : CsrOut :=
  match n with
  | 0x2E6 => if x = 0 then s.copyGo cl else .illegal
  | 0x2F4 => if x = 0 then .ok (s.evPop cl) else .illegal
  | 0x2F5 => if x = 0 then .ok (s.evClear cl) else .illegal
  | _ =>
    match (s.cluster cl).powerWrite n x with
    | some c => .ok (s.modCluster cl fun _ => c)
    | none => .illegal

/-- A write of a register that R32 lets the weft write: illegal where the value is. -/
def State.csrWrite (s : State) (k : Site) (w : Weft) (n : Nat) (x : Word) : CsrOut :=
  if n < 0x020 then k.weftWrite s ((w.trec.write n x).map fun r => { w with trec := r })
  else if n < 0x030 then k.weftWrite s (w.csrWrite n x)
  else if n < 0x200 then s.spillWrite (s.frontOf k) n x
  else if n < 0x300 then s.clusterWrite k.clu n x
  else if n < 0x400 then s.dieWrite k.die n x
  else s.managementWrite n x

def execCsrr (d : Dst) (c : BitVec 12) (s : State) : Out :=
  s.issue (.csrr d c) fun k s =>
    let x := s.csrRead k c.toNat
    k.alu s d 1 fun _ => ([x], 0)

/-- CSRW reads a scalar; a value that a register refuses is an illegal instruction and changes nothing. Its trap ranks
with the entry's own, after the privilege, role and register traps of R35 (the model's choice, log 112). -/
def execCsrw (d : CSrc) (c : BitVec 12) (s : State) : Out :=
  s.issue (.csrw d c) fun k s =>
    match s.csrWrite k ((s.weft? k.sid k.wid).getD k.w) c.toNat (k.scalar d.toSrc) with
    | .ok s => .done s
    | .illegal => .trap s (mkTrap 0x01 k.act (w32 (Instr.csrw d c).wordNat))
    | .stall => .stall s

end Machine
end Sys2Proof
end

