-- ==== Sys2Proof/Machine/Enlarger.lean ====
section
/-!
DEFINITION. The enlarger (R205 to R226): block values, narrow and complex exposures, the dual state, HAD,
and loading, draining and clearing of tiles. What an instruction does to tiles and slots stands from its
issue on, in the order of issue (R214); its flag, its registers and its scratchpad writes follow at
completion.
-/
namespace Sys2Proof

/-- R211: bytes from one row of a tile to the next. -/
def AccldMode.stride : AccldMode → Nat
  | .f32 => 256
  | .bf16 => 128
  | .desc => 64

end Sys2Proof

namespace Sys2Proof.Machine

/-! ## Elements of a described block (R68 to R72) -/

def descFmt (d : Word) : Nat := d.toNat % 256

/-- Formats of 4 bits (R70). -/
def fmtNarrow (f : Nat) : Bool := f == 3 || f == 6 || f == 7

def descScale (d : Word) : Fp := fp16.unpack (d.toNat / 65536)

/-- The signed value of an n-bit integer code. -/
def signedCode (n x : Nat) : Int := if 2 ^ (n - 1) ≤ x then (x : Int) - (2 ^ n : Nat) else x

/-- The product with a finite positive scale. -/
def scaled (x scale : Fp) : Fp := (x.mul scale).getD x

/-- An integer as a datum. -/
def Fp.ofInt (t : Int) : Fp := .fin (decide (t < 0)) t.natAbs 0

/-- The exact value of an element code under its descriptor (R72). -/
def elemValue (d : Word) (q : Nat) : Fp :=
  let zp := d.toNat / 256 % 256
  let v : Fp := match descFmt d with
    | 1 => e4m3.unpack q
    | 2 => e5m2.unpack q
    | 3 => e2m1.unpack q
    | 4 => Fp.ofInt (signedCode 8 q - signedCode 8 zp)
    | 5 => Fp.ofInt ((q : Int) - (zp : Int))
    | 6 => Fp.ofInt (signedCode 4 q - signedCode 4 (zp % 16))
    | _ => Fp.ofInt ((q : Int) - ((zp % 16 : Nat) : Int))
  scaled v (descScale d)

/-- The elements of a block in order (R68). -/
def blockValues (d : Word) (bs : List Byte) : List Fp :=
  if fmtNarrow (descFmt d) then
    bs.flatMap fun b => [elemValue d (b.toNat % 16), elemValue d (b.toNat / 16)]
  else bs.map fun b => elemValue d b.toNat

/-- The 128 elements of a column or row of 128 bytes with its two descriptors (R207). -/
def stripValues (d0 d1 : Word) (bs : List Byte) : List Fp :=
  if fmtNarrow (descFmt d0) then blockValues d0 (bs.take 64)
  else blockValues d0 (bs.take 64) ++ blockValues d1 (bs.drop 64)

/-- The first block of a strip that raises the descriptor trap: its place, 0 or 1 (R207). -/
def stripFault (d0 d1 : Word) : Option Nat :=
  if !descNumeric d0 then some 0
  else if fmtNarrow (descFmt d0) then none
  else if !descNumeric d1 || fmtNarrow (descFmt d1) then some 1
  else none

/-! ## Contributions (R208, R209, R211) -/

/-- The exact sum of finite values over a common exponent. -/
def sumFin (l : List Fp) : Int × Int :=
  l.foldl (fun t x => match x with
    | .fin n m e => exactSum (decide (t.1 < 0)) t.1.natAbs t.2 n m e
    | _ => t) (0, 0)

/-- A result of R209 for a list of products: the special cases in order, else one rounding. -/
def sumProducts (ps : List Fp) : FRes :=
  let pos := ps.any fun p => p == .inf false
  let neg := ps.any fun p => p == .inf true
  if pos && neg then fp32.nanRes true
  else if pos then (fp32.infBits, 0)
  else if neg then (fp32.signed true fp32.infBits, 0)
  else
    let t := sumFin ps
    Fmt.res (fp32.roundInt .rn t.1 t.2 (!ps.isEmpty && ps.all fun p => p.isNeg))

/-- Products of two lists; `none` when some element is a NaN, else whether some product is an infinity times
zero. -/
def products (a b : List Fp) : Option (List Fp × Bool) :=
  if a.any Fp.isNan || b.any Fp.isNan then none
  else
    let ps := a.zipWith Fp.mul b
    some (ps.filterMap id, ps.any Option.isNone)

/-- The contribution of one segment (R209). -/
def contribution (a b : List Fp) : FRes :=
  match products a b with
  | none => fp32.nanRes false
  | some (ps, bad) => if bad then fp32.nanRes true else sumProducts ps

/-- floor(log2|p|) of a finite non-zero value. -/
def Fp.exponent2 : Fp → Option Int
  | .fin _ m e => if m = 0 then none else some (e + Nat.log2 m)
  | _ => none

def Fp.isInf : Fp → Bool
  | .inf _ => true
  | _ => false

/-- A block sum of R211: the result with its bits, and whether a product was dropped. -/
def blockSum (a b : List Fp) : FRes × Bool :=
  match products a b with
  | none => (fp32.nanRes false, false)
  | some (ps, bad) =>
    if bad then (fp32.nanRes true, false)
    else
      let es := ps.filterMap Fp.exponent2
      let top := es.foldl max (es.headD 0)
      let keep := ps.filter fun p => match p.exponent2 with
        | some e => decide (top - 60 ≤ e)
        | none => true
      (sumProducts keep, keep.length != ps.length && !ps.any Fp.isInf)

/-! ## Tiles -/

def Tile.word (t : Tile) (row col : Nat) : Nat := (t.words.getD (64 * row + col) 0).toNat
def Tile.setWord (t : Tile) (row col x : Nat) : Tile :=
  { t with words := t.words.store (64 * row + col) (w32 x) 0 }

/-- Sticky bits of R206 from the bits of a rounding. -/
def Tile.note (t : Tile) (f : FBits) : Tile :=
  { t with nx := t.nx || f &&& fNx != 0, uf := t.uf || f &&& fUf != 0, ofl := t.ofl || f &&& fOf != 0
           nv := t.nv || f &&& fNv != 0 }

def bitIf (b : Bool) (n : Nat) : Nat := if b then 2 ^ n else 0

/-- The tile status word (R206). -/
def Tile.status (t : Tile) : Word :=
  w32 (bitIf t.nx 0 + bitIf t.uf 1 + bitIf t.ofl 2 + bitIf t.nv 3 + bitIf t.lost 4 + bitIf t.poison 5 +
    bitIf t.dual 6)

/-- A contribution enters a word: a NaN from two operands that are none sets nv (R209). -/
def Tile.accumulate (t : Tile) (row col : Nat) (c : FRes) : Tile :=
  let old := t.word row col
  let r := fp32.add .rn old c.1
  let bits := if (fp32.unpack old).isNan || (fp32.unpack c.1).isNan then r.2 &&& ~~~fNv else r.2
  (t.setWord row col r.1).note (c.2 ||| bits)

/-- One row of a narrow exposure (R208). -/
def Tile.exposeRow (t : Tile) (row : Nat) (a : List Fp) (cols : List (List Fp)) : Tile :=
  (cols.zip (List.range 64)).foldl (fun t c =>
    [0, 64].foldl (fun t k =>
      t.accumulate row c.2 (contribution ((a.drop k).take 64) ((c.1.drop k).take 64))) t) t

/-- A block sum enters one part of a compensated accumulator (R98, R211). -/
def Tile.accumulatePart (t : Tile) (row col : Nat) (x : FRes × Bool) : Tile :=
  let r := compAdd (t.word row col) (t.word row (col + 1)) x.1.1
  let t := ((t.setWord row col r.1).setWord row (col + 1) r.2.1).note (x.1.2 ||| r.2.2)
  { t with lost := t.lost || x.2 }

/-- A complex FP32 value of stored bytes. -/
def complexAt (m : Tab Byte) (a : Nat) : Fp × Fp :=
  (fp32.unpack (leNat (memBytes m a 4)), fp32.unpack (leNat (memBytes m (a + 4) 4)))

/-- One element of a complex exposure: eight values of A and of B a block, ascending (R211). -/
def Tile.exposeComplex (t : Tile) (row n : Nat) (a b : List (Fp × Fp)) : Tile :=
  [0, 8, 16, 24].foldl (fun t k =>
    let x := (a.drop k).take 8
    let y := (b.drop k).take 8
    let re := blockSum ((x.map fun p => p.1) ++ x.map fun p => p.2.negate)
      ((y.map fun p => p.1) ++ y.map fun p => p.2)
    let im := blockSum ((x.map fun p => p.1) ++ x.map fun p => p.2)
      ((y.map fun p => p.2) ++ y.map fun p => p.1)
    (t.accumulatePart row (4 * (n % 16)) re).accumulatePart row (4 * (n % 16) + 2) im) t

/-! ## Selectors and checks (R212, R213, R218) -/

/-- What an instruction uses of its selector. -/
structure Sel where
  tile : Bool
  slot : Bool
  grp : Bool
  write : Bool
  deriving DecidableEq, Repr

def selTile (v : Word) : Nat := v.toNat % 128
def selSlot (v : Word) : Nat := nbits v.toNat 11 8
def selGrp (v : Word) : Nat := nbits v.toNat 14 12

/-- Reserved and unused fields are zero. -/
def Sel.ok (u : Sel) (v : Word) : Bool :=
  v.toNat / 2 ^ 15 == 0 && !v.toNat.testBit 7 && (u.tile || selTile v == 0) && (u.slot || selSlot v == 0) &&
    (u.grp || selGrp v == 0)

/-- The protection trap of R212 and R218: the selector in taddr. -/
def Site.selTrap (k : Site) (v : Word) (write : Bool) : Trap :=
  ⟨0x09, k.act, v.setWidth 64, accInfo write, 0⟩

def Swatch.accs (sw : Swatch) : Nat := sw.accMap.length
def Swatch.negsCount (sw : Swatch) : Nat := sw.negMap.length

def Swatch.tile (sw : Swatch) (t : Nat) : Tile := sw.tiles.getD t Tile.zero
def Swatch.slot (sw : Swatch) (n : Nat) : NegSlot := sw.negs.getD n .empty

/-- A tile is the check copy of a primary in dual state (R212). -/
def Swatch.isCheck (sw : Swatch) (t : Nat) : Bool :=
  let h := sw.accs / 2
  decide (h ≤ t) && decide (t < 2 * h) && (sw.tile (t - h)).dual

/-- The selector checks in order: fields, ranges, check copies. -/
def Site.selCheck (k : Site) (sw : Swatch) (i : Instr) (u : Sel) (v : Word) (tiles : List Nat) : Option Trap :=
  if !u.ok v then some (mkTrap 0x01 k.act (w32 i.wordNat))
  else if u.tile && sw.accs ≤ selTile v then some (k.selTrap v u.write)
  else if u.slot && sw.negsCount ≤ selSlot v then some (k.selTrap v (u.write && !u.tile))
  else if tiles.any fun t => sw.accs ≤ t then some (k.selTrap v u.write)
  else if tiles.any sw.isCheck then some (k.selTrap v u.write)
  else none

/-- .dual on tiles whose check copies would not lie within the swatch's tiles. -/
def Site.dualRange (k : Site) (sw : Swatch) (v : Word) (dual : Bool) (tiles : List Nat) : Option Trap :=
  if dual && tiles.any fun t => sw.accs / 2 ≤ t then some (k.selTrap v true) else none

/-- The .dual bit of an exposure against the tiles (R213). -/
def Site.dualMatch (k : Site) (sw : Swatch) (i : Instr) (dual : Bool) (tiles : List Nat) : Option Trap :=
  if tiles.any fun t => (sw.tile t).dual != dual then some (mkTrap 0x01 k.act (w32 i.wordNat)) else none

/-- A scratchpad range of `len` bytes aligned to `al` (R182, R218). -/
def Site.spadRange (k : Site) (write : Bool) (al len a : Nat) : Option Trap :=
  let t := fun (c : Nat) => some (⟨c, k.act, w64 a, accInfo write, 0⟩ : Trap)
  if k.sw.spsize ≤ a then t 0x09
  else if a % al ≠ 0 then t 0x0A
  else if k.sw.spsize < a + len then t 0x09
  else none

/-- The descriptor trap at a block of the scratchpad. -/
def Site.descTrap (k : Site) (sw : Swatch) (a : Nat) : Trap :=
  ⟨0x18, k.act, w64 a, sw.descs.getD (a / 64) 0, 0⟩

/-- The first strip of a list of base addresses whose descriptors fail (R207). -/
def Site.stripsFault (k : Site) (sw : Swatch) (bases : List Nat) : Option Trap :=
  bases.findSome? fun a =>
    (stripFault (sw.descs.getD (a / 64) 0) (sw.descs.getD (a / 64 + 1) 0)).map fun j =>
      k.descTrap sw (a + 64 * j)

/-- Uncorrectable data stands in a range. -/
def Swatch.badSpad (sw : Swatch) (a n : Nat) : Bool := (sectorsOf a n).any fun x => sw.spadBad.contains x

/-- Uncorrectable data stands in what is read of a column or row: of a 4-bit one, its first block (R207). -/
def Swatch.badStrip (sw : Swatch) (a : Nat) : Bool :=
  sw.badSpad a (if fmtNarrow (descFmt (sw.descs.getD (a / 64) 0)) then 64 else 128)

/-- Lines of a scratchpad range. -/
def rangeLines (a n : Nat) : List Nat := rangeFrom (lineOf a) (lineOf (a + n - 1) - lineOf a + 1)

/-- Change a tile and, in dual state, its check copy. -/
def State.modTiles (s : State) (sid : Nat) (dual : Bool) (t : Nat) (f : Tile → Tile) : State :=
  s.modSwatch sid fun sw =>
    let sw' := { sw with tiles := sw.tiles.put t (f (sw.tile t)) }
    if dual then
      let c := t + sw.accs / 2
      { sw' with tiles := sw'.tiles.put c (f (sw'.tile c)) }
    else sw'

/-- A flight of an enlarger instruction. -/
def Site.enlFlight (k : Site) : Flight := { k.flight with kind := .enlarger }

/-! ## NEG and NEGREL (R219, R220) -/

/-- Bytes of a range moved to offset 0, zeros unlisted. -/
def sparseCopy (m : Tab Byte) (a n : Nat) : Tab Byte :=
  (m.filter fun p => decide (a ≤ p.1) && decide (p.1 < a + n)).map fun p => (p.1 - a, p.2)

def sparseWords (m : Tab Word) (a n : Nat) : Tab Word :=
  (m.filter fun p => decide (a ≤ p.1) && decide (p.1 < a + n)).map fun p => (p.1 - a, p.2)

/-- An exposure in flight reads the slot (R214). -/
def Swatch.slotRead (sw : Swatch) (n : Nat) : Bool :=
  sw.wefts.any fun p => p.2.flights.any fun f => f.kind.exposes == some n

/-- NEG stalls while an exposure still reads its slot (R214). -/
def execNeg (a b : Src) (f c : Bool) (s : State) : Out :=
  s.issue (.neg a b f c) fun k s =>
    let sw := s.swatchOf k
    let v := k.scalar a
    let at_ := (k.scalar b).toNat
    match (k.selCheck sw (.neg a b f c) ⟨false, true, false, true⟩ v []).or
        ((k.spadRange false 128 8192 at_).or ((k.lineFault sw (rangeLines at_ 8192)).or
          (if c then none else k.stripsFault sw ((List.range 64).map fun n => at_ + 128 * n)))) with
    | some t => .trap s t
    | none =>
      if sw.slotRead (selSlot v) then .stall s else
      let bytes := sparseCopy sw.spad at_ 8192
      let bad := if c then sw.badSpad at_ 8192 else (List.range 64).any fun n => sw.badStrip (at_ + 128 * n)
      let slot : NegSlot := if c then .complex bytes bad
        else .narrow bytes (sparseWords sw.descs (at_ / 64) 128) bad
      .fly (s.modSwatch k.sid fun x => { x with negs := x.negs.put (selSlot v) slot }) k.enlFlight

def execNegrel (a : Src) (f : Bool) (s : State) : Out :=
  s.issue (.negrel a f) fun k s =>
    let v := k.scalar a
    match k.selCheck (s.swatchOf k) (.negrel a f) ⟨false, true, false, true⟩ v [] with
    | some t => .trap s t
    | none =>
      .fly (s.modSwatch k.sid fun x => { x with negs := x.negs.put (selSlot v) .empty }) k.enlFlight

/-! ## Exposures (R221) -/

def Swatch.exposures (sw : Swatch) : Nat :=
  (sw.wefts.map fun p => (p.2.flights.filter fun f => f.kind.exposes.isSome).length).sum

/-- The heavy limit and the core's row buffers (R214). -/
def State.exposureRoom (s : State) (k : Site) : Bool :=
  let mine := (s.swatchOf k).exposures
  let all := (s.swatches.map fun p => if p.2.core? == k.core then p.2.exposures else 0).sum
  decide (mine < max 1 k.sw.heavy) && decide (all < Config.rowBuffers)

/-- The columns of a narrow negative. -/
def negColumns (bytes : Tab Byte) (descs : Tab Word) : List (List Fp) :=
  (List.range 64).map fun n =>
    stripValues (descs.getD (2 * n) 0) (descs.getD (2 * n + 1) 0) (memBytes bytes (128 * n) 128)

/-- A narrow exposure of the active rows onto a tile. -/
def Tile.expose (t : Tile) (sw : Swatch) (act : Mask) (at_ : Nat) (cols : List (List Fp)) : Tile :=
  (lanesOf act).foldl (fun t i =>
    let a := at_ + 128 * i
    t.exposeRow i (stripValues (sw.descs.getD (a / 64) 0) (sw.descs.getD (a / 64 + 1) 0)
      (memBytes sw.spad a 128)) cols) t

def Tile.poisonIf (t : Tile) (b : Bool) : Tile := { t with poison := t.poison || b }

def execExpo (a b : Src) (f dual : Bool) (s : State) : Out :=
  s.issue (.expo a b f dual) fun k s =>
    let sw := s.swatchOf k
    let v := k.scalar a
    let at_ := (k.scalar b).toNat
    let t := selTile v
    let i := Instr.expo a b f dual
    let rows := (lanesOf k.act).map fun l => at_ + 128 * l
    match (k.selCheck sw i ⟨true, true, false, true⟩ v [t]).or
        ((k.dualRange sw v dual [t]).or (k.dualMatch sw i dual [t])) with
    | some tr => .trap s tr
    | none =>
      match sw.slot (selSlot v) with
      | .narrow bytes descs bad =>
        match (k.spadRange false 128 4096 at_).or ((k.lineFault sw (rows.map lineOf)).or
            (k.stripsFault sw rows)) with
        | some tr => .trap s tr
        | none =>
          if k.act = 0 then .fly s k.enlFlight
          else if !s.exposureRoom k then .stall s
          else
            let cols := negColumns bytes descs
            let bad := bad || rows.any sw.badStrip
            .fly (s.modTiles k.sid dual t fun x => (x.expose sw k.act at_ cols).poisonIf bad)
              { k.flight with kind := .exposure (selSlot v) }
      | _ => .trap s (mkTrap 0x01 k.act (w32 i.wordNat))

/-- A complex exposure of the active rows onto one of its two tiles. -/
def Tile.exposeC (t : Tile) (sw : Swatch) (act : Mask) (at_ : Nat) (neg : Tab Byte) (first : Nat) : Tile :=
  (lanesOf act).foldl (fun t i =>
    let row := (List.range 32).map fun k => complexAt sw.spad (at_ + 256 * i + 8 * k)
    (rangeFrom first 16).foldl (fun t n =>
      t.exposeComplex i n row ((List.range 32).map fun k => complexAt neg (256 * n + 8 * k))) t) t

def execCexpo (a b : Src) (f dual : Bool) (s : State) : Out :=
  s.issue (.cexpo a b f dual) fun k s =>
    let sw := s.swatchOf k
    let v := k.scalar a
    let at_ := (k.scalar b).toNat
    let t := selTile v
    let i := Instr.cexpo a b f dual
    let rows := (lanesOf k.act).map fun l => at_ + 256 * l
    let odd := if t % 2 = 1 then some (k.selTrap v true) else none
    match (k.selCheck sw i ⟨true, true, false, true⟩ v []).or (odd.or
        ((k.selCheck sw i ⟨true, true, false, true⟩ v [t, t + 1]).or
          ((k.dualRange sw v dual [t, t + 1]).or (k.dualMatch sw i dual [t, t + 1])))) with
    | some tr => .trap s tr
    | none =>
      match sw.slot (selSlot v) with
      | .complex neg bad =>
        match (k.spadRange false 128 8192 at_).or
            (k.lineFault sw (rows.flatMap fun r => [lineOf r, lineOf r + 1])) with
        | some tr => .trap s tr
        | none =>
          if k.act = 0 then .fly s k.enlFlight
          else if !s.exposureRoom k then .stall s
          else
            let bad := bad || rows.any fun r => sw.badSpad r 256
            let s := s.modTiles k.sid dual t fun x => (x.exposeC sw k.act at_ neg 0).poisonIf bad
            .fly (s.modTiles k.sid dual (t + 1) fun x => (x.exposeC sw k.act at_ neg 16).poisonIf bad)
              { k.flight with kind := .exposure (selSlot v) }
      | _ => .trap s (mkTrap 0x01 k.act (w32 i.wordNat))

/-! ## HAD (R222) -/

/-- One butterfly pass at distance h. -/
def hadPass (h : Nat) (x : List Nat) : List FRes :=
  (List.range x.length).map fun j =>
    if j / h % 2 = 0 then fp32.add .rn (x.getD j 0) (x.getD (j + h) 0)
    else fp32.sub .rn (x.getD (j - h) 0) (x.getD j 0)

/-- Passes at distances h, 2h, … with the bits of every rounding. -/
def hadGo : Nat → Nat → List Nat → FBits → List Nat × FBits
  | 0, _, x, fl => (x, fl)
  | p + 1, h, x, fl =>
    let r := hadPass h x
    hadGo p (2 * h) (r.map fun y => y.1) (r.foldl (fun b y => b ||| y.2) fl)

/-- The factor of .norm for n = 16, 32, 64. -/
def hadNorm (size : Nat) : Nat := [0x3E800000, 0x3E3504F3, 0x3E000000].getD size 0

/-- A row's transform: size code, elements as FP32 encodings. -/
def hadRow (size : Nat) (norm : Bool) (x : List Nat) : List Nat × FBits :=
  let r := hadGo (size + 4) 1 x 0
  if norm then
    let y := r.1.map fun v => fp32.mul .rn v (hadNorm size)
    (y.map fun v => v.1, y.foldl (fun b v => b ||| v.2) r.2)
  else r

/-- A list of results with the bits of all. -/
def collect (l : List FRes) : List Nat × FBits := (l.map fun r => r.1, l.foldl (fun b r => b ||| r.2) 0)

/-- Every second element, from the first. -/
def evens : List Nat → List Nat
  | x :: _ :: r => x :: evens r
  | l => l

def odds (l : List Nat) : List Nat := evens (l.drop 1)

def interleave : List Nat → List Nat → List Nat
  | x :: xs, y :: ys => x :: y :: interleave xs ys
  | _, _ => []

/-- One row in memory: its bytes before and after. -/
def hadBytes (size : Nat) (bf norm c : Bool) (bs : List Byte) : List Byte × FBits :=
  let w := if bf then 2 else 4
  let xs := (List.range (bs.length / w)).map fun j => leNat ((bs.drop (w * j)).take w)
  let xs := if bf then xs.map fun x => x * 65536 else xs
  let r := if c then
      let a := hadRow size norm (evens xs)
      let b := hadRow size norm (odds xs)
      (interleave a.1 b.1, a.2 ||| b.2)
    else hadRow size norm xs
  if bf then
    let o := collect (r.1.map fun x => fp32.convert bf16 .rn false x)
    (o.1.flatMap fun x => natBytes 2 x, r.2 ||| o.2)
  else (r.1.flatMap fun x => natBytes 4 x, r.2)

def execHad (a b : Src) (f c n bf : Bool) (s : State) : Out :=
  s.issue (.had a b f c n bf) fun k s =>
    let sw := s.swatchOf k
    let v := (k.scalar a).toNat
    let at_ := (k.scalar b).toNat
    let size := v / 256 % 4
    let rows := v % 256 + 1
    let len := (2 ^ (size + 4)) * (if bf then 2 else 4) * (if c then 2 else 1)
    if v / 1024 ≠ 0 || size = 3 then .trap s (mkTrap 0x01 k.act (w32 (Instr.had a b f c n bf).wordNat))
    else
      match (k.spadRange true 32 (rows * len) at_).or (k.lineFault sw (rangeLines at_ (rows * len))) with
      | some t => .trap s t
      | none =>
        let good := (List.range rows).filter fun r => !sw.badSpad (at_ + r * len) len
        let out := good.map fun r => (at_ + r * len, hadBytes size bf n c (memBytes sw.spad (at_ + r * len) len))
        .fly s { k.flight with
          kind := .spadWrite (out.flatMap fun x => bytesAt x.1 x.2.1) []
          fst := out.foldl (fun b x => b ||| x.2.2) 0 }

/-! ## ACCZ, ACCLD (R223, R224) -/

/-- The tile after ACCZ or before ACCLD's rows: status cleared, dual as encoded; a tile that leaves the dual
state frees its check copy. -/
def execAccz (a : Src) (f dual : Bool) (s : State) : Out :=
  s.issue (.accz a f dual) fun k s =>
    let sw := s.swatchOf k
    let v := k.scalar a
    let t := selTile v
    match (k.selCheck sw (.accz a f dual) ⟨true, false, false, true⟩ v [t]).or
        (k.dualRange sw v dual [t]) with
    | some tr => .trap s tr
    | none =>
      let s := s.modTiles k.sid dual t fun _ => Tile.zero
      .fly (s.modTiles k.sid false t fun x => { x with dual := dual }) k.enlFlight

/-- The words of one row that ACCLD loads; a datum that is no number becomes the canonical NaN (R224). -/
def accldRow (sw : Swatch) (m : AccldMode) (at_ i : Nat) : List Nat :=
  match m with
  | .f32 => (List.range 64).map fun j => leNat (memBytes sw.spad (at_ + 256 * i + 4 * j) 4)
  | .bf16 => (List.range 64).map fun j => leNat (memBytes sw.spad (at_ + 128 * i + 2 * j) 2) |> fun x =>
      (fp32.convertFp .rn false (bf16.unpack x)).1
  | .desc =>
    let a := at_ + 64 * i
    (blockValues (sw.descs.getD (a / 64) 0) (memBytes sw.spad a 64)).map fun x =>
      (fp32.convertFp .rn false x).1

def Tile.loadRow (t : Tile) (i : Nat) (ws : List Nat) : Tile :=
  (ws.zip (List.range 64)).foldl (fun t p => t.setWord i p.2 p.1) t

def Tile.clearStatus (t : Tile) : Tile := { Tile.zero with words := t.words }

def execAccld (a b : Src) (f dual : Bool) (m : AccldMode) (s : State) : Out :=
  s.issue (.accld a b f dual m) fun k s =>
    let sw := s.swatchOf k
    let v := k.scalar a
    let t := selTile v
    let at_ := (k.scalar b).toNat
    let rows := (lanesOf k.act).map fun i => at_ + m.stride * i
    let bad := if m == .desc then
        rows.find? fun r => !descNumeric (sw.descs.getD (r / 64) 0) || fmtNarrow (descFmt (sw.descs.getD (r / 64) 0))
      else none
    match (k.selCheck sw (.accld a b f dual m) ⟨true, false, false, true⟩ v [t]).or
        ((k.dualRange sw v dual [t]).or ((k.spadRange false 128 (32 * m.stride) at_).or
          ((k.lineFault sw (rows.flatMap fun r => rangeLines r m.stride)).or
            (bad.map fun r => k.descTrap sw r)))) with
    | some tr => .trap s tr
    | none =>
      let new := ((lanesOf k.act).foldl (fun x i => x.loadRow i (accldRow sw m at_ i))
        (sw.tile t).clearStatus).poisonIf (rows.any fun r => sw.badSpad r m.stride)
      let s := s.modTiles k.sid dual t fun _ => new
      .fly (s.modTiles k.sid false t fun x => { x with dual := dual }) k.enlFlight

/-! ## ACCRD (R225, R226) -/

/-- The rows a data form drains and the status words differ from the check copy's (R213). -/
def Swatch.mismatch (sw : Swatch) (act : Mask) (t : Nat) : Bool :=
  let p := sw.tile t
  let c := sw.tile (t + sw.accs / 2)
  p.dual && (({ p with dual := false } : Tile).status != ({ c with dual := false } : Tile).status ||
    (lanesOf act).any fun i => (List.range 64).any fun j => p.word i j != c.word i j)

/-- The checks of a data form, and what the array mismatch makes pending. -/
def State.drainCheck (s : State) (k : Site) (i : Instr) (v : Word) (grp : Bool) (range : Option Trap) :
    Except Trap State :=
  let sw := s.swatchOf k
  let t := selTile v
  match (k.selCheck sw i ⟨true, false, grp, false⟩ v [t]).or
      ((if (sw.tile t).poison then some (⟨0x15, k.act, w64 t, k.e.pc, 0⟩ : Trap) else none).or range) with
  | some tr => .error tr
  | none =>
    .ok (if sw.mismatch k.act t then
      s.modWeft k.sid k.wid fun w => { w with pend := { w.pend with arrayMismatch := w.pend.arrayMismatch ++ [w32 t] } }
    else s)

def execAccrdReg (d : Dst) (a : Src) (f : Bool) (s : State) : Out :=
  s.issue (.accrdReg d a f) fun k s =>
    let v := k.scalar a
    match s.drainCheck k (.accrdReg d a f) v true none with
    | .error t => .trap s t
    | .ok s =>
      let t := (s.swatchOf k).tile (selTile v)
      .fly s { k.fly d 8 ((lanesOf k.act).map fun i =>
        (i, (List.range 8).map fun j => w32 (t.word i (8 * selGrp v + j)))) with kind := .enlarger }

/-- A data form that writes scratchpad: `row` gives the bytes of a row, its descriptor and its bits. -/
def State.drainSpad (s : State) (k : Site) (i : Instr) (a b : Src) (stride : Nat)
    (row : List Nat → List Byte × Option Word × FBits) : Eff :=
  let v := k.scalar a
  let at_ := (k.scalar b).toNat
  match s.drainCheck k i v false (k.spadRange true 128 (32 * stride) at_) with
  | .error t => .trap s t
  | .ok s =>
    let t := (s.swatchOf k).tile (selTile v)
    let out := (lanesOf k.act).map fun l =>
      (at_ + stride * l, row ((List.range 64).map fun j => t.word l j))
    .fly s { k.flight with
      kind := .spadWrite (out.flatMap fun x => bytesAt x.1 x.2.1)
        (out.filterMap fun x => x.2.2.1.map fun w => (x.1 / 64, w))
      fst := out.foldl (fun b x => b ||| x.2.2.2) 0 }

def execAccrdF32 (a b : Src) (f : Bool) (s : State) : Out :=
  s.issue (.accrdF32 a b f) fun k s =>
    s.drainSpad k (.accrdF32 a b f) a b 256 fun ws => (ws.flatMap fun x => natBytes 4 x, none, 0)

def execAccrdBf16 (a b : Src) (f : Bool) (s : State) : Out :=
  s.issue (.accrdBf16 a b f) fun k s =>
    s.drainSpad k (.accrdBf16 a b f) a b 128 fun ws =>
      let r := collect (ws.map fun x => fp32.convert bf16 .rn false x)
      (r.1.flatMap fun x => natBytes 2 x, none, r.2)

/-- Magnitude order of finite values: |x| ≤ m·2^e. -/
def Fp.magLe (x : Fp) (m : Nat) (e : Int) : Bool :=
  match x with
  | .fin _ n f => if e ≤ f then decide (n * 2 ^ (f - e).toNat ≤ m) else decide (n ≤ m * 2 ^ (e - f).toNat)
  | _ => true

/-- e of R226 for a row of words, M being m·2^0. -/
def rowExponent (ws : List Nat) (m : Nat) : Int :=
  let fs := ws.map fp32.unpack
  if fs.all fun x => x.isZero || x.isNan || x == .inf false || x == .inf true then 0
  else
    let e := ((List.range 30).map fun (i : Nat) => Int.ofNat i - 14).find? fun e => fs.all fun x => x.magLe m e
    e.getD 15

/-- A value divided by 2^e, exactly. -/
def Fp.shift (x : Fp) (e : Int) : Fp :=
  match x with
  | .fin n m f => .fin n m (f - e)
  | y => y

/-- One described row of R226. -/
def describedRow (dst : Fmt) (m fmt : Nat) (ws : List Nat) : List Byte × Option Word × FBits :=
  let e := rowExponent ws m
  let r := collect (ws.map fun x => dst.convertFp .rn true ((fp32.unpack x).shift e))
  (r.1.flatMap fun x => natBytes 1 x, some (w32 ((e + 15).toNat * 2 ^ 26 + fmt)), r.2)

def execAccrdE4m3 (a b : Src) (f : Bool) (s : State) : Out :=
  s.issue (.accrdE4m3 a b f) fun k s =>
    s.drainSpad k (.accrdE4m3 a b f) a b 64 (describedRow e4m3 448 1)

def execAccrdE5m2 (a b : Src) (f : Bool) (s : State) : Out :=
  s.issue (.accrdE5m2 a b f) fun k s =>
    s.drainSpad k (.accrdE5m2 a b f) a b 64 (describedRow e5m2 57344 2)

def execAccrdStat (d : Dst) (a : Src) (f : Bool) (s : State) : Out :=
  s.issue (.accrdStat d a f) fun k s =>
    let sw := s.swatchOf k
    let v := k.scalar a
    match k.selCheck sw (.accrdStat d a f) ⟨true, false, false, false⟩ v [selTile v] with
    | some t => .trap s t
    | none => .fly s { k.flyScalar d [(sw.tile (selTile v)).status] with kind := .enlarger }

end Sys2Proof.Machine
end

