-- ==== Sys2Proof/Machine/Sfu.lean ====
section
/-!
DEFINITION. The special functions (R93): the exact mathematical result rounded once to nearest
even. RCP, RSQ and SQRT round an exact quotient or integer root. The transcendental functions are
evaluated in fixed point with `sfuBits` fraction bits; no FP32 argument outside the exact cases
brings a result nearer to a rounding boundary than that precision resolves.
-/
namespace Sys2Proof.Machine

/-- Fraction bits of the fixed-point evaluation. -/
def sfuBits : Nat := 400

/-- One bit of an integer square root per unit of fuel, from the top. -/
def isqrtGo (n : Nat) : Nat → Nat → Nat
  | 0, r => r
  | k + 1, r =>
    let t := r + 2 ^ k
    isqrtGo n k (if t * t ≤ n then t else r)

/-- The integer part of √n. -/
def isqrt (n : Nat) : Nat := isqrtGo n (Nat.log2 n / 2 + 1) 0

/-- Σ xᵏ/k! from term k on, in fixed point. -/
def expGo (x : Nat) : Nat → Nat → Nat → Nat → Nat
  | 0, _, _, acc => acc
  | f + 1, k, t, acc =>
    let t' := t * x / (k * 2 ^ sfuBits)
    expGo x f (k + 1) t' (acc + t')

/-- eˣ for 0 ≤ x < 1 in fixed point. -/
def expFix (x : Nat) : Nat := expGo x 96 1 (2 ^ sfuBits) (2 ^ sfuBits)

/-- Σ z^(2k+1)/(2k+1) with the sign alternating or not: atan and atanh. -/
def oddGo (z2 : Nat) (alt : Bool) : Nat → Nat → Nat → Int → Int
  | 0, _, _, acc => acc
  | f + 1, k, t, acc =>
    let term : Int := (t / (2 * k + 1) : Nat)
    oddGo z2 alt f (k + 1) (t * z2 / 2 ^ sfuBits)
      (if alt && k % 2 == 1 then acc - term else acc + term)

def atanhFix (z : Nat) : Nat := (oddGo (z * z / 2 ^ sfuBits) false 140 0 z 0).toNat

def atanFix (z : Nat) : Nat := (oddGo (z * z / 2 ^ sfuBits) true 100 0 z 0).toNat

/-- ln 2 = 2·atanh(1/3). -/
def ln2Fix : Nat := 2 * atanhFix (2 ^ sfuBits / 3)

/-- π by Machin's formula. -/
def piFix : Nat := 16 * atanFix (2 ^ sfuBits / 5) - 4 * atanFix (2 ^ sfuBits / 239)

/-- 2^f for a fraction 0 ≤ f < 1, in fixed point. -/
def exp2Fix (f : Nat) : Nat := expFix (f * ln2Fix / 2 ^ sfuBits)

/-- Σ (−1)ᵏ x^(2k+o)/(2k+o)! from a first term: sine (o = 1) and cosine (o = 0). -/
def trigGo (x2 o : Nat) : Nat → Nat → Nat → Int → Int
  | 0, _, _, acc => acc
  | f + 1, k, t, acc =>
    let t' := t * x2 / ((2 * k + o - 1) * (2 * k + o) * 2 ^ sfuBits)
    trigGo x2 o f (k + 1) t' (if k % 2 == 1 then acc - (t' : Int) else acc + t')

/-- sin(π·r) and cos(π·r) for 0 ≤ r ≤ 1/2 in fixed point. -/
def sinpiFix (r : Nat) : Nat :=
  let x := r * piFix / 2 ^ sfuBits
  (trigGo (x * x / 2 ^ sfuBits) 1 60 1 x (x : Int)).toNat

def cospiFix (r : Nat) : Nat :=
  let x := r * piFix / 2 ^ sfuBits
  (trigGo (x * x / 2 ^ sfuBits) 0 60 1 (2 ^ sfuBits) ((2 ^ sfuBits : Nat) : Int)).toNat

/-- A nonzero irrational value v·2^−sfuBits rounded to FP32. -/
def sfuRound (neg : Bool) (v : Nat) (e : Int) : FRes :=
  Fmt.res (fp32.round .rn neg v (e - sfuBits) true)

/-- RCP (R93). -/
def sfuRcp (x : Nat) : FRes :=
  match fp32.unpack x with
  | .nan s => fp32.nanRes s
  | .inf n => (fp32.signed n 0, 0)
  | .fin n m e =>
    if m = 0 then (fp32.signed n fp32.infBits, fDz)
    else
      let k := 60 + Nat.log2 m
      Fmt.res (fp32.round .rn n (2 ^ k / m) (-e - k) (decide (2 ^ k % m ≠ 0)))

/-- m·2^e with e made even. -/
def evenExp (m : Nat) (e : Int) : Nat × Int := if e % 2 = 0 then (m, e) else (2 * m, e - 1)

/-- SQRT (R93). -/
def sfuSqrt (x : Nat) : FRes :=
  match fp32.unpack x with
  | .nan s => fp32.nanRes s
  | .inf n => if n then fp32.nanRes true else (fp32.infBits, 0)
  | .fin n m e =>
    if m = 0 then (x, 0)
    else if n then fp32.nanRes true
    else
      let p := evenExp m e
      let r := isqrt (p.1 * 2 ^ 80)
      Fmt.res (fp32.round .rn false r (p.2 / 2 - 40) (decide (r * r ≠ p.1 * 2 ^ 80)))

/-- RSQ (R93). -/
def sfuRsq (x : Nat) : FRes :=
  match fp32.unpack x with
  | .nan s => fp32.nanRes s
  | .inf n => if n then fp32.nanRes true else (0, 0)
  | .fin n m e =>
    if m = 0 then (fp32.signed n fp32.infBits, fDz)
    else if n then fp32.nanRes true
    else
      let p := evenExp m e
      let r := isqrt (2 ^ 120 / p.1)
      Fmt.res (fp32.round .rn false r (-(p.2 / 2) - 60) (decide (r * r * p.1 ≠ 2 ^ 120)))

/-- EX2 (R93): the argument is split into its integer and fraction parts. -/
def sfuEx2 (x : Nat) : FRes :=
  match fp32.unpack x with
  | .nan s => fp32.nanRes s
  | .inf n => (if n then 0 else fp32.infBits, 0)
  | .fin n m e =>
    if m = 0 then (0x3F800000, 0)
    else if (8 : Int) ≤ e + Nat.log2 m then
      Fmt.res (fp32.round .rn false 1 (if n then -1000 else 1000) false)
    else
      let v : Int := (m * 2 ^ (e + sfuBits).toNat : Nat)
      let a := if n then -v else v
      let i := a / (2 ^ sfuBits : Nat)
      let f := (a % (2 ^ sfuBits : Nat)).toNat
      if f = 0 then Fmt.res (fp32.round .rn false 1 i false) else sfuRound false (exp2Fix f) i

/-- LG2 (R93). -/
def sfuLg2 (x : Nat) : FRes :=
  match fp32.unpack x with
  | .nan s => fp32.nanRes s
  | .inf n => if n then fp32.nanRes true else (fp32.infBits, 0)
  | .fin n m e =>
    if m = 0 then (fp32.signed true fp32.infBits, fDz)
    else if n then fp32.nanRes true
    else
      let i : Int := e + Nat.log2 m
      let one := 2 ^ Nat.log2 m
      if m = one then
        Fmt.res (fp32.round .rn (decide (i < 0)) i.natAbs 0 false)
      else
        let z := (m - one) * 2 ^ sfuBits / (m + one)
        let l := 2 * atanhFix z * 2 ^ sfuBits / ln2Fix
        let v : Int := i * (2 ^ sfuBits : Nat) + l
        sfuRound (decide (v < 0)) v.natAbs 0

/-- |a| mod 2 in fixed point, for a finite a. -/
def mod2Fix (m : Nat) (e : Int) : Nat :=
  if 1 ≤ e then 0 else m * 2 ^ (e + sfuBits).toNat % 2 ^ (sfuBits + 1)

/-- SINPI (R93). -/
def sfuSinpi (x : Nat) : FRes :=
  match fp32.unpack x with
  | .nan s => fp32.nanRes s
  | .inf _ => fp32.nanRes true
  | .fin n m e =>
    let one := 2 ^ sfuBits
    let r := mod2Fix m e
    if r % one = 0 then (fp32.signed n 0, 0)
    else
      let neg := n != decide (one < r)
      let q := r % one
      let h := if one < 2 * q then one - q else q
      if 2 * h = one then (fp32.signed neg 0x3F800000, 0) else sfuRound neg (sinpiFix h) 0

/-- COSPI (R93). -/
def sfuCospi (x : Nat) : FRes :=
  match fp32.unpack x with
  | .nan s => fp32.nanRes s
  | .inf _ => fp32.nanRes true
  | .fin _ m e =>
    let one := 2 ^ sfuBits
    let r := mod2Fix m e
    if r % one = 0 then (fp32.signed (decide (r = one)) 0x3F800000, 0)
    else if 2 * (r % one) = one then (0, 0)
    else
      let q := if one < r then 2 * one - r else r
      let neg := decide (one < 2 * q)
      let h := if neg then one - q else q
      -- near a zero of the cosine the sine of the complement keeps the precision
      sfuRound neg (if one < 4 * h then sinpiFix (one / 2 - h) else cospiFix h) 0

/-- TANH (R93): (1 − t)/(1 + t) with t = e^(−2|a|). -/
def sfuTanh (x : Nat) : FRes :=
  match fp32.unpack x with
  | .nan s => fp32.nanRes s
  | .inf n => (fp32.signed n 0x3F800000, 0)
  | .fin n m e =>
    let lead := e + Nat.log2 m
    if m = 0 then (x, 0)
    else if lead < -40 then Fmt.res (fp32.round .rn n (m * 2 ^ 64 - 1) (e - 64) true)
    else if (5 : Int) ≤ lead then Fmt.res (fp32.round .rn n (2 ^ 40 - 1) (-40) true)
    else
      let one := 2 ^ sfuBits
      let y := 2 * (m * 2 ^ (e + sfuBits).toNat) * one / ln2Fix
      let i := y / one
      let f := y % one
      -- t = 2^(−i−f)
      let t := (if f = 0 then one else exp2Fix (one - f) / 2) / 2 ^ i
      sfuRound n ((one - t) * one / (one + t)) 0

end Sys2Proof.Machine
end

