-- ==== Sys2Proof/Machine/Floating.lean ====
section
/-!
DEFINITION. The floating-point, conversion, special-function, error-free and complex instructions
(R86 to R98).
-/
namespace Sys2Proof.Machine

/-- Two 16-bit elements in a register, element 0 low (R55). -/
def pack16 (x y : FRes) : List Word × FBits :=
  ([w32 (x.1 % 65536 + 65536 * (y.1 % 65536))], x.2 ||| y.2)

/-- An element-wise operation of a type on a, b and d (R55, R86). -/
def elementwise (k : Site) (t : FType) (d : Dst) (a b : Src) (f : Fmt → Nat → Nat → Nat → FRes)
    (l : Nat) : List Word × FBits :=
  let half := fun (m : Fmt) =>
    let x := (k.val a l).toNat
    let y := (k.val b l).toNat
    let z := (k.val d.toSrc l).toNat
    pack16 (f m (x % 65536) (y % 65536) (z % 65536)) (f m (x / 65536) (y / 65536) (z / 65536))
  match t with
  | .f32 =>
    let r := f fp32 (k.val a l).toNat (k.val b l).toNat (k.val d.toSrc l).toNat
    ([w32 r.1], r.2)
  | .f16x2 => half fp16
  | .bf16x2 => half bf16
  | .f64 =>
    let r := f fp64 (k.f64 a l) (k.f64 b l) (k.f64 d.toSrc l)
    (groupWords 2 r.1, r.2)

def floatOp (k : Site) (s : State) (t : FType) (d : Dst) (a b : Src)
    (f : Fmt → Nat → Nat → Nat → FRes) : Eff :=
  k.alu s d t.regs (elementwise k t d a b f)

def execFadd (d : Dst) (a b : Src) (r : RMode) (t : FType) (s : State) : Out :=
  s.issue (.fadd d a b r t) fun k s => floatOp k s t d a b fun m x y _ => m.add r x y

def execFsub (d : Dst) (a b : Src) (r : RMode) (t : FType) (s : State) : Out :=
  s.issue (.fsub d a b r t) fun k s => floatOp k s t d a b fun m x y _ => m.sub r x y

def execFmul (d : Dst) (a b : Src) (r : RMode) (t : FType) (s : State) : Out :=
  s.issue (.fmul d a b r t) fun k s => floatOp k s t d a b fun m x y _ => m.mul r x y

def execFfma (d : Dst) (a b : Src) (r : RMode) (t : FType) (s : State) : Out :=
  s.issue (.ffma d a b r t) fun k s => floatOp k s t d a b fun m x y z => m.fma r x y z

def execFmin (d : Dst) (a b : Src) (t : FType) (s : State) : Out :=
  s.issue (.fmin d a b t) fun k s => floatOp k s t d a b fun m x y _ => m.minmax false x y

def execFmax (d : Dst) (a b : Src) (t : FType) (s : State) : Out :=
  s.issue (.fmax d a b t) fun k s => floatOp k s t d a b fun m x y _ => m.minmax true x y

/-- FABS: the sign bit cleared, nothing else (R61). -/
def execFabs (d : Dst) (a : Src) (t : FType) (s : State) : Out :=
  s.issue (.fabs d a t) fun k s => floatOp k s t d a a fun m x _ _ => (x % m.signBit, 0)

/-- FNEG: the sign bit inverted (R61). -/
def execFneg (d : Dst) (a : Src) (t : FType) (s : State) : Out :=
  s.issue (.fneg d a t) fun k s => floatOp k s t d a a fun m x _ _ =>
    (if x < m.signBit then x + m.signBit else x - m.signBit, 0)

def execFrnd (d : Dst) (a : Src) (r : RMode) (t : FType) (s : State) : Out :=
  s.issue (.frnd d a r t) fun k s => floatOp k s t d a a fun m x _ _ => m.toIntegral r x

/-- Results of FCLS and FEXP: one register, 16-bit fields in the packed types (R89). -/
def classOp (k : Site) (s : State) (t : FType) (d : Dst) (a : Src) (f : Fmt → Nat → Nat → FRes) :
    Eff :=
  k.alu s d 1 fun l =>
    let half := fun (m : Fmt) =>
      let x := (k.val a l).toNat
      pack16 (f m 16 (x % 65536)) (f m 16 (x / 65536))
    match t with
    | .f32 => let r := f fp32 32 (k.val a l).toNat; ([w32 r.1], r.2)
    | .f16x2 => half fp16
    | .bf16x2 => half bf16
    | .f64 => let r := f fp64 32 (k.f64 a l); ([w32 r.1], r.2)

def execFcls (d : Dst) (a : Src) (t : FType) (s : State) : Out :=
  s.issue (.fcls d a t) fun k s => classOp k s t d a fun m _ x => (m.classify x, 0)

def execFexp (d : Dst) (a : Src) (t : FType) (s : State) : Out :=
  s.issue (.fexp d a t) fun k s => classOp k s t d a fun m w x => m.exponent w x

def execFmant (d : Dst) (a : Src) (t : FType) (s : State) : Out :=
  s.issue (.fmant d a t) fun k s => floatOp k s t d a a fun m x _ _ => m.mantissa x

/-- FCMP (R90). -/
def execFcmp (p : PReg) (a b : Src) (w : Bool) (c : FCond) (s : State) : Out :=
  s.issue (.fcmp p a b w c) fun k s => k.setPred s p fun l =>
    if w then fp64.compare c (k.f64 a l) (k.f64 b l)
    else fp32.compare c (k.val a l).toNat (k.val b l).toNat

/-! ## FCVT (R91, R92) -/

/-- Element e of `n` bits out of a number. -/
def elem (n x e : Nat) : Nat := x / 2 ^ (n * e) % 2 ^ n

/-- Element results packed at `n` bits, element 0 lowest, with their bits ORed. -/
def packElems (n : Nat) (rs : List FRes) : Nat × FBits :=
  ((rs.zip (List.range rs.length)).foldl (fun x r => x + r.1.1 % 2 ^ n * 2 ^ (n * r.2)) 0,
    rs.foldl (fun b r => b ||| r.2) 0)

/-- How a conversion reads an element and writes one: element widths and count, the source's first
element, and the element conversion. -/
structure ConvPlan where
  srcBits : Nat
  first : Nat
  count : Nat
  dstBits : Nat
  f : RMode → Bool → Nat → FRes

def floatPlan (src dst : Fmt) (sb first count db : Nat) : ConvPlan :=
  ⟨sb, first, count, db, fun r sat x => src.convert dst r sat x⟩

def toIntPlan (src : Fmt) (sb db : Nat) (u : Bool) : ConvPlan :=
  ⟨sb, 0, 1, db, fun r _ x => src.toInteger r db u x⟩

def ofIntPlan (dst : Fmt) (sb db count : Nat) (u : Bool) : ConvPlan :=
  ⟨sb, 0, count, db, fun r sat x =>
    dst.ofInteger r sat (if u then (x : Int) else (if x < 2 ^ (sb - 1) then (x : Int) else (x : Int) - (2 ^ sb : Nat)))⟩

/-- The conversion table (R91). -/
def convPlan : Conv → ConvPlan
  | .f64F32 => floatPlan fp32 fp64 32 0 1 64
  | .f32F64 => floatPlan fp64 fp32 64 0 1 32
  | .f16x2F32x2 => floatPlan fp32 fp16 32 0 2 16
  | .bf16x2F32x2 => floatPlan fp32 bf16 32 0 2 16
  | .f32x2F16x2 => floatPlan fp16 fp32 16 0 2 32
  | .f32x2Bf16x2 => floatPlan bf16 fp32 16 0 2 32
  | .e4m3x4F32x4 => floatPlan fp32 e4m3 32 0 4 8
  | .e5m2x4F32x4 => floatPlan fp32 e5m2 32 0 4 8
  | .f32x4E4m3x4 => floatPlan e4m3 fp32 8 0 4 32
  | .f32x4E5m2x4 => floatPlan e5m2 fp32 8 0 4 32
  | .e2m1x4loF32x4 => floatPlan fp32 e2m1 32 0 4 4
  | .e2m1x4hiF32x4 => floatPlan fp32 e2m1 32 0 4 4
  | .f32x4E2m1x4lo => floatPlan e2m1 fp32 4 0 4 32
  | .f32x4E2m1x4hi => floatPlan e2m1 fp32 4 4 4 32
  | .i32F32 => toIntPlan fp32 32 32 false
  | .u32F32 => toIntPlan fp32 32 32 true
  | .i64F32 => toIntPlan fp32 32 64 false
  | .u64F32 => toIntPlan fp32 32 64 true
  | .i32F64 => toIntPlan fp64 64 32 false
  | .u32F64 => toIntPlan fp64 64 32 true
  | .i64F64 => toIntPlan fp64 64 64 false
  | .u64F64 => toIntPlan fp64 64 64 true
  | .f32I32 => ofIntPlan fp32 32 32 1 false
  | .f32U32 => ofIntPlan fp32 32 32 1 true
  | .f32I64 => ofIntPlan fp32 64 32 1 false
  | .f32U64 => ofIntPlan fp32 64 32 1 true
  | .f64I32 => ofIntPlan fp64 32 64 1 false
  | .f64U32 => ofIntPlan fp64 32 64 1 true
  | .f64I64 => ofIntPlan fp64 64 64 1 false
  | .f64U64 => ofIntPlan fp64 64 64 1 true
  | .f16x4E4m3x4 => floatPlan e4m3 fp16 8 0 4 16
  | .f16x4E5m2x4 => floatPlan e5m2 fp16 8 0 4 16
  | .f16x4E2m1x4lo => floatPlan e2m1 fp16 4 0 4 16
  | .f16x4E2m1x4hi => floatPlan e2m1 fp16 4 4 4 16
  | .e4m3x4E2m1x4lo => floatPlan e2m1 e4m3 4 0 4 8
  | .e5m2x4E2m1x4lo => floatPlan e2m1 e5m2 4 0 4 8
  | .e4m3x4E2m1x4hi => floatPlan e2m1 e4m3 4 4 4 8
  | .e5m2x4E2m1x4hi => floatPlan e2m1 e5m2 4 4 4 8
  | .f64x2F16x2 => floatPlan fp16 fp64 16 0 2 64
  | .f64x2Bf16x2 => floatPlan bf16 fp64 16 0 2 64
  | .f16x2I32x2 => ofIntPlan fp16 32 16 2 false
  | .f16x2U32x2 => ofIntPlan fp16 32 16 2 true

/-- The registers of a source group as one number, register 0 lowest. -/
def Site.groupNat (k : Site) (a : Src) (g l : Nat) : Nat :=
  (List.range g).foldl (fun x j => x + (k.word a j l).toNat * 2 ^ (32 * j)) 0

def execFcvt (d : Dst) (a : Src) (x : Conv) (r : RMode) (sat : Bool) (s : State) : Out :=
  s.issue (.fcvt d a x r sat) fun k s => k.alu s d x.shape.2 fun l =>
    let p := convPlan x
    let src := match a with
      | .lit w => w.toNat
      | a => k.groupNat a x.shape.1 l
    let rs := (List.range p.count).map fun e => p.f r sat (elem p.srcBits src (p.first + e))
    let q := packElems p.dstBits rs
    let old := (k.val d.toSrc l).toNat
    let n := match x with
      | .e2m1x4loF32x4 => old / 65536 * 65536 + q.1
      | .e2m1x4hiF32x4 => old % 65536 + 65536 * q.1
      | _ => q.1
    (groupWords x.shape.2 n, q.2)

/-! ## Special functions, division, error-free transforms -/

def unary32 (k : Site) (s : State) (d : Dst) (a : Src) (f : Nat → FRes) : Eff :=
  k.alu s d 1 fun l => let r := f (k.val a l).toNat; ([w32 r.1], r.2)

def execRcp (d : Dst) (a : Src) (s : State) : Out :=
  s.issue (.rcp d a) fun k s => unary32 k s d a sfuRcp

def execRsq (d : Dst) (a : Src) (s : State) : Out :=
  s.issue (.rsq d a) fun k s => unary32 k s d a sfuRsq

def execSqrt (d : Dst) (a : Src) (s : State) : Out :=
  s.issue (.sqrt d a) fun k s => unary32 k s d a sfuSqrt

def execEx2 (d : Dst) (a : Src) (s : State) : Out :=
  s.issue (.ex2 d a) fun k s => unary32 k s d a sfuEx2

def execLg2 (d : Dst) (a : Src) (s : State) : Out :=
  s.issue (.lg2 d a) fun k s => unary32 k s d a sfuLg2

def execSinpi (d : Dst) (a : Src) (s : State) : Out :=
  s.issue (.sinpi d a) fun k s => unary32 k s d a sfuSinpi

def execCospi (d : Dst) (a : Src) (s : State) : Out :=
  s.issue (.cospi d a) fun k s => unary32 k s d a sfuCospi

def execTanh (d : Dst) (a : Src) (s : State) : Out :=
  s.issue (.tanh d a) fun k s => unary32 k s d a sfuTanh

def execFdiv (d : Dst) (a b : Src) (s : State) : Out :=
  s.issue (.fdiv d a b) fun k s => k.alu s d 1 fun l =>
    let r := fp32.div (k.val a l).toNat (k.val b l).toNat
    ([w32 r.1], r.2)

/-- The fstat bits of TWOSUM itself: its e is exact, so nx and uf come only with an overflow (R95). -/
def execTwosum (d : Dst) (a b : Src) (s : State) : Out :=
  s.issue (.twosum d a b) fun k s => k.alu s d 2 fun l =>
    let r := twoSum (k.val a l).toNat (k.val b l).toNat
    ([w32 r.1, w32 r.2.1], r.2.2)

def execTwoprod (d : Dst) (a b : Src) (s : State) : Out :=
  s.issue (.twoprod d a b) fun k s => k.alu s d 2 fun l =>
    let r := twoProd (k.val a l).toNat (k.val b l).toNat
    ([w32 r.1, w32 r.2.1], r.2.2)

/-! ## Complex arithmetic (R96 to R98) -/

/-- The parts of a complex pair (R65). -/
def Site.re (k : Site) (a : Src) (l : Nat) : Nat := (k.word a 0 l).toNat
def Site.im (k : Site) (a : Src) (l : Nat) : Nat := (k.word a 1 l).toNat

/-- Sign bit inverted, exactly. -/
def neg32 (x : Nat) : Nat := if x < 2 ^ 31 then x + 2 ^ 31 else x - 2 ^ 31

/-- x·y + z rounded once to nearest even; the product of a NaN is not negated. -/
def fma32 (x y z : Nat) : FRes := fp32.fma .rn x y z

/-- CMUL: re = fma(ar, br, −RN(ai·bi)), im = fma(ar, bi, RN(ai·br)) (R96). -/
def cmul32 (ar ai br bi : Nat) : List Nat × FBits :=
  let p := fp32.mul .rn ai bi
  let q := fp32.mul .rn ai br
  let re := fp32.fmaFp .rn (fp32.unpack ar) (fp32.unpack br) (fp32.unpack p.1).negate
  let im := fma32 ar bi q.1
  ([re.1, im.1], p.2 ||| q.2 ||| re.2 ||| im.2)

def execCmul (d : Dst) (a b : Src) (s : State) : Out :=
  s.issue (.cmul d a b) fun k s => k.alu s d 2 fun l =>
    let r := cmul32 (k.re a l) (k.im a l) (k.re b l) (k.im b l)
    (r.1.map w32, r.2)

/-- CFMA: each part rounds twice, inner fma first (R97). -/
def cfma32 (ar ai br bi dr di : Nat) : List Nat × FBits :=
  let p := fp32.fmaFp .rn (fp32.unpack ai).negate (fp32.unpack bi) (fp32.unpack dr)
  let re := fma32 ar br p.1
  let q := fma32 ai br di
  let im := fma32 ar bi q.1
  ([re.1, im.1], p.2 ||| q.2 ||| re.2 ||| im.2)

def execCfma (d : Dst) (a b : Src) (s : State) : Out :=
  s.issue (.cfma d a b) fun k s => k.alu s d 2 fun l =>
    let r := cfma32 (k.re a l) (k.im a l) (k.re b l) (k.im b l) (k.re d.toSrc l) (k.im d.toSrc l)
    (r.1.map w32, r.2)

/-- CACC into a compensated complex accumulator (R98). -/
def execCacc (d : Dst) (a : Src) (s : State) : Out :=
  s.issue (.cacc d a) fun k s => k.alu s d 4 fun l =>
    let w := fun j => (k.word d.toSrc j l).toNat
    let x := compAdd (w 0) (w 1) (k.re a l)
    let y := compAdd (w 2) (w 3) (k.im a l)
    ([w32 x.1, w32 x.2.1, w32 y.1, w32 y.2.1], x.2.2 ||| y.2.2)

end Sys2Proof.Machine
end

