-- ==== Sys2Proof/Machine/Integer.lean ====
section
/-!
DEFINITION. The integer, logic, shift, bit-field, immediate, comparison and predicate instructions
(R75 to R85).
-/
namespace Sys2Proof.Machine

/-- The arithmetic shape of R75: operands as exact numbers, result reduced or saturated. -/
def intArith (k : Site) (s : State) (d : Dst) (a b : Src) (sat u w : Bool) (f : Int → Int → Int → Int) :
    Eff :=
  let n := if w then 64 else 32
  k.alu s d (grp w) fun l =>
    let r := intResult n u sat (f (k.int a u w l) (k.int b u w l) (k.int d.toSrc u w l))
    (groupWords (grp w) r.1, r.2)

def execIadd (d : Dst) (a b : Src) (sat u w : Bool) (s : State) : Out :=
  s.issue (.iadd d a b sat u w) fun k s => intArith k s d a b sat u w fun x y _ => x + y

def execIsub (d : Dst) (a b : Src) (sat u w : Bool) (s : State) : Out :=
  s.issue (.isub d a b sat u w) fun k s => intArith k s d a b sat u w fun x y _ => x - y

def execImul (d : Dst) (a b : Src) (sat u w : Bool) (s : State) : Out :=
  s.issue (.imul d a b sat u w) fun k s => intArith k s d a b sat u w fun x y _ => x * y

/-- The high half of the double-width product, rounded toward −∞ (R75). -/
def execImulh (d : Dst) (a b : Src) (u w : Bool) (s : State) : Out :=
  s.issue (.imulh d a b u w) fun k s =>
    intArith k s d a b false u w fun x y _ => (x * y).fdiv (2 ^ (if w then 64 else 32) : Nat)

def execImad (d : Dst) (a b : Src) (sat u w : Bool) (s : State) : Out :=
  s.issue (.imad d a b sat u w) fun k s => intArith k s d a b sat u w fun x y z => x * y + z

def execImin (d : Dst) (a b : Src) (u w : Bool) (s : State) : Out :=
  s.issue (.imin d a b u w) fun k s => intArith k s d a b false u w fun x y _ => min x y

def execImax (d : Dst) (a b : Src) (u w : Bool) (s : State) : Out :=
  s.issue (.imax d a b u w) fun k s => intArith k s d a b false u w fun x y _ => max x y

def execIabs (d : Dst) (a : Src) (sat w : Bool) (s : State) : Out :=
  s.issue (.iabs d a sat w) fun k s =>
    intArith k s d a a sat false w fun x _ _ => if x < 0 then -x else x

def execIneg (d : Dst) (a : Src) (sat w : Bool) (s : State) : Out :=
  s.issue (.ineg d a sat w) fun k s => intArith k s d a a sat false w fun x _ _ => -x

/-- A bitwise shape on 32 or 64 bits (R76, R77). -/
def bitwise (k : Site) (s : State) (d : Dst) (a b : Src) (w : Bool) (f : DWord → DWord → DWord) : Eff :=
  k.alu s d (grp w) fun l =>
    if w then (groupWords 2 (f (k.dword a false l) (k.dword b false l)).toNat, 0)
    else ([loWord (f ((k.val a l).setWidth 64) ((k.val b l).setWidth 64))], 0)

def execNot (d : Dst) (a : Src) (w : Bool) (s : State) : Out :=
  s.issue (.not d a w) fun k s => bitwise k s d a a w fun x _ => ~~~x

/-- POPC (R76). -/
def execPopc (d : Dst) (a : Src) (s : State) : Out :=
  s.issue (.popc d a) fun k s => k.alu1 s d fun l => w32 (popCount (k.val a l))

/-- CLZ: 32 for 0 (R76). -/
def clz32 (x : Word) : Nat := if x = 0 then 32 else 31 - Nat.log2 x.toNat

def execClz (d : Dst) (a : Src) (s : State) : Out :=
  s.issue (.clz d a) fun k s => k.alu1 s d fun l => w32 (clz32 (k.val a l))

/-- BREV: bit i of the result is bit 31 − i (R76). -/
def brev32 (x : Word) : Word := maskOf fun i => x.getLsbD (31 - i)

def execBrev (d : Dst) (a : Src) (s : State) : Out :=
  s.issue (.brev d a) fun k s => k.alu1 s d fun l => brev32 (k.val a l)

def execSxb (d : Dst) (a : Src) (s : State) : Out :=
  s.issue (.sxb d a) fun k s => k.alu1 s d fun l => ((k.val a l).setWidth 8).signExtend 32

def execSxh (d : Dst) (a : Src) (s : State) : Out :=
  s.issue (.sxh d a) fun k s => k.alu1 s d fun l => ((k.val a l).setWidth 16).signExtend 32

def execZxb (d : Dst) (a : Src) (s : State) : Out :=
  s.issue (.zxb d a) fun k s => k.alu1 s d fun l => ((k.val a l).setWidth 8).setWidth 32

def execZxh (d : Dst) (a : Src) (s : State) : Out :=
  s.issue (.zxh d a) fun k s => k.alu1 s d fun l => ((k.val a l).setWidth 16).setWidth 32

/-- FFS: index of the least significant set bit, all ones for 0 (R76). -/
def ffs32 (x : Word) : Word := if x = 0 then 0xFFFFFFFF else w32 (lowestLane x)

def execFfs (d : Dst) (a : Src) (s : State) : Out :=
  s.issue (.ffs d a) fun k s => k.alu1 s d fun l => ffs32 (k.val a l)

def execAnd (d : Dst) (a b : Src) (w : Bool) (s : State) : Out :=
  s.issue (.and d a b w) fun k s => bitwise k s d a b w fun x y => x &&& y

def execOr (d : Dst) (a b : Src) (w : Bool) (s : State) : Out :=
  s.issue (.or d a b w) fun k s => bitwise k s d a b w fun x y => x ||| y

def execXor (d : Dst) (a b : Src) (w : Bool) (s : State) : Out :=
  s.issue (.xor d a b w) fun k s => bitwise k s d a b w fun x y => x ^^^ y

def execAndn (d : Dst) (a b : Src) (w : Bool) (s : State) : Out :=
  s.issue (.andn d a b w) fun k s => bitwise k s d a b w fun x y => x &&& ~~~y

/-- The shift shape (R77): amount in b's low bits, b a single register in either width. -/
def shifted (k : Site) (s : State) (d : Dst) (a b : Src) (w : Bool) (f : Word → Nat → Word)
    (g : DWord → Nat → DWord) : Eff :=
  k.alu s d (grp w) fun l =>
    let n := (k.val b l).toNat
    if w then (groupWords 2 (g (k.dword a false l) (n % 64)).toNat, 0)
    else ([f (k.val a l) (n % 32)], 0)

def execShl (d : Dst) (a b : Src) (w : Bool) (s : State) : Out :=
  s.issue (.shl d a b w) fun k s => shifted k s d a b w (fun x n => x <<< n) fun x n => x <<< n

def execShr (d : Dst) (a b : Src) (w : Bool) (s : State) : Out :=
  s.issue (.shr d a b w) fun k s => shifted k s d a b w (fun x n => x >>> n) fun x n => x >>> n

def execSra (d : Dst) (a b : Src) (w : Bool) (s : State) : Out :=
  s.issue (.sra d a b w) fun k s =>
    shifted k s d a b w (fun x n => x.sshiftRight n) fun x n => x.sshiftRight n

def execRol (d : Dst) (a b : Src) (w : Bool) (s : State) : Out :=
  s.issue (.rol d a b w) fun k s =>
    shifted k s d a b w (fun x n => x.rotateLeft n) fun x n => x.rotateLeft n

/-- Length of a bit field, cut at bit 31 (R78): from position and length in b. -/
def fieldPos (b : Word) : Nat := b.toNat % 32
def fieldLen (b : Word) : Nat := min (b.toNat / 256 % 32) (32 - fieldPos b)

/-- BFX (R78). -/
def bfx32 (x b : Word) (u : Bool) : Word :=
  let n := fieldLen b
  let f := x.toNat / 2 ^ fieldPos b % 2 ^ n
  if n = 0 then 0
  else if u || f < 2 ^ (n - 1) then w32 f else w32 (f + 2 ^ 32 - 2 ^ n)

def execBfx (d : Dst) (a b : Src) (u : Bool) (s : State) : Out :=
  s.issue (.bfx d a b u) fun k s => k.alu1 s d fun l => bfx32 (k.val a l) (k.val b l) u

/-- BFI: the other bits of d are kept (R78). -/
def bfi32 (old x b : Word) : Word :=
  let m := w32 ((2 ^ fieldLen b - 1) * 2 ^ fieldPos b)
  (old &&& ~~~m) ||| ((x <<< fieldPos b) &&& m)

def execBfi (d : Dst) (a b : Src) (s : State) : Out :=
  s.issue (.bfi d a b) fun k s =>
    k.alu1 s d fun l => bfi32 (k.val d.toSrc l) (k.val a l) (k.val b l)

/-- Conditions of ICMP and ICMPI (R80). -/
def icmpTest (c : Cond) (x y : Word) : Bool :=
  match c with
  | .eq => x == y
  | .ne => x != y
  | .lt => x.slt y
  | .le => x.sle y
  | .gt => y.slt x
  | .ge => y.sle x
  | .ltu => x.ult y
  | .leu => x.ule y
  | .gtu => y.ult x
  | .geu => y.ule x

def execIcmp (p : PReg) (a b : Src) (c : Cond) (s : State) : Out :=
  s.issue (.icmp p a b c) fun k s =>
    k.setPred s p fun l => (icmpTest c (k.val a l) (k.val b l), 0)

def execIcmpi (p : PReg) (a : Src) (c : Cond) (n : BitVec 7) (s : State) : Out :=
  s.issue (.icmpi p a c n) fun k s =>
    k.setPred s p fun l => (icmpTest c (k.val a l) (n.signExtend 32), 0)

/-- SEL (R81). -/
def execSel (d : Dst) (a b : Src) (inv : Bool) (p : PReg) (s : State) : Out :=
  s.issue (.sel d a b inv p) fun k s => k.alu1 s d fun l =>
    if (k.w.pred p.val).getLsbD l != inv then k.val a l else k.val b l

/-- LEA: the shift is taken after sign extension under .a64 (R82). -/
def execLea (d : Dst) (a b : Src) (l64 : Bool) (sh : BitVec 2) (s : State) : Out :=
  s.issue (.lea d a b l64 sh) fun k s => k.alu s d (grp l64) fun l =>
    if l64 then
      (groupWords 2 (k.dword a false l + ((k.val b l).signExtend 64 <<< sh.toNat)).toNat, 0)
    else ([k.val a l + (k.val b l <<< sh.toNat)], 0)

/-- MOV (R83). -/
def execMov (d : Dst) (a : Src) (w : Bool) (s : State) : Out :=
  s.issue (.mov d a w) fun k s => bitwise k s d a a w fun x _ => x

def execIaddi (d : Dst) (a : Src) (n : BitVec 11) (s : State) : Out :=
  s.issue (.iaddi d a n) fun k s => k.alu1 s d fun l => k.val a l + n.signExtend 32

def execAndi (d : Dst) (a : Src) (n : BitVec 11) (s : State) : Out :=
  s.issue (.andi d a n) fun k s => k.alu1 s d fun l => k.val a l &&& n.signExtend 32

def execOri (d : Dst) (a : Src) (n : BitVec 11) (s : State) : Out :=
  s.issue (.ori d a n) fun k s => k.alu1 s d fun l => k.val a l ||| n.signExtend 32

def execXori (d : Dst) (a : Src) (n : BitVec 11) (s : State) : Out :=
  s.issue (.xori d a n) fun k s => k.alu1 s d fun l => k.val a l ^^^ n.signExtend 32

def execShli (d : Dst) (a : Src) (n : BitVec 5) (s : State) : Out :=
  s.issue (.shli d a n) fun k s => k.alu1 s d fun l => k.val a l <<< n.toNat

def execShri (d : Dst) (a : Src) (n : BitVec 5) (s : State) : Out :=
  s.issue (.shri d a n) fun k s => k.alu1 s d fun l => k.val a l >>> n.toNat

def execSrai (d : Dst) (a : Src) (n : BitVec 5) (s : State) : Out :=
  s.issue (.srai d a n) fun k s => k.alu1 s d fun l => (k.val a l).sshiftRight n.toNat

def execRoli (d : Dst) (a : Src) (n : BitVec 5) (s : State) : Out :=
  s.issue (.roli d a n) fun k s => k.alu1 s d fun l => (k.val a l).rotateLeft n.toNat

def execMovi (d : Dst) (n : BitVec 18) (s : State) : Out :=
  s.issue (.movi d n) fun k s => k.alu1 s d fun _ => n.signExtend 32

/-- MOVHI keeps bits [13:0] (R79). -/
def execMovhi (d : Dst) (n : BitVec 18) (s : State) : Out :=
  s.issue (.movhi d n) fun k s =>
    k.alu1 s d fun l => n ++ (k.val d.toSrc l).setWidth 14

def execPand (d a b : PReg) (s : State) : Out :=
  s.issue (.pand d a b) fun k s => k.setPredMask s d (k.w.pred a.val &&& k.w.pred b.val)

def execPor (d a b : PReg) (s : State) : Out :=
  s.issue (.por d a b) fun k s => k.setPredMask s d (k.w.pred a.val ||| k.w.pred b.val)

def execPxor (d a b : PReg) (s : State) : Out :=
  s.issue (.pxor d a b) fun k s => k.setPredMask s d (k.w.pred a.val ^^^ k.w.pred b.val)

def execPandn (d a b : PReg) (s : State) : Out :=
  s.issue (.pandn d a b) fun k s => k.setPredMask s d (k.w.pred a.val &&& ~~~k.w.pred b.val)

def execPnot (d a : PReg) (s : State) : Out :=
  s.issue (.pnot d a) fun k s => k.setPredMask s d (~~~k.w.pred a.val)

def execPmov (d a : PReg) (s : State) : Out :=
  s.issue (.pmov d a) fun k s => k.setPredMask s d (k.w.pred a.val)

/-- P2V: predicate i in bit i (R85). -/
def execP2v (d : Dst) (s : State) : Out :=
  s.issue (.p2v d) fun k s =>
    k.alu1 s d fun l => maskOf fun i => decide (i < 8) && (k.w.pred i).getLsbD l

/-- V2P: every predicate of the active lanes (R85). -/
def execV2p (a : Src) (s : State) : Out :=
  s.issue (.v2p a) fun k s =>
    let m := fun i : Nat => maskOf fun l => (k.val a l).getLsbD i
    .done (s.modWeft k.sid k.wid fun w =>
      [0, 1, 2, 3, 4, 5, 6, 7].foldl (fun w i => w.pput i k.act (m i)) w)

end Sys2Proof.Machine
end

