-- ==== Sys2Proof/Machine/Queues.lean ====
section
/-!
DEFINITION. Hardware queues (R200, R201) and the task instructions (R202 to R204).
-/
namespace Sys2Proof.Machine

def HwQueue.empty : HwQueue := ⟨[], [], []⟩

def Swatch.queue (sw : Swatch) (n : Nat) : HwQueue := sw.hwq.getD n HwQueue.empty

def State.setQueue (s : State) (sid n : Nat) (q : HwQueue) : State :=
  s.modSwatch sid fun sw => { sw with hwq := sw.hwq.put n q }

/-- The wait of a weft is over: an item has reached a popper, or a pusher's item has entered the queue.
The item stands in the waiting state, saved or not (R201). -/
def State.serveWait (s : State) (sid wid n : Nat) (item : DWord) : State :=
  (s.modWeft sid wid fun w => { w with wait := w.wait.map fun x => { x with item := some item } }).wakeWeft
    sid wid 3 n 0

/-- Wefts that wait in QPEEK on a queue. -/
def Swatch.peekers (sw : Swatch) (n : Nat) : List Nat :=
  (sw.wefts.filter fun p => match p.2.wait with
    | some x => x.form == .qpeek n
    | none => false).map fun p => p.1

/-- One item enters a queue: to the oldest popper, else to the tail (R201). -/
def State.queuePush (s : State) (sid n : Nat) (q : HwQueue) (item : DWord) : State :=
  match q.poppers with
  | p :: ps => (s.setQueue sid n { q with poppers := ps }).serveWait sid p n item
  | [] =>
    let peek := ((s.swatch? sid).map fun sw => sw.peekers n).getD []
    peek.foldl (fun s w => s.wakeWeft sid w 3 n 0)
      (s.setQueue sid n { q with items := q.items ++ [item] })

/-- The head item leaves, and the oldest waiting pusher's item enters (R201). -/
def State.queuePop (s : State) (sid n : Nat) (q : HwQueue) : State :=
  match q.pushers with
  | (w, item) :: ps =>
    (s.setQueue sid n { q with items := q.items.drop 1 ++ [item], pushers := ps }).serveWait sid w n item
  | [] => s.setQueue sid n { q with items := q.items.drop 1 }

/-- The queue-fault trap (R200). -/
def Site.queueTrap (k : Site) (n : Nat) : Option Trap :=
  if k.sw.queues ≤ n then some (mkTrap 0x17 k.act (w32 n)) else none

/-- A .nb form writes p6 (R30). -/
def State.nbServed (s : State) (k : Site) (nb ok : Bool) : State := if nb then s.served k true ok else s

def execQpush (a : Src) (q : BitVec 4) (f nb : Bool) (s : State) : Out :=
  s.issue (.qpush a q f nb) fun k s =>
    let n := q.toNat
    let item := k.scalarPair a
    match k.queueTrap n with
    | some t => .trap s t
    | none =>
      match k.w.wait with
      | some x => if x.item.isSome then .done s else .wait s x.form 0
      | none =>
        let h := (s.swatchOf k).queue n
        if !h.poppers.isEmpty || h.items.length < Config.queueItems then
          .fly ((s.queuePush k.sid n h item).nbServed k nb true) k.flight
        else if nb then .fly (s.served k true false) k.flight
        else .wait (s.setQueue k.sid n { h with pushers := h.pushers ++ [(k.wid, item)] })
          (.qpush n item) 0

def execQpop (d : Dst) (q : BitVec 4) (f nb : Bool) (s : State) : Out :=
  s.issue (.qpop d q f nb) fun k s =>
    let n := q.toNat
    match k.queueTrap n with
    | some t => .trap s t
    | none =>
      match k.w.wait with
      | some x =>
        match x.item with
        | some i => .fly s (k.flyScalar d [loWord i, hiWord i])
        | none => .wait s x.form 0
      | none =>
        let h := (s.swatchOf k).queue n
        match h.items with
        | i :: _ => .fly ((s.queuePop k.sid n h).nbServed k nb true) (k.flyScalar d [loWord i, hiWord i])
        | [] =>
          if nb then .fly (s.served k true false) k.flight
          else .wait (s.setQueue k.sid n { h with poppers := h.poppers ++ [k.wid] }) (.qpop n) 0

def execQpeek (d : Dst) (q : BitVec 4) (f nb : Bool) (s : State) : Out :=
  s.issue (.qpeek d q f nb) fun k s =>
    let n := q.toNat
    match k.queueTrap n with
    | some t => .trap s t
    | none =>
      match ((s.swatchOf k).queue n).items with
      | i :: _ => .fly (s.nbServed k nb true) (k.flyScalar d [loWord i, hiWord i])
      | [] => if nb then .fly (s.served k true false) k.flight else .wait s (.qpeek n) 0

def execQlen (d : Dst) (q : BitVec 4) (f : Bool) (s : State) : Out :=
  s.issue (.qlen d q f) fun k s =>
    match k.queueTrap q.toNat with
    | some t => .trap s t
    | none => .fly s (k.flyScalar d [w32 ((s.swatchOf k).queue q.toNat).items.length])

/-! ## Tasks -/

/-- TSPAWN: the checks in order, then the tasks of the active lanes together (R203). -/
def execTspawn (a b : Src) (f : Bool) (s : State) : Out :=
  s.issue (.tspawn a b f) fun k s =>
    let word := w32 (Instr.tspawn a b f).wordNat
    match s.launches.get? k.sw.launch with
    | none => .trap s (mkTrap 0x07 k.act word)
    | some l =>
      let ls := lanesOf k.act
      let bad := ls.filter fun x => badTarget (s.codeSize k.sw.ctx) (k.val a x)
      if !l.roles.testBit 0 then .trap s (mkTrap 0x07 k.act word)
      else if !bad.isEmpty then
        .trap s ⟨0x04, maskOf fun x => bad.contains x, (k.val a (bad.headD 0)).setWidth 64, word, 0⟩
      else if Config.taskPool < l.pool.length + ls.length then
        .trap s (mkTrap 0x1B k.act (w32 l.pool.length))
      else
        .fly ((s.release k.core true).modLaunch k.sw.launch fun l => { l with
          pool := l.pool ++ ls.map fun x => ⟨k.sid, k.val a x, k.addr b x, k.clk.toNat⟩
          liveTasks := l.liveTasks + ls.length }) k.flight

def execTcount (d : Dst) (f : Bool) (s : State) : Out :=
  s.issue (.tcount d f) fun k s =>
    let n := ((s.launches.get? k.sw.launch).map fun l => l.liveTasks).getD 0
    .fly s (k.flyScalar d [w32 n])

end Sys2Proof.Machine
end

