-- ==== Sys2Proof/Machine/Dispatch.lean ====
section
/-! DEFINITION. The dispatcher: one arm for each constructor of Instr. -/

namespace Sys2Proof.Machine

def exec (i : Instr) (s : State) : Host.Outcome State Fault Refusal :=
  match i with
  | .bra c k => Sys2Proof.Machine.execBra c k s
  | .brx c k => Sys2Proof.Machine.execBrx c k s
  | .brz c k => Sys2Proof.Machine.execBrz c k s
  | .call c k => Sys2Proof.Machine.execCall c k s
  | .jmpi a => Sys2Proof.Machine.execJmpi a s
  | .exit c => Sys2Proof.Machine.execExit c s
  | .yield => Sys2Proof.Machine.execYield s
  | .winb s1 v => Sys2Proof.Machine.execWinb s1 v s
  | .ipref c k => Sys2Proof.Machine.execIpref c k s
  | .trap n => Sys2Proof.Machine.execTrap n s
  | .elect p => Sys2Proof.Machine.execElect p s
  | .csrr d c => Sys2Proof.Machine.execCsrr d c s
  | .csrw d c => Sys2Proof.Machine.execCsrw d c s
  | .eret => Sys2Proof.Machine.execEret s
  | .iadd d a b s1 u w => Sys2Proof.Machine.execIadd d a b s1 u w s
  | .isub d a b s1 u w => Sys2Proof.Machine.execIsub d a b s1 u w s
  | .imul d a b s1 u w => Sys2Proof.Machine.execImul d a b s1 u w s
  | .imulh d a b u w => Sys2Proof.Machine.execImulh d a b u w s
  | .imad d a b s1 u w => Sys2Proof.Machine.execImad d a b s1 u w s
  | .imin d a b u w => Sys2Proof.Machine.execImin d a b u w s
  | .imax d a b u w => Sys2Proof.Machine.execImax d a b u w s
  | .iabs d a s1 w => Sys2Proof.Machine.execIabs d a s1 w s
  | .ineg d a s1 w => Sys2Proof.Machine.execIneg d a s1 w s
  | .not d a w => Sys2Proof.Machine.execNot d a w s
  | .popc d a => Sys2Proof.Machine.execPopc d a s
  | .clz d a => Sys2Proof.Machine.execClz d a s
  | .brev d a => Sys2Proof.Machine.execBrev d a s
  | .sxb d a => Sys2Proof.Machine.execSxb d a s
  | .sxh d a => Sys2Proof.Machine.execSxh d a s
  | .zxb d a => Sys2Proof.Machine.execZxb d a s
  | .zxh d a => Sys2Proof.Machine.execZxh d a s
  | .ffs d a => Sys2Proof.Machine.execFfs d a s
  | .and d a b w => Sys2Proof.Machine.execAnd d a b w s
  | .or d a b w => Sys2Proof.Machine.execOr d a b w s
  | .xor d a b w => Sys2Proof.Machine.execXor d a b w s
  | .andn d a b w => Sys2Proof.Machine.execAndn d a b w s
  | .shl d a b w => Sys2Proof.Machine.execShl d a b w s
  | .shr d a b w => Sys2Proof.Machine.execShr d a b w s
  | .sra d a b w => Sys2Proof.Machine.execSra d a b w s
  | .rol d a b w => Sys2Proof.Machine.execRol d a b w s
  | .bfx d a b u => Sys2Proof.Machine.execBfx d a b u s
  | .bfi d a b => Sys2Proof.Machine.execBfi d a b s
  | .icmp p a b c => Sys2Proof.Machine.execIcmp p a b c s
  | .sel d a b inv p => Sys2Proof.Machine.execSel d a b inv p s
  | .lea d a b l s1 => Sys2Proof.Machine.execLea d a b l s1 s
  | .mov d a w => Sys2Proof.Machine.execMov d a w s
  | .iaddi d a k => Sys2Proof.Machine.execIaddi d a k s
  | .andi d a k => Sys2Proof.Machine.execAndi d a k s
  | .ori d a k => Sys2Proof.Machine.execOri d a k s
  | .xori d a k => Sys2Proof.Machine.execXori d a k s
  | .shli d a n => Sys2Proof.Machine.execShli d a n s
  | .shri d a n => Sys2Proof.Machine.execShri d a n s
  | .srai d a n => Sys2Proof.Machine.execSrai d a n s
  | .roli d a n => Sys2Proof.Machine.execRoli d a n s
  | .icmpi p a c k => Sys2Proof.Machine.execIcmpi p a c k s
  | .movi d k => Sys2Proof.Machine.execMovi d k s
  | .movhi d k => Sys2Proof.Machine.execMovhi d k s
  | .pand d a b => Sys2Proof.Machine.execPand d a b s
  | .por d a b => Sys2Proof.Machine.execPor d a b s
  | .pxor d a b => Sys2Proof.Machine.execPxor d a b s
  | .pandn d a b => Sys2Proof.Machine.execPandn d a b s
  | .pnot d a => Sys2Proof.Machine.execPnot d a s
  | .pmov d a => Sys2Proof.Machine.execPmov d a s
  | .p2v d => Sys2Proof.Machine.execP2v d s
  | .v2p a => Sys2Proof.Machine.execV2p a s
  | .fadd d a b r t => Sys2Proof.Machine.execFadd d a b r t s
  | .fsub d a b r t => Sys2Proof.Machine.execFsub d a b r t s
  | .fmul d a b r t => Sys2Proof.Machine.execFmul d a b r t s
  | .ffma d a b r t => Sys2Proof.Machine.execFfma d a b r t s
  | .fmin d a b t => Sys2Proof.Machine.execFmin d a b t s
  | .fmax d a b t => Sys2Proof.Machine.execFmax d a b t s
  | .fabs d a t => Sys2Proof.Machine.execFabs d a t s
  | .fneg d a t => Sys2Proof.Machine.execFneg d a t s
  | .frnd d a r t => Sys2Proof.Machine.execFrnd d a r t s
  | .fcls d a t => Sys2Proof.Machine.execFcls d a t s
  | .fexp d a t => Sys2Proof.Machine.execFexp d a t s
  | .fmant d a t => Sys2Proof.Machine.execFmant d a t s
  | .fcmp p a b w c => Sys2Proof.Machine.execFcmp p a b w c s
  | .fcvt d a x r s1 => Sys2Proof.Machine.execFcvt d a x r s1 s
  | .rcp d a => Sys2Proof.Machine.execRcp d a s
  | .rsq d a => Sys2Proof.Machine.execRsq d a s
  | .sqrt d a => Sys2Proof.Machine.execSqrt d a s
  | .ex2 d a => Sys2Proof.Machine.execEx2 d a s
  | .lg2 d a => Sys2Proof.Machine.execLg2 d a s
  | .sinpi d a => Sys2Proof.Machine.execSinpi d a s
  | .cospi d a => Sys2Proof.Machine.execCospi d a s
  | .tanh d a => Sys2Proof.Machine.execTanh d a s
  | .twosum d a b => Sys2Proof.Machine.execTwosum d a b s
  | .twoprod d a b => Sys2Proof.Machine.execTwoprod d a b s
  | .cmul d a b => Sys2Proof.Machine.execCmul d a b s
  | .cfma d a b => Sys2Proof.Machine.execCfma d a b s
  | .cacc d a => Sys2Proof.Machine.execCacc d a s
  | .fdiv d a b => Sys2Proof.Machine.execFdiv d a b s
  | .shfl d a b w m => Sys2Proof.Machine.execShfl d a b w m s
  | .voteAny d a inv => Sys2Proof.Machine.execVoteAny d a inv s
  | .voteAll d a inv => Sys2Proof.Machine.execVoteAll d a inv s
  | .voteBallot d a inv => Sys2Proof.Machine.execVoteBallot d a inv s
  | .voteUniform d a => Sys2Proof.Machine.execVoteUniform d a s
  | .scan d a e o => Sys2Proof.Machine.execScan d a e o s
  | .redw d a o => Sys2Proof.Machine.execRedw d a o s
  | .matchLanes d a w => Sys2Proof.Machine.execMatchLanes d a w s
  | .lget d a b w => Sys2Proof.Machine.execLget d a b w s
  | .prmt d a b => Sys2Proof.Machine.execPrmt d a b s
  | .lset d a b w => Sys2Proof.Machine.execLset d a b w s
  | .neg a b f c => Sys2Proof.Machine.execNeg a b f c s
  | .expo a b f u => Sys2Proof.Machine.execExpo a b f u s
  | .cexpo a b f u => Sys2Proof.Machine.execCexpo a b f u s
  | .had a b f c n h => Sys2Proof.Machine.execHad a b f c n h s
  | .accz a f u => Sys2Proof.Machine.execAccz a f u s
  | .accrdReg d a f => Sys2Proof.Machine.execAccrdReg d a f s
  | .accrdF32 a b f => Sys2Proof.Machine.execAccrdF32 a b f s
  | .accrdBf16 a b f => Sys2Proof.Machine.execAccrdBf16 a b f s
  | .accrdE4m3 a b f => Sys2Proof.Machine.execAccrdE4m3 a b f s
  | .accrdE5m2 a b f => Sys2Proof.Machine.execAccrdE5m2 a b f s
  | .accrdStat d a f => Sys2Proof.Machine.execAccrdStat d a f s
  | .accld a b f u m => Sys2Proof.Machine.execAccld a b f u m s
  | .negrel a f => Sys2Proof.Machine.execNegrel a f s
  | .ld d a b f s1 w => Sys2Proof.Machine.execLd d a b f s1 w s
  | .ldq d a b f => Sys2Proof.Machine.execLdq d a b f s
  | .st d a b f w => Sys2Proof.Machine.execSt d a b f w s
  | .stq d a b f => Sys2Proof.Machine.execStq d a b f s
  | .ldacq d a s1 f w => Sys2Proof.Machine.execLdacq d a s1 f w s
  | .strel d a s1 f w => Sys2Proof.Machine.execStrel d a s1 f w s
  | .atom d a o s1 f c w => Sys2Proof.Machine.execAtom d a o s1 f c w s
  | .cas d a s1 f c w => Sys2Proof.Machine.execCas d a s1 f c w s
  | .red d a o s1 f n y w => Sys2Proof.Machine.execRed d a o s1 f n y w s
  | .fence s1 f k => Sys2Proof.Machine.execFence s1 f k s
  | .watch a f => Sys2Proof.Machine.execWatch a f s
  | .watchClr f => Sys2Proof.Machine.execWatchClr f s
  | .waitw d f n => Sys2Proof.Machine.execWaitw d f n s
  | .pref a b w => Sys2Proof.Machine.execPref a b w s
  | .cctlWb a f => Sys2Proof.Machine.execCctlWb a f s
  | .cctlInv a f => Sys2Proof.Machine.execCctlInv a f s
  | .cctlDemote a f => Sys2Proof.Machine.execCctlDemote a f s
  | .cctlIinv f => Sys2Proof.Machine.execCctlIinv f s
  | .vld d a b f n l w => Sys2Proof.Machine.execVld d a b f n l w s
  | .vst d a b f n w => Sys2Proof.Machine.execVst d a b f n w s
  | .vfloor a b f => Sys2Proof.Machine.execVfloor a b f s
  | .vqry d a f => Sys2Proof.Machine.execVqry d a f s
  | .lds d a f m w => Sys2Proof.Machine.execLds d a f m w s
  | .sts d a f m w => Sys2Proof.Machine.execSts d a f m w s
  | .feget d a f => Sys2Proof.Machine.execFeget d a f s
  | .feset a f => Sys2Proof.Machine.execFeset a f s
  | .feclr a f => Sys2Proof.Machine.execFeclr a f s
  | .fewait a f e => Sys2Proof.Machine.execFewait a f e s
  | .atoms d a b f => Sys2Proof.Machine.execAtoms d a b f s
  | .splook d a f => Sys2Proof.Machine.execSplook d a f s
  | .sptag d a b f => Sys2Proof.Machine.execSptag d a b f s
  | .sptagInv d a f => Sys2Proof.Machine.execSptagInv d a f s
  | .spdesc d a f => Sys2Proof.Machine.execSpdesc d a f s
  | .spdescSet a b f => Sys2Proof.Machine.execSpdescSet a b f s
  | .shape d a b f => Sys2Proof.Machine.execShape d a b f s
  | .unshape b f => Sys2Proof.Machine.execUnshape b f s
  | .cpyin d a b f r => Sys2Proof.Machine.execCpyin d a b f r s
  | .cpyout d a b f r => Sys2Proof.Machine.execCpyout d a b f r s
  | .gather d a b f => Sys2Proof.Machine.execGather d a b f s
  | .stage d f => Sys2Proof.Machine.execStage d f s
  | .ctab d a b f => Sys2Proof.Machine.execCtab d a b f s
  | .cpyq d a f => Sys2Proof.Machine.execCpyq d a f s
  | .bar a f n s1 => Sys2Proof.Machine.execBar a f n s1 s
  | .bara d a f n s1 => Sys2Proof.Machine.execBara d a f n s1 s
  | .barw a f n s1 => Sys2Proof.Machine.execBarw a f n s1 s
  | .barq d f n s1 => Sys2Proof.Machine.execBarq d f n s1 s
  | .qpush a q f n => Sys2Proof.Machine.execQpush a q f n s
  | .qpop d q f n => Sys2Proof.Machine.execQpop d q f n s
  | .qpeek d q f n => Sys2Proof.Machine.execQpeek d q f n s
  | .qlen d q f => Sys2Proof.Machine.execQlen d q f s
  | .tspawn a b f => Sys2Proof.Machine.execTspawn a b f s
  | .tcount d f => Sys2Proof.Machine.execTcount d f s
  | .dlset a b => Sys2Proof.Machine.execDlset a b s
  | .dlstep a b => Sys2Proof.Machine.execDlstep a b s
  | .dlq d => Sys2Proof.Machine.execDlq d s
  | .dlend => Sys2Proof.Machine.execDlend s
  | .enrd d f => Sys2Proof.Machine.execEnrd d f s
  | .ensave d a f => Sys2Proof.Machine.execEnsave d a f s
  | .enload d a b f => Sys2Proof.Machine.execEnload d a b f s
  | .xperm d a b f => Sys2Proof.Machine.execXperm d a b f s
  | .xred d a f => Sys2Proof.Machine.execXred d a f s
  | .xbc d a f => Sys2Proof.Machine.execXbc d a f s
  | .xag d a f => Sys2Proof.Machine.execXag d a f s
  | .frent d a => Sys2Proof.Machine.execFrent d a s
  | .frentLanes d => Sys2Proof.Machine.execFrentLanes d s
  | .frsetPc d a => Sys2Proof.Machine.execFrsetPc d a s
  | .frsetPark d => Sys2Proof.Machine.execFrsetPark d s
  | .frsetUnpark d => Sys2Proof.Machine.execFrsetUnpark d s
  | .halt a => Sys2Proof.Machine.execHalt a s
  | .haltResume a => Sys2Proof.Machine.execHaltResume a s
  | .tlbinv d a l => Sys2Proof.Machine.execTlbinv d a l s
  | .quiesce d a => Sys2Proof.Machine.execQuiesce d a s
  | .quiesceStop d a => Sys2Proof.Machine.execQuiesceStop d a s
  | .ctxswap d a => Sys2Proof.Machine.execCtxswap d a s
  | .vreg d a => Sys2Proof.Machine.execVreg d a s
  | .vunreg d a => Sys2Proof.Machine.execVunreg d a s
  | .pgattr d a => Sys2Proof.Machine.execPgattr d a s
  | .clauseSelect sid wid => Sys2Proof.Machine.execClauseSelect sid wid s
  | .boundaryTrap sid wid => Sys2Proof.Machine.execBoundaryTrap sid wid s
  | .longLatencyCompletion sid wid ix => Sys2Proof.Machine.execLongLatencyCompletion sid wid ix s
  | .weftSlotRelease sid wid => Sys2Proof.Machine.execWeftSlotRelease sid wid s
  | .icacheFill cl ctx line => Sys2Proof.Machine.execIcacheFill cl ctx line s
  | .pollingClassification sid wid => Sys2Proof.Machine.execPollingClassification sid wid s
  | .hangRecord sid wid => Sys2Proof.Machine.execHangRecord sid wid s
  | .fullEmptyRetest sid => Sys2Proof.Machine.execFullEmptyRetest sid s
  | .unitArrival sid sc n => Sys2Proof.Machine.execUnitArrival sid sc n s
  | .wakeMessage core => Sys2Proof.Machine.execWakeMessage core s
  | .wakeRecord core => Sys2Proof.Machine.execWakeRecord core s
  | .swatchPlacement sid core => Sys2Proof.Machine.execSwatchPlacement sid core s
  | .swatchRelease sid => Sys2Proof.Machine.execSwatchRelease sid s
  | .bagChoice core => Sys2Proof.Machine.execBagChoice core s
  | .bagTimeslice core => Sys2Proof.Machine.execBagTimeslice core s
  | .weftSave sid wid => Sys2Proof.Machine.execWeftSave sid wid s
  | .weftLoad sid wid => Sys2Proof.Machine.execWeftLoad sid wid s
  | .swatchRotation sid => Sys2Proof.Machine.execSwatchRotation sid s
  | .copyJobBegin core job => Sys2Proof.Machine.execCopyJobBegin core job s
  | .copyLineFull core job => Sys2Proof.Machine.execCopyLineFull core job s
  | .copyJobCompletion core job => Sys2Proof.Machine.execCopyJobCompletion core job s
  | .copyJobAbort core job => Sys2Proof.Machine.execCopyJobAbort core job s
  | .exposureCompletion sid wid ix => Sys2Proof.Machine.execExposureCompletion sid wid ix s
  | .writeBufferDrain core sector => Sys2Proof.Machine.execWriteBufferDrain core sector s
  | .firmwareCopyCompletion core job => Sys2Proof.Machine.execFirmwareCopyCompletion core job s
  | .clusterWake cl sid => Sys2Proof.Machine.execClusterWake cl sid s
  | .taskGather launch => Sys2Proof.Machine.execTaskGather launch s
  | .launchPacket ctx q => Sys2Proof.Machine.execLaunchPacket ctx q s
  | .graphPacket ctx q => Sys2Proof.Machine.execGraphPacket ctx q s
  | .waitPacket ctx q => Sys2Proof.Machine.execWaitPacket ctx q s
  | .signalPacket ctx q => Sys2Proof.Machine.execSignalPacket ctx q s
  | .copyPacket ctx q => Sys2Proof.Machine.execCopyPacket ctx q s
  | .qbarrierPacket ctx q => Sys2Proof.Machine.execQbarrierPacket ctx q s
  | .fencePacket ctx q => Sys2Proof.Machine.execFencePacket ctx q s
  | .waitRetest ctx q => Sys2Proof.Machine.execWaitRetest ctx q s
  | .launchCompletion launch => Sys2Proof.Machine.execLaunchCompletion launch s
  | .graphNodeCompletion run node => Sys2Proof.Machine.execGraphNodeCompletion run node s
  | .quiesceMarkerReturn core => Sys2Proof.Machine.execQuiesceMarkerReturn core s
  | .remoteWrite die => Sys2Proof.Machine.execRemoteWrite die s
  | .updateApply die ix => Sys2Proof.Machine.execUpdateApply die ix s
  | .floorMessage region die => Sys2Proof.Machine.execFloorMessage region die s
  | .floorPoint region => Sys2Proof.Machine.execFloorPoint region s
  | .taskGatherTimeout launch => Sys2Proof.Machine.execTaskGatherTimeout launch s
  | .clockRestart cl ticks => Sys2Proof.Machine.execClockRestart cl ticks s
  | .collectiveCompletion die op => Sys2Proof.Machine.execCollectiveCompletion die op s
  | .illegalInstruction word => Sys2Proof.Machine.execIllegalInstruction word s
  | .griudbBreakpoint sid wid => Sys2Proof.Machine.execGriudbBreakpoint sid wid s
  | .wakeComplete cl => Sys2Proof.Machine.execWakeComplete cl s
  | .gatingComplete cl => Sys2Proof.Machine.execGatingComplete cl s
  | .collectivePrepareDone die op verdict => Sys2Proof.Machine.execCollectivePrepareDone die op verdict s
  | .cpgo cl => Sys2Proof.Machine.execCpgo cl s
  | .spsize die pages => Sys2Proof.Machine.execSpsize die pages s
  | .governorEvaluation cl => Sys2Proof.Machine.execGovernorEvaluation cl s
  | .gatingStart cl => Sys2Proof.Machine.execGatingStart cl s
  | .droopThrottle cl => Sys2Proof.Machine.execDroopThrottle cl s
  | .energyPeriodEnd cl => Sys2Proof.Machine.execEnergyPeriodEnd cl s
  | .watchFire sector => Sys2Proof.Machine.execWatchFire sector s
  | .evpop cl => Sys2Proof.Machine.execEvpop cl s
  | .evqStatusClear cl => Sys2Proof.Machine.execEvqStatusClear cl s
  | .staggerExpiry sid => Sys2Proof.Machine.execStaggerExpiry sid s
  | .ballastInterval cl exposures => Sys2Proof.Machine.execBallastInterval cl exposures s
  | .capEvaluation watts => Sys2Proof.Machine.execCapEvaluation watts s
  | .versionWaiterWake region sector => Sys2Proof.Machine.execVersionWaiterWake region sector s
  | .tailWrite ctx q tail => Sys2Proof.Machine.execTailWrite ctx q tail s
  | .queueAging ctx q => Sys2Proof.Machine.execQueueAging ctx q s
  | .ecodeClear ctx q => Sys2Proof.Machine.execEcodeClear ctx q s
  | .eventRingHeadAdvance ctx head => Sys2Proof.Machine.execEventRingHeadAdvance ctx head s
  | .ptabLo die value => Sys2Proof.Machine.execPtabLo die value s
  | .flitReceive port flit => Sys2Proof.Machine.execFlitReceive port flit s
  | .portRetrain port => Sys2Proof.Machine.execPortRetrain port s
  | .msgRead msg => Sys2Proof.Machine.execMsgRead msg s
  | .msgReadData msg => Sys2Proof.Machine.execMsgReadData msg s
  | .msgWrite msg => Sys2Proof.Machine.execMsgWrite msg s
  | .msgWriteAck msg => Sys2Proof.Machine.execMsgWriteAck msg s
  | .msgAtomic msg => Sys2Proof.Machine.execMsgAtomic msg s
  | .msgAtomicResult msg => Sys2Proof.Machine.execMsgAtomicResult msg s
  | .msgBarrierArrival msg => Sys2Proof.Machine.execMsgBarrierArrival msg s
  | .msgWake msg => Sys2Proof.Machine.execMsgWake msg s
  | .msgCollective msg => Sys2Proof.Machine.execMsgCollective msg s
  | .msgVersionControl msg => Sys2Proof.Machine.execMsgVersionControl msg s
  | .msgMigration msg => Sys2Proof.Machine.execMsgMigration msg s
  | .mxfer die value => Sys2Proof.Machine.execMxfer die value s
  | .migrationDone die status => Sys2Proof.Machine.execMigrationDone die status s
  | .mctl die value => Sys2Proof.Machine.execMctl die value s
  | .fretryClear die => Sys2Proof.Machine.execFretryClear die s
  | .cecntClear unit => Sys2Proof.Machine.execCecntClear unit s
  | .correctedError unit cl => Sys2Proof.Machine.execCorrectedError unit cl s
  | .unitFence u => Sys2Proof.Machine.execUnitFence u s
  | .railFault => Sys2Proof.Machine.execRailFault s
  | .resetRelease rep => Sys2Proof.Machine.execResetRelease rep s
  | .watchdogExpiry stage => Sys2Proof.Machine.execWatchdogExpiry stage s
  | .startComplete => Sys2Proof.Machine.execStartComplete s
  | .fscClear => Sys2Proof.Machine.execFscClear s
  | .attestationReport nonce => Sys2Proof.Machine.execAttestationReport nonce s
  | .griudbResume ctx => Sys2Proof.Machine.execGriudbResume ctx s
  | .portTrained port gen => Sys2Proof.Machine.execPortTrained port gen s
  | .standbyPowerLoss => Sys2Proof.Machine.execStandbyPowerLoss s
  | .nop => Sys2Proof.Machine.execNop s

end Sys2Proof.Machine
end

