-- ==== Sys2Proof/Machine/Schedule.lean ====
section
/-!
DEFINITION. Which step comes next when no move is given from outside: an event whose condition has
come about, else the issue choice of R162; and how an issue step reads its word.
-/
namespace Sys2Proof.Machine

/-! ## Reading the word at a weft's pc -/

/-- The instruction at an entry's pc of its clause, from the cached words (R11, R16, R26); a word that is
none is kept as such. -/
def State.wordAt (s : State) (clu : Nat) (ctx : Word) (e : Entry) (cl : Clause) : Instr :=
  let ws := (s.clauseWords clu ctx e.hdr.toNat (clauseLen cl.h0)).drop
    (((e.pc - e.hdr).toNat - 8) / 4)
  match ws with
  | w :: ls =>
    match decodeRaw w.toNat ls with
    | .ok (i, _) => i
    | .error _ => .illegalInstruction w
  | [] => .illegalInstruction 0

/-- What a weft does when it is its turn (R101, R104): it repeats a wait that an event has ended, reads a
missing code line, begins its next clause, or issues the word at its pc. -/
inductive Turn
  | run (i : Instr)
  | select
  | fetch (cl : Nat) (ctx : Word) (line : Nat)
  | fault (cause addr : Nat) (e : Entry)
  | rest
  deriving DecidableEq, Repr

/-- A clause stands or is to be selected at this entry: what its code lines need. -/
def State.fetchTurn (s : State) (sw : Swatch) (e : Entry) (go : Turn) : Turn :=
  match s.missingLine sw.clu sw.ctx e.hdr.toNat with
  | none => go
  | some line =>
    match s.fetchFault sw.clu sw.ctx e.hdr.toNat line with
    | some (c, a) => .fault c a e
    | none => .fetch sw.clu sw.ctx line

def State.turnOf (s : State) (sw : Swatch) (w : Weft) : Turn :=
  match w.wait with
  | some x => if x.woken || s.haltOver x.form then .run x.instr else .rest
  | none =>
    match w.clause with
    | some cl =>
      match w.frontier with
      | e :: _ => s.fetchTurn sw e (.run (s.wordAt sw.clu sw.ctx e cl))
      | [] => .rest
    | none =>
      match sortFrontier w.frontier with
      | e :: _ =>
        if badTarget (s.codeSize sw.ctx) e.hdr then .select else s.fetchTurn sw e .select
      | [] => .rest

/-! ## The issue choice (R162) -/

/-- The weft sleeps as a classified poller with a single entry (R238). -/
def Weft.sleeping (w : Weft) : Bool :=
  w.loupe.polling && w.frontier.length == 1 && !w.loupe.fired && w.clause.isNone && !w.trapMode

/-- The swatch's first issue is deferred (R280). -/
def State.deferred (s : State) (sw : Swatch) : Bool :=
  match sw.deferTo with
  | some t => decide (2 ^ 63 ≤ ((s.cluster sw.clu).clk + 2 ^ 64 - t) % 2 ^ 64)
  | none => false

/-- The cores of the cluster have power (R278): a control core needs none of it. -/
def Cluster.powered (c : Cluster) : Bool :=
  match c.gating with
  | .off => false
  | .waking _ _ => false
  | _ => true

/-- A context halted by HALT has its wefts marked; other stops are the swatch's, the core's and the
cluster's. -/
def State.mayIssue (s : State) (sw : Swatch) (w : Weft) : Bool :=
  let stopped := match sw.core? with
    | some c => (s.core c).stopped
    | none => false
  w.canIssue && sw.onCore && !s.deferred sw && (s.cluster sw.clu).clock == .running &&
    (s.cluster sw.clu).powered &&
    !((w.atRest || w.wait.isSome) && (stopped || s.ctxHalted sw.ctx || s.griudbStopped sw.ctx)) &&
    !(w.atRest && (w.leaving.isSome || w.sleeping)) && !s.atBreak sw w &&
    (match w.wait with
      | some x => x.woken || s.haltOver x.form
      | none =>
        match w.clause, w.frontier with
        | some cl, e :: _ => cl.tested || w.waitMet e cl.h0
        | some _, [] => false
        | none, fr => !fr.isEmpty)

/-- The code line that the weft's next word misses (R162, R261). -/
def State.missedLine (s : State) (sw : Swatch) (w : Weft) : Option Nat :=
  match s.turnOf sw w with
  | .fetch _ _ line => some line
  | _ => none

/-- The word at the pc is held by a register dependence (R105). -/
def State.held (s : State) (sid wid : Nat) (sw : Swatch) (w : Weft) : Bool :=
  match w.wait, w.clause, w.frontier with
  | none, some cl, e :: _ =>
    (s.siteAt sid wid sw w e cl).interlocked (s.wordAt sw.clu sw.ctx e cl)
  | _, _, _ => false

/-- A ready weft: quadrant, row of R162, ready age and slot. -/
structure Ready where
  sid : Nat
  wid : Nat
  quad : Nat
  row : Nat
  age : Nat
  slot : Nat
  deriving DecidableEq, Repr

def State.readyOf (s : State) (sid wid : Nat) (sw : Swatch) (w : Weft) : Option Ready :=
  if !s.mayIssue sw w || s.held sid wid sw w || (s.missedLine sw w).isSome then none
  else
    let q := w.quad?.getD 0
    let slot := match w.place with
      | .slot _ i => i
      | .absent => 0
    let quad := match sw.core? with
      | some c => 4 * c + q
      | none => 1000 + sw.clu
    let age := s.turn - w.readySince
    let risk := (((s.cluster sw.clu).deadlines.get? sw.ctx.toNat).map fun d =>
      d.opened && d.risk).getD false
    let recent := match sw.core? with
      | some c => (s.core c).recent.get? q == some (sid, wid)
      | none => false
    let row := if w.trapMode then 1 else if risk then 2 else if Config.issueAge ≤ age then 3
      else if recent then 4 else 5
    some ⟨sid, wid, quad, row, age, slot⟩

/-- Within a quadrant: the earlier row, then the greater age, then the lower slot. -/
def Ready.before (a b : Ready) : Bool :=
  decide (a.row < b.row) || (a.row == b.row &&
    (decide (b.age < a.age) || (a.age == b.age && decide (a.slot ≤ b.slot))))

/-- The choice of each quadrant. -/
def quadWinners (rs : List Ready) : List Ready :=
  rs.foldl (fun ws r =>
    if ws.any fun w => w.quad == r.quad then
      ws.map fun w => if w.quad = r.quad then (if r.before w then r else w) else w
    else ws ++ [r]) []

/-- One weft issues in a step: of the quadrants' choices the one that has waited longest. -/
def State.chooseWeft (s : State) : Option (Nat × Nat) :=
  let rs := s.swatches.flatMap fun p => p.2.wefts.filterMap fun q => s.readyOf p.1 q.1 p.2 q.2
  match quadWinners rs with
  | [] => none
  | r :: ws =>
    let b := ws.foldl (fun b w => if b.age < w.age then w else b) r
    some (b.sid, b.wid)

/-! ## Events whose condition has come about -/

/-- A stop of the cluster clock freezes its wefts and engines together (R106, R276). -/
def State.clockRuns (s : State) (clu : Nat) : Bool := (s.cluster clu).clock == .running

/-- The swatch stands on a core that is not stopped, in a context that is not halted. -/
def State.mayAct (s : State) (sw : Swatch) : Bool :=
  sw.onCore && !s.ctxHalted sw.ctx && !(sw.core?.any fun c => (s.core c).stopped)

/-- Events of one weft. -/
def State.weftEvent (s : State) (sid wid : Nat) (sw : Swatch) (w : Weft) : Option Instr :=
  let trap := s.mayAct sw && w.pend.any && w.trapPoint
  match w.flights.findIdx? fun f => s.flightReady sid f with
  | some ix => some (.longLatencyCompletion sid wid ix)
  | none =>
    match w.flights.findIdx? fun f => f.kind.exposes.isSome with
    | some ix => some (.exposureCompletion sid wid ix)
    | none =>
      if w.ended && sw.onCore && w.place != .absent && w.flagsZero && w.flights.isEmpty then
        some (.weftSlotRelease sid wid)
      else if trap then some (.boundaryTrap sid wid)
      else if w.loupe.tracking && !w.loupe.polling && 8 ≤ w.loupe.count then
        some (.pollingClassification sid wid)
      else if Config.safelightLimit ≤ w.safelight && !w.hangPosted && !w.ended then
        some (.hangRecord sid wid)
      else if s.atBreak sw w && !s.griudbStopped sw.ctx then some (.griudbBreakpoint sid wid)
      else if s.saveDue sw w then some (.weftSave sid wid)
      else if s.mayIssue sw w && (s.cluster sw.clu).away.all fun a => a.answer.isSome then
        (s.missedLine sw w).map fun line => .icacheFill sw.clu sw.ctx line
      else none

/-- A partial count that has fallen due (R228). -/
def State.dueArrival (s : State) (sid : Nat) (sw : Swatch) : Option Instr :=
  [BarScope.bo, .ba, .rl].findSome? fun sc =>
    (List.range 32).findSome? fun n =>
      if (levelsOf sc).any fun lv => (s.part sid sw lv sc n).due.isSome then some (.unitArrival sid sc n)
      else none

/-- Events of one swatch: lines that its waiters wait for, and its release. -/
def State.swatchEvent (s : State) (sid : Nat) (sw : Swatch) : Option Instr :=
  if !s.clockRuns sw.clu then none
  else if sw.wefts.any fun q => s.feReady sid q.1 sw q.2 then some (.fullEmptyRetest sid)
  else if s.releaseDue sid sw then some (.swatchRelease sid)
  else s.dueArrival sid sw

/-- Events of one core: wakes, its copy jobs, and the bag. -/
def State.coreEvent (s : State) (c : Nat) (k : Core) : Option Instr :=
  if !s.clockRuns (clusterOfCore c) then none
  else if !k.wakeMsgs.isEmpty then some (.wakeMessage c)
  else if !k.wakeQ.isEmpty then some (.wakeRecord c)
  else
    (s.jobEvent c k).or
      (if s.incomingFits c then k.incoming.map fun x => .weftLoad x.1 x.2
      else if !s.bagFree c then none
      else if (s.bagRow c).isSome then some (.bagChoice c)
      else if (s.bagRow4 c).isSome then some (.bagTimeslice c)
      else none)

/-- Clusters that some launch waits for or that some swatch stands in. -/
def State.busyClusters (s : State) : List Nat :=
  dedup (s.swatches.filterMap fun p => match p.2.place with
    | .waiting => some p.2.cluster
    | .saved _ => some p.2.cluster
    | _ => none)

/-- The distributor's turn in a cluster (R157, R240, R278). -/
def State.placeEvent (s : State) (cl : Nat) : Option Instr :=
  if !s.clockRuns cl then none
  else match s.dispatch? cl with
  | some (sid, core) =>
    match (s.cluster cl).gating with
    | .on => some (.swatchPlacement sid core)
    | .off => some (.clusterWake cl sid)
    | _ => none
  | none => (s.rotation? cl).map fun sid => .swatchRotation sid

/-- The clock and the gate of a cluster (R276 to R278): a stop, a gating and a wake end. -/
def State.clusterEvent (s : State) (cl : Nat) (c : Cluster) : Option Instr :=
  if c.clock != .running then some (.clockRestart cl (s.tim / 10 - c.stopAt / 10))
  else
    match c.gating with
    | .starting => some (.gatingComplete cl)
    | .waking _ t => if s.wakeOver t then some (.wakeComplete cl) else none
    | .off => none
    | .on => none

/-- A launch that is over, or whose tasks form a weft (R358, R362). -/
def State.launchEvent (s : State) (lid : Nat) (l : Launch) : Option Instr :=
  if l.finished then some (.launchCompletion lid)
  else
    match l.node with
    | some (run, node) =>
      if l.done && (s.graphs.get? run).isSome then some (.graphNodeCompletion run node) else none
    | none =>
      let here := fun (x : Option (Nat × Word)) => x.any fun y => (s.swatch? y.1).isSome
      if here (l.gather? fun _ n => decide (32 ≤ n)) then some (.taskGather lid)
      else if here (l.gather? fun t _ => s.taskLate t) then some (.taskGatherTimeout lid)
      else none

/-- A floor on its way in a region (R335): dies of this package acknowledge in their turn, another package's by
a message. -/
def Region.floorEvent (key : Nat) (r : Region) : Option Instr :=
  match r.pendFloors with
  | [] => none
  | p :: ps =>
    if (p :: ps).any fun x => x.await.isEmpty then some (.floorPoint key)
    else (((p :: ps).flatMap fun x => x.await).find? fun d => decide (d < 4)).map fun d => .floorMessage key d

/-- A held packet whose condition holds, or the next packet of a front end (R351, R352). -/
def State.frontEvent (s : State) : Option Instr :=
  ((s.queues.find? fun x => (s.ctx? x.ctx).isSome && s.retestDue x).map fun x => Instr.waitRetest x.ctx x.q).or
    ([0, 1, 2, 3].findSome? fun d => s.packetEvent d)

/-- Slower work that the machine turns to when no weft can issue: drains (R248), writes on their way
(R318) and updates (R319). -/
def State.idleEvent (s : State) : Option Instr :=
  (s.cores.findSome? fun p => if !s.clockRuns (clusterOfCore p.1) then none
    else (p.2.wbuf.head?).map fun e => Instr.writeBufferDrain p.1 e.sector).or
    ((s.dies.findSome? fun p => if p.2.out.isEmpty then none else some (Instr.remoteWrite p.1)).or
      (s.dies.findSome? fun p =>
        (p.2.notices.findIdx? fun n => p.2.mayApply n).map fun ix => Instr.updateApply p.1 ix))

/-- Every `Config.slowEvery`-th turn slower work does not wait for the wefts (R248, log 1). -/
def State.slowDue (s : State) : Option Instr :=
  if s.turn % Config.slowEvery = 0 then s.idleEvent else none

/-- The first event whose condition has come about. -/
def State.enabledEvent (s : State) : Option Instr :=
  (s.swatches.findSome? fun p => if !s.clockRuns p.2.clu then none
    else p.2.wefts.findSome? fun q => s.weftEvent p.1 q.1 p.2 q.2).or
    ((s.cores.findSome? fun p => s.coreEvent p.1 p.2).or
      ((s.swatches.findSome? fun p => s.swatchEvent p.1 p.2).or
        ((s.markerDue.map Instr.quiesceMarkerReturn).or
          (((s.clusters.findSome? fun p => s.clusterEvent p.1 p.2).or
              (s.busyClusters.findSome? fun c => s.placeEvent c)).or
            ((s.launches.findSome? fun p => s.launchEvent p.1 p.2).or
              ((s.regions.findSome? fun p => p.2.floorEvent p.1).or
                (s.collDue.or (s.frontEvent.or s.slowDue))))))))

/-! ## A turn -/

/-- Time passes, for the queues' timers too (R351). -/
def State.pass (s : State) (ns cycles : Nat) : State :=
  let t := s.elapse ns cycles
  t.ageQueues ((t.tim + 2 ^ 64 - s.tim) % 2 ^ 64)

/-- An issue step, and a step in which nothing can move, take time that the model leaves free (log 9). -/
def State.tick (s : State) : State :=
  let n := s.free
  ({ s with free := n + 1 } : State).pass (Config.issueNanos n) (Config.issueCycles n)

/-- A weft's turn is noted: its ready age begins again and it is its quadrant's most recent (R162); its stall counters
have advanced by amounts that the model leaves free (R107, log 9). -/
def State.noteTurn (s : State) (sid wid : Nat) : State :=
  match s.swatch? sid, s.weft? sid wid with
  | some sw, some w =>
    let s := s.modWeft sid wid fun w => { w with
      readySince := s.turn, slip := (w.slip + Config.slipCycles s.free) % 2 ^ 64
      dstall := (w.dstall + Config.stallCycles s.free) % 2 ^ 64 }
    let s := match sw.core?, w.quad? with
      | some c, some q => s.modCore c fun k => { k with recent := k.recent.put q (sid, wid), before := k.recent }
      | _, _ => s
    { s.tick with issuer := some (sid, wid) }
  | _, _ => s

/-! ## The beat of the machine -/

/-- Ages stand: the cluster clock is stopped, or `griudb` holds the context (R231, R245). -/
def State.frozen (s : State) (sw : Swatch) : Bool := !s.clockRuns sw.clu || s.griudbStopped sw.ctx

/-- A weft's stamps at a new turn: they move on with it while the ages stand, and its ready age begins again
while it is not ready (R162, R231, R245). -/
def State.beatWeft (s : State) (sid wid : Nat) (sw : Swatch) (w : Weft) : Weft :=
  if s.frozen sw then
    { w with
      readySince := w.readySince + 1, candSince := w.candSince + 1, runSince := w.runSince + 1
      resSince := w.resSince + 1 }
  else if (s.readyOf sid wid sw w).isSome then w
  else { w with readySince := s.turn }

/-- A new turn. -/
def State.beat (s : State) : State :=
  let s := { s with turn := s.turn + 1 }
  { s with swatches := s.swatches.map fun p =>
      (p.1, { p.2 with wefts := p.2.wefts.map fun q => (q.1, s.beatWeft p.1 q.1 p.2 q.2) }) }

/-! ## Catches (R245) -/

/-- Some weft of the context, in a swatch of index `swi` if one is named, changed so. -/
def State.anyWeft (s t : State) (ctx : Word) (swi : Option Nat) (p : Weft → Weft → Bool) : Bool :=
  s.swatches.any fun x => x.2.ctx == ctx && (swi.isNone || swi == some x.2.swi) &&
    x.2.wefts.any fun q => ((t.weft? x.1 q.1).map fun w => p q.2 w).getD false

/-- A barrier's phase changed in a swatch or a launch of the context. -/
def barMoved (a b : Tab BarRec) (n : Nat) : Bool :=
  ((a.get? n).map fun r => r.phase).getD 0 != ((b.get? n).map fun r => r.phase).getD 0

/-- The event of a catch has been applied between two states. -/
def Catch.fired (c : Catch) (ctx : Word) (s t : State) : Bool :=
  match c with
  | .save => s.anyWeft t ctx none fun a b => a.place != .absent && b.place == .absent && !b.ended
  | .polling swi => s.anyWeft t ctx (some swi) fun a b => !a.loupe.polling && b.loupe.polling
  | .trap => s.anyWeft t ctx none fun a b => !a.trapMode && b.trapMode
  | .wake swi => s.cores.any fun p => match p.2.wakeQ with
    | r :: _ => decide ((t.core p.1).wakeQ.length < p.2.wakeQ.length) &&
        (s.swatch? r.sid).any fun sw => sw.ctx == ctx && sw.swi == swi
    | [] => false
  | .phase sc n => s.swatches.any (fun x => x.2.ctx == ctx && sc == .sw &&
        ((t.swatch? x.1).any fun y => barMoved x.2.bars y.bars n)) ||
      s.launches.any fun l => l.2.ctx == ctx && sc != .sw &&
        ((t.launches.get? l.1).any fun m => l.2.bars.any fun r =>
          r.1 / 32 / 2 ^ 40 == sc.ix && r.1 % 32 == n && barMoved l.2.bars m.bars r.1)

/-- A catch stops its context after its event has been applied. -/
def State.caught (s t : State) : State :=
  (s.pkg.catches.filter fun x => x.2.fired x.1 s t).foldl (fun t x => t.stopCtx x.1) t

end Sys2Proof.Machine
end

