-- ==== Sys2Proof/Machine/Step.lean ====
section
/-!
DEFINITION. One step of the machine: the move at the head of the agenda, else an event whose condition
has come about, else a record that an event ring has room for, else the weft that the issue choice selects, else slower work, else time alone passes. And the
state in which the very next step runs a given word.
-/
namespace Sys2Proof.Machine

/-- A weft's turn: what stands at its pc goes to `exec`. -/
def State.turn_ (s : State) (sid wid : Nat) : Host.Outcome State Fault Refusal :=
  match s.swatch? sid, s.weft? sid wid with
  | some sw, some w =>
    if !s.mayIssue sw w then .next s
    else
      match s.turnOf sw w with
      | .run i => exec i (s.noteTurn sid wid)
      | .select => exec (.clauseSelect sid wid) { s.tick with issuer := none }
      | .fetch cl ctx line => exec (.icacheFill cl ctx line) s
      | .fault c a e => .next (s.takeTrap sid wid ⟨c, e.mask, w64 a, 2, 0⟩ e.pc)
      | .rest => .next s
  | _, _ => .next s

/-- A move given from outside. -/
def State.move (s : State) : Move → Host.Outcome State Fault Refusal
  | .event i => exec i { s with issuer := none }
  | .issue sid wid => s.turn_ sid wid
  | .elapse ns cycles => .next (s.pass ns cycles)
  | .hostWrite => .next s.hostWrite
  | .periodEnd c => execEnergyPeriodEnd c s
  | .govern c => execGovernorEvaluation c s
  | .gate c => execGatingStart c s
  | .ballast c x => execBallastInterval c x s
  | .dropTlb c => .next (s.modCore c fun k => { k with tlb := [] })
  | .dropLine cl line => .next (if (s.cluster cl).icache.any fun l => l.line == line then
      (s.modCluster cl fun k => { k with icache := k.icache.filter fun l => l.line != line }).correctedError 6 cl
      else s)
  | .dropCopy d sec => .next (s.modDie d fun x => { x with copies := x.copies.del sec })
  | .corrupt sec => .next { s with bad := insNat sec s.bad }
  | .corruptSpad sid sec => .next (s.modSwatch sid fun sw => { sw with
      spadBad := insNat sec sw.spadBad })
  | .corruptTile sid tile => .next (s.corruptTile sid tile)
  | .corruptNeg sid slot => .next (s.corruptNeg sid slot)
  | .corruptImage sid wid vs ss other => .next (s.corruptImage sid wid vs ss other)
  | .boardLimit w => .next (s.boardLimit w)
  | .openDebug digest => .next (s.openDebug digest)
  | .rollVerdict ctx q num ok => .next (s.rollVerdict ctx q num ok)
  | .rollJoin part lrec cmask num => .next (s.rollJoin part lrec cmask num)
  | .rollReport lid => .next (s.rollReport lid)
  | .rollBaleEnds lid bale => .next (s.rollBaleEnds lid bale)
  | .stateArrives die t => .next (s.modPkg fun p => { p with landed := p.landed.put die t })
  | .setBreak ctx pc => .next (s.modPkg fun p => { p with breaks := p.breaks ++ [(ctx, pc)] })
  | .delBreak ctx pc => .next (s.modPkg fun p => { p with breaks := p.breaks.filter fun x => x != (ctx, pc) })
  | .setCatch ctx c => .next (s.modPkg fun p => { p with catches := p.catches ++ [(ctx, c)] })
  | .delCatch ctx c => .next (s.modPkg fun p => { p with catches := p.catches.filter fun x => x != (ctx, c) })

/-- What moves at a turn, once the turn has begun. -/
def State.act (s : State) : Host.Outcome State Fault Refusal :=
  match s.agenda with
  | m :: ms => ({ s with agenda := ms } : State).move m
  | [] =>
    match s.enabledEvent with
    | some i => exec i { s with issuer := none }
    | none =>
      match s.ringDue with
      | some (ctx, head) => execEventRingHeadAdvance ctx head s
      | none =>
        match s.chooseWeft with
        | some (sid, wid) => s.turn_ sid wid
        | none =>
          match s.idleEvent with
          | some i => exec i { s with issuer := none }
          | none => if s.pkg.hostRmw.isEmpty then .next s.tick else .next s.hostWrite

/-- One step: a new turn, its move, and the stops of the catches whose event it was. -/
def step (s : State) : Host.Outcome State Fault Refusal :=
  match s.beat.act with
  | .next t => .next (s.beat.caught t)
  | x => x

/-- Header of a clause of `n` words that lets both set slots be used: f0 and f1. -/
def fetchHeader (n : Nat) : Word := w32 (2 ^ 24 + 2 ^ 20 + 2 ^ 19 + (n - 1))

/-- The state in which the very next step issues the instruction whose bits are `w`, its missing literal
words zero: a system context whose code segment starts with one clause that holds the instruction
alone, that code cached in cluster 0, and a launch with one swatch of one general weft, placed on
core 0, standing at that instruction with all 32 lanes (log 13). -/
def State.withFetchWord (s : State) (nbits w : Nat) : State :=
  let x := w % 2 ^ nbits
  let lits := literalCount (x % 2 ^ 32)
  let words := (List.range 14).map fun j => if j ≤ lits then w32 (x / 2 ^ (32 * j)) else 0
  let h0 := fetchHeader (1 + lits)
  let weft := Weft.init .general 0 0 0xFFFFFFFF false false 256 192 s.turn none
  let weft := { weft with
    place := .slot 0 0, started := true, topMask := 0xFFFFFFFF
    frontier := [⟨8, 0, 0, 0xFFFFFFFF, false⟩], clause := some ⟨h0, 0, true⟩ }
  let sid := s.nextSid
  { s with
    ctxs := s.ctxs.put 1 { part := 0, sys := true, root := 0, code := 0, csize := 4096, qtab := 0, nq := 1
                           ering := 0, elsize := 4, gen := 0, spBase := 0, spPages := 0, savedSum := 0
                           savedSat := false, spLo := none, spHi := none, halted := false }
    launches := s.launches.put s.nextLaunch (Launch.plain 1 256 32)
    swatches := s.swatches.put sid { Swatch.plain 1 s.nextLaunch with
      place := .placed 0 0, wefts := [(0, weft)] }
    clusters := s.clusters.put 0 { s.cluster 0 with
      deadlines := [(1, Deadline.empty)], accounts := [⟨1, 0, false, false, false⟩]
      icache := [⟨1, 0, h0 :: 0 :: words⟩], clock := .running, gating := .on }
    nextSid := sid + 1
    nextLaunch := s.nextLaunch + 1
    agenda := [.issue sid 0] }

end Sys2Proof.Machine
end

