-- ==== Sys2Proof/Safety.lean ====
section
/-!
DEFINITION. What counts as a safe run and the terms in which statements speak of one step: when an
instruction issues, what it leaves of the weft, of its swatch and of the rest of the machine, and how
a result is read back.
-/
namespace Sys2Proof

open Sys2Proof.Machine

/-- The step answers a next state. -/
def Steps (s t : State) : Prop := step s = .next t

/-- A state that `n` steps lead to. -/
def reaches : Nat → State → State → Prop
  | 0, s, t => s = t
  | n + 1, s, t => ∃ u, Steps s u ∧ reaches n u t

/-- The run goes on for `n` steps. -/
def safeFor : Nat → State → Prop
  | 0, _ => True
  | n + 1, s => ∃ t, Steps s t ∧ safeFor n t

/-- Memory is in its canonical form (log 6). -/
def MemInv (s : State) : Prop := Memory.wf s.mem = true

namespace Machine

/-! ## An instruction issues -/

/-- The weft of the step stands at `i` and does not wait, its clause's wait test is met (R104), no trap
of R35 precedes the effect, no interlock holds the word (R103, R105, R215, R216), and neither a freed, a
poisoned nor a budget-breaking register (R109, R112, R122) nor a bad fall-through (R126) traps. -/
structure Issues (s : State) (i : Instr) (k : Site) : Prop where
  site : s.site? = some k
  noWait : k.w.wait = none
  tested : k.cl.tested = true ∨ k.w.waitMet k.e k.cl.h0 = true
  static : k.staticTrap i = none
  free : k.interlocked i = false
  regs : k.registerTrap i = none
  fall : k.fallTrap s i = none

/-- The weft without what an issue itself moves (the place in the code, the reuse latch, the loupe's
notes, the frd mark, answers of other packages, the lanes a replay skips) and without its registers and their map, predicates and fstat. -/
def Weft.rest (w : Weft) : Weft :=
  { w with
    vregs := [], sregs := [], preds := [], vpoison := [], spoison := [], fstat := 0, frd := false
    clause := none, frontier := [], latch := [], loupe := Loupe.idle, replay := [], vmap := [], smap := []
    away := [], trec := { w.trec with tdone := 0 } }

/-- The cluster without its energy accounts, the ballast injector's sums and the issue counts of its deadline steps. -/
def Cluster.rest (c : Cluster) : Cluster :=
  { c with accounts := [], unattr := 0, deadlines := [], ballast := ⟨[], [], 0, 0, none⟩ }

/-- From `s` to `t` nothing changed but the issuing weft, now `w`, and the charge of one issue. -/
structure OnlyWeft (s t : State) (k : Site) (w : Weft) : Prop where
  weft : t.weft? k.sid k.wid = some w
  rest : { t with swatches := s.swatches, clusters := s.clusters } = s
  wefts : ∀ sid wid, (sid, wid) ≠ (k.sid, k.wid) → t.weft? sid wid = s.weft? sid wid
  swatch : ∀ sid, (t.swatch? sid).map (fun x => { x with wefts := [] }) =
    (s.swatch? sid).map fun x => { x with wefts := [] }
  clusters : ∀ c, c ≠ k.clu → t.cluster c = s.cluster c
  cluster : (t.cluster k.clu).rest = (s.cluster k.clu).rest

/-- Every register keeps its contents and its marks but those written and those whose last use this
word is, which are freed where they had been written (R110). -/
structure RegsKept (k : Site) (i : Instr) (w : Weft) : Prop where
  vreg : ∀ n, Reg.v n ∉ k.w.writes i.use → Reg.v n ∉ k.frees k.w i →
    w.vregs.get? n = k.w.vregs.get? n ∧ w.vpoison.get? n = k.w.vpoison.get? n
  sreg : ∀ n, Reg.s n ∉ k.w.writes i.use → Reg.s n ∉ k.frees k.w i →
    w.sregs.get? n = k.w.sregs.get? n ∧ w.spoison.get? n = k.w.spoison.get? n
  freed : ∀ r, r ∈ k.frees k.w i → k.w.allocated r = true → w.isFreed r = true

/-- Word j of a destination in a lane, as the weft holds it (R27, R28, R50). -/
def Site.after (k : Site) (w : Weft) (d : Dst) (j l : Nat) : Word :=
  match d with
  | .v n => laneAt (w.vget (16 * k.w.vwin + n.val + j)) l
  | .s n => w.sget (16 * k.w.swin + n.val + j)

/-- The result `f` stands in a group of `g` registers of the destination: lane by lane in the active
lanes, or the lowest active lane's once for a scalar destination (R28); the other lanes keep what they
held (R73); and fstat collects the bits of the lanes that computed (R47, R48). -/
structure Result (k : Site) (w : Weft) (d : Dst) (g : Nat) (f : Nat → List Word)
    (bit : Nat → FBits) : Prop where
  value : ∀ l, l ∈ k.lanesFor d → ∀ j, j < g → k.after w d j l = (f l).getD j 0
  others : ∀ n, d = .v n → ∀ l, l < 32 → k.act.getLsbD l = false → ∀ j, j < g →
    k.after w d j l = k.after k.w d j l
  fstat : ∀ b, b < 6 → w.fstat.getLsbD b =
    (k.w.fstat.getLsbD b || (k.lanesFor d).any fun l => (bit l).getLsbD b)

/-- One predicate has taken new values in the active lanes and kept the others'; no other moved (R73). -/
structure PredResult (k : Site) (w : Weft) (p : PReg) (f : Nat → Bool) : Prop where
  value : ∀ l, l < 32 → (w.pred p.val).getLsbD l =
    if k.act.getLsbD l then f l else (k.w.pred p.val).getLsbD l
  others : ∀ q, q ≠ p.val → w.pred q = k.w.pred q

/-- The weft stands at `i`, does not wait, and its clause's wait test is met. -/
structure Stands (s : State) (k : Site) : Prop where
  site : s.site? = some k
  noWait : k.w.wait = none
  tested : k.cl.tested = true ∨ k.w.waitMet k.e k.cl.h0 = true

/-- A waiting instruction is tested again at its weft's turn (R8, R104): its clause has been tested, and no trap and no
interlock precedes its effect. -/
structure Resumes (s : State) (i : Instr) (k : Site) (x : Wait) : Prop where
  site : s.site? = some k
  waits : k.w.wait = some x
  same : x.instr = i
  clause : k.w.clause = some k.cl
  tested : k.cl.tested = true
  static : k.staticTrap i = none
  free : k.interlocked i = false
  regs : k.registerTrap i = none
  fall : k.fallTrap s i = none

/-- The lanes of the entry that stay have moved to `f`, each to an entry at its target; every other
entry's lanes stand where they stood; no entry holds a lane from nowhere (R102). -/
structure Regrouped (k : Site) (w : Weft) (stay : Nat → Bool) (f : Nat → Word) : Prop where
  boundary : w.clause = none ∧ w.latch = []
  moved : ∀ l, l < 32 → k.e.mask.getLsbD l = true → stay l = true →
    ∃ e ∈ w.frontier, e.mask.getLsbD l = true ∧ e.pc = f l
  kept : ∀ e0 ∈ k.w.frontier.tail, ∀ l, l < 32 → e0.mask.getLsbD l = true →
    ∃ e ∈ w.frontier, e.mask.getLsbD l = true ∧ e.pc = e0.pc
  only : ∀ e ∈ w.frontier, ∀ l, l < 32 → e.mask.getLsbD l = true →
    (k.e.mask.getLsbD l = true ∧ stay l = true ∧ e.pc = f l) ∨
      ∃ e0 ∈ k.w.frontier.tail, e0.mask.getLsbD l = true ∧ e.pc = e0.pc

/-- The word is over: the entry stands at the next word of its clause, or all its lanes have moved to
the next clause header (R16, R102). -/
def Advanced (k : Site) (i : Instr) (w : Weft) : Prop :=
  if clauseLen k.cl.h0 ≤ k.pos + 1 + i.lits.length then Regrouped k w (fun _ => true) fun _ => codeOffset k.fallTo
  else w.clause = some { k.cl with tested := true } ∧
    w.frontier = { k.e with pc := k.e.pc + BitVec.ofNat 32 (4 * (1 + i.lits.length)) } :: k.w.frontier.tail

/-- A precise trap taken in user mode (R114, R115): the record, the handler's frontier, both windows zero,
trap mode; the weft's registers, predicates, flags, lanes and in-flight instructions stand as they were,
and nothing else changed. -/
structure TrapTaken (s t : State) (k : Site) (x : Trap) (w : Weft) : Prop where
  only : OnlyWeft s t k w
  mode : w.trapMode = true
  record : w.trec = { k.w.trec with
    tcause := BitVec.ofNat 32 x.cause, tpc := k.e.pc, tlanes := x.lanes
    tdone := x.done ||| (k.e.mask &&& ~~~k.act), taddr := x.addr, tinfo := x.info
    twinV := k.w.vwin, twinS := k.w.swin, tfst := k.w.fstat
    snap := { k.e with barWait := false } :: k.w.frontier.tail }
  handler : ∃ m, w.frontier = [⟨s.trapvec k.sw, s.trapvec k.sw, 127, m, false⟩] ∧
    ∀ l, m.getLsbD l = k.w.frontier.any fun e => e.mask.getLsbD l
  windows : w.vwin = 0 ∧ w.swin = 0 ∧ w.latch = [] ∧ w.clause = none ∧ w.wait = none
  kept : w.vregs = k.w.vregs ∧ w.sregs = k.w.sregs ∧ w.preds = k.w.preds ∧ w.flags = k.w.flags ∧
    w.flights = k.w.flights ∧ w.parked = k.w.parked ∧ w.exited = k.w.exited ∧ w.fstat = k.w.fstat ∧
    w.vpoison = k.w.vpoison ∧ w.spoison = k.w.spoison ∧ w.pend = k.w.pend

/-- The instruction takes the trap: entry to the handler in user mode. -/
def Traps (s : State) (i : Instr) (k : Site) (x : Trap) : Prop :=
  k.w.trapMode = false → ∃ t w, exec i s = .next t ∧ TrapTaken s t k x w

/-- A long-latency instruction has begun as the flight `f` (R103): its set slot's flag counts one more, no
other flag moves, the registers it will write are allocated, no register's contents move, and the entry is at the next word. -/
structure Begins (k : Site) (i : Instr) (w : Weft) (f : Flight) : Prop where
  slot : (i.use.slot.bind fun b => slotFlag k.cl.h0 b) = some f.flag
  count : ∀ g, w.flag g = k.w.flag g + if g = f.flag then 1 else 0
  flights : w.flights = k.w.flights ++ [f]
  regs : RegsKept k i w
  next : Advanced k i w

/-- The word a flight will write to a register in a lane; none where it writes none. -/
def Flight.at (f : Flight) (r : Reg) (l : Nat) : Option Word :=
  match r with
  | .v n => (f.vwr.find? fun x => x.1 == n).bind fun x => if x.2.1.getLsbD l then some (laneAt x.2.2 l) else none
  | .s n => (f.swr.find? fun x => x.1 == n).map fun x => x.2

/-- Register j of a destination. -/
def Site.dstReg (k : Site) (d : Dst) (j : Nat) : Reg :=
  match d with
  | .v n => .v (16 * k.w.vwin + n.val + j)
  | .s n => .s (16 * k.w.swin + n.val + j)

/-- A flight carries the result `v` to a group of `g` registers of the destination, in the active lanes, and
writes nothing else; until it completes those registers are allocated (R103, R105, R109). -/
structure Carries (k : Site) (w : Weft) (f : Flight) (d : Dst) (g : Nat) (v : Nat → List Word) : Prop where
  value : ∀ l, l ∈ k.lanesFor d → ∀ j, j < g → f.at (k.dstReg d j) l = some ((v l).getD j 0)
  others : ∀ r, (∀ j, j < g → r ≠ k.dstReg d j) → ∀ l, f.at r l = none
  inactive : ∀ n, d = .v n → ∀ r l, l < 32 → k.act.getLsbD l = false → f.at r l = none
  held : k.act ≠ 0 → ∀ j, j < g → w.allocated (k.dstReg d j) = true

/-- A waiting instruction has its destinations allocated from its issue on, and changes no register's contents and no
other register (R109). -/
structure Reserves (k : Site) (i : Instr) (w : Weft) : Prop where
  vreg : ∀ n, Reg.v n ∉ k.w.writes i.use → w.vregs.get? n = k.w.vregs.get? n
  sreg : ∀ n, Reg.s n ∉ k.w.writes i.use → w.sregs.get? n = k.w.sregs.get? n
  value : ∀ n, w.vget n = k.w.vget n ∧ w.sget n = k.w.sget n
  held : k.act ≠ 0 → ∀ r ∈ k.w.writes i.use, w.allocated r = true

/-- The word is held back: the step goes on, and the weft stands at it with its registers, predicates, flags and flights as
they were. -/
def HeldBack (s : State) (i : Instr) (k : Site) : Prop :=
  ∃ t w, exec i s = .next t ∧ t.weft? k.sid k.wid = some w ∧ w.vregs = k.w.vregs ∧ w.sregs = k.w.sregs ∧
    w.preds = k.w.preds ∧ w.fstat = k.w.fstat ∧ w.flags = k.w.flags ∧ w.flights = k.w.flights ∧
    w.frontier = k.e :: k.w.frontier.tail

/-- A flight that writes no register, or one that only ends its flag count. -/
def Plain (f : Flight) : Prop := f.vwr = [] ∧ f.swr = [] ∧ f.poison = none ∧ f.fst = 0 ∧ f.kind = .plain

/-- The weft is as it was but for its place in the code, its registers, its flags and its flights. -/
def OnlyFlight (k : Site) (w : Weft) : Prop :=
  { w.rest with flags := [], flights := [] } = { k.w.rest with flags := [], flights := [] }

/-- From `s` to `t` the issuing weft is now `w`, no other weft, swatch, launch, context or region has
changed, and no byte of memory: only caches, translations, write buffers and the messages that fill them. -/
structure CachesOnly (s t : State) (k : Site) (w : Weft) : Prop where
  weft : t.weft? k.sid k.wid = some w
  mem : t.mem = s.mem ∧ t.bad = s.bad
  rest : { t with swatches := s.swatches, cores := s.cores, clusters := s.clusters, dies := s.dies, pkg := s.pkg } = s
  wefts : ∀ sid wid, (sid, wid) ≠ (k.sid, k.wid) → t.weft? sid wid = s.weft? sid wid
  swatch : ∀ sid, (t.swatch? sid).map (fun x => { x with wefts := [] }) =
    (s.swatch? sid).map fun x => { x with wefts := [] }

/-- From `s` to `t` nothing has changed outside the issuing weft, now `w`, and its swatch, now `u`, but what the swatch's
other wefts watch, wake records and the charge of one issue. -/
structure OnlySwatch (s t : State) (k : Site) (w : Weft) (u : Swatch) : Prop where
  weft : t.weft? k.sid k.wid = some w
  swatch : t.swatch? k.sid = some u
  rest : { t with swatches := s.swatches, cores := s.cores, clusters := s.clusters } = s
  others : ∀ sid, sid ≠ k.sid → t.swatch? sid = s.swatch? sid
  clusters : ∀ c, (t.cluster c).rest = (s.cluster c).rest
  regs : ∀ wid x, wid ≠ k.wid → s.weft? k.sid wid = some x → ∃ y, t.weft? k.sid wid = some y ∧ y.vregs = x.vregs ∧
    y.sregs = x.sregs ∧ y.preds = x.preds ∧ y.frontier = x.frontier ∧ y.flags = x.flags

/-- A virtual address translates and its page admits the access, by the tables and by every TLB entry that
covers it (R313 to R315). -/
structure Mapped (s : State) (k : Site) (acc : Acc) (va : DWord) (x : Trans) : Prop where
  walk : s.walkPa k.sw.ctx va.toNat = .ok x
  admits : pageAdmits acc x.leaf = true
  tlb : ∀ e, e ∈ (s.cluster k.clu).tlb ∨ (∃ c, k.core = some c ∧ e ∈ (s.core c).tlb) →
    e.covers k.sw.ctx (va.toNat % 2 ^ 57) = true → mkTrans e.leaf.toNat e.shift (va.toNat % 2 ^ 57) = x

/-- A byte in the write buffer of the issuing core. -/
def State.buffered (s : State) (k : Site) (a : Nat) : Option Byte :=
  k.core.bind fun c => ((s.core c).wbuf.find? fun e => e.sector == sectorOf a).bind fun e => e.bytes.get? (a % 32)

/-- The words of a 32-bit and of a 64-bit result, low word first (R50). -/
def words32 (x : Word) : List Word := [x]

def words64 (x : DWord) : List Word := [x.setWidth 32, (x >>> 32).setWidth 32]

end Machine
end Sys2Proof
end

