-- ==== Sys2Proof/Certificates/Slice0/Obligations.lean ====
section
/-!
DEFINITION. The statements for the provers, from the numbered rules of the spec, family by family, and
the tables of results they speak of, written from the rules and not from the meanings. A statement made
of parts is the conjunction of the parts defined before it.
-/
open Sys2Proof Sys2Proof.Machine

namespace Sys2Proof.Claim

/-! ## Register results: what a table of results says of an instruction -/

/-- A destination, the registers of its group, and per lane the words and the fstat bits. -/
structure RegSpec where
  d : Dst
  g : Nat
  words : Nat → List Word
  bits : Nat → FBits

/-- The instruction completes with the result of its row, and nothing else moves. -/
def Completes (s : State) (i : Instr) (k : Site) (r : RegSpec) : Prop :=
  ∃ t w, exec i s = .next t ∧ OnlyWeft s t k w ∧ w.rest = k.w.rest ∧ w.preds = k.w.preds ∧
    RegsKept k i w ∧ Result k w r.d r.g r.words r.bits

/-- A 32-bit result that sets no fstat bit. -/
def row32 (d : Dst) (f : Nat → Word) : Option RegSpec := some ⟨d, 1, fun l => [f l], fun _ => 0⟩

/-- A 64-bit result, low word first, that sets no fstat bit. -/
def row64 (d : Dst) (f : Nat → DWord) : Option RegSpec := some ⟨d, 2, fun l => words64 (f l), fun _ => 0⟩

/-! ## Integer arithmetic (R75, R76) -/

/-- The range of a signed or unsigned type of W bits. -/
def rangeLo (W : Nat) (u : Bool) : Int := if u then 0 else -(2 : Int) ^ (W - 1)
def rangeHi (W : Nat) (u : Bool) : Int := if u then (2 : Int) ^ W - 1 else (2 : Int) ^ (W - 1) - 1

/-- The exact result t is out of range and .sat asks for the nearest end (R51, R75). -/
def saturates (W : Nat) (u sat : Bool) (t : Int) : Bool :=
  sat && (decide (t < rangeLo W u) || decide (rangeHi W u < t))

def delivered (W : Nat) (u sat : Bool) (t : Int) : Int :=
  if saturates W u sat t then (if t < rangeLo W u then rangeLo W u else rangeHi W u) else t

/-- A source read as a signed W-bit number, or unsigned under .u. -/
def operand (k : Site) (a : Src) (u w64 : Bool) (l : Nat) : Int :=
  if w64 then (if u then ((k.dword a u l).toNat : Int) else (k.dword a u l).toInt)
  else if u then ((k.val a l).toNat : Int) else (k.val a l).toInt

/-- One row of R75: the exact result t from x, y and z, delivered modulo 2^W. -/
def arith (k : Site) (d : Dst) (a b : Src) (sat u w64 : Bool) (t : Int → Int → Int → Int) : Option RegSpec :=
  let W := if w64 then 64 else 32
  let x := fun l => t (operand k a u w64 l) (operand k b u w64 l) (operand k d.toSrc u w64 l)
  some ⟨d, if w64 then 2 else 1,
    fun l => if w64 then words64 (BitVec.ofInt 64 (delivered W u sat (x l)))
      else [BitVec.ofInt 32 (delivered W u sat (x l))],
    fun l => if saturates W u sat (x l) then 32 else 0⟩

def integerRow (k : Site) : Instr → Option RegSpec
  | .iadd d a b sat u w => arith k d a b sat u w fun x y _ => x + y
  | .isub d a b sat u w => arith k d a b sat u w fun x y _ => x - y
  | .imul d a b sat u w => arith k d a b sat u w fun x y _ => x * y
  | .imulh d a b u w => arith k d a b false u w fun x y _ => Int.fdiv (x * y) ((2 : Int) ^ (if w then 64 else 32))
  | .imad d a b sat u w => arith k d a b sat u w fun x y z => x * y + z
  | .imin d a b u w => arith k d a b false u w fun x y _ => if x ≤ y then x else y
  | .imax d a b u w => arith k d a b false u w fun x y _ => if x ≤ y then y else x
  | _ => none

/-- The set bits of a word, rising. -/
def setBits (x : Word) : List Nat := (List.range 32).filter fun i => x.getLsbD i

def unaryRow (k : Site) : Instr → Option RegSpec
  | .iabs d a sat w => arith k d a a sat false w fun x _ _ => if 0 ≤ x then x else -x
  | .ineg d a sat w => arith k d a a sat false w fun x _ _ => -x
  | .not d a w => if w then row64 d fun l => ~~~k.dword a false l else row32 d fun l => ~~~k.val a l
  | .popc d a => row32 d fun l => BitVec.ofNat 32 (setBits (k.val a l)).length
  | .clz d a => row32 d fun l => BitVec.ofNat 32 ((List.range 32).takeWhile fun i => !(k.val a l).getLsbD (31 - i)).length
  | .brev d a => row32 d fun l => (k.val a l).reverse
  | .sxb d a => row32 d fun l => ((k.val a l).setWidth 8).signExtend 32
  | .sxh d a => row32 d fun l => ((k.val a l).setWidth 16).signExtend 32
  | .zxb d a => row32 d fun l => k.val a l &&& 0xFF
  | .zxh d a => row32 d fun l => k.val a l &&& 0xFFFF
  | .ffs d a => row32 d fun l =>
    match (setBits (k.val a l)).head? with
    | some i => BitVec.ofNat 32 i
    | none => 0xFFFFFFFF
  | _ => none

/-! ## Logic, shifts, fields, immediates and moves (R77 to R79, R81 to R83, R85) -/

def logicRow (k : Site) : Instr → Option RegSpec
  | .and d a b w => if w then row64 d fun l => k.dword a false l &&& k.dword b false l
    else row32 d fun l => k.val a l &&& k.val b l
  | .or d a b w => if w then row64 d fun l => k.dword a false l ||| k.dword b false l
    else row32 d fun l => k.val a l ||| k.val b l
  | .xor d a b w => if w then row64 d fun l => k.dword a false l ^^^ k.dword b false l
    else row32 d fun l => k.val a l ^^^ k.val b l
  | .andn d a b w => if w then row64 d fun l => k.dword a false l &&& ~~~k.dword b false l
    else row32 d fun l => k.val a l &&& ~~~k.val b l
  | .shl d a b w => if w then row64 d fun l => k.dword a false l <<< ((k.val b l).setWidth 6).toNat
    else row32 d fun l => k.val a l <<< ((k.val b l).setWidth 5).toNat
  | .shr d a b w => if w then row64 d fun l => k.dword a false l >>> ((k.val b l).setWidth 6).toNat
    else row32 d fun l => k.val a l >>> ((k.val b l).setWidth 5).toNat
  | .sra d a b w => if w then row64 d fun l => (k.dword a false l).sshiftRight ((k.val b l).setWidth 6).toNat
    else row32 d fun l => (k.val a l).sshiftRight ((k.val b l).setWidth 5).toNat
  | .rol d a b w => if w then row64 d fun l => (k.dword a false l).rotateLeft ((k.val b l).setWidth 6).toNat
    else row32 d fun l => (k.val a l).rotateLeft ((k.val b l).setWidth 5).toNat
  | _ => none

/-- Position and length of a bit field, cut at bit 31 (R78). -/
def pos (b : Word) : Nat := (b.setWidth 5).toNat
def len (b : Word) : Nat := min ((b >>> 8).setWidth 5).toNat (32 - pos b)

def fieldRow (k : Site) : Instr → Option RegSpec
  | .bfx d a b u => row32 d fun l =>
    let n := len (k.val b l)
    let f := (k.val a l >>> pos (k.val b l)).setWidth n
    if u then f.setWidth 32 else f.signExtend 32
  | .bfi d a b => row32 d fun l =>
    let n := len (k.val b l)
    let p := pos (k.val b l)
    let m : Word := (BitVec.allOnes n).setWidth 32 <<< p
    (k.val a l <<< p &&& m) ||| (k.val d.toSrc l &&& ~~~m)
  | _ => none

def immediateRow (k : Site) : Instr → Option RegSpec
  | .iaddi d a n => row32 d fun l => k.val a l + n.signExtend 32
  | .andi d a n => row32 d fun l => k.val a l &&& n.signExtend 32
  | .ori d a n => row32 d fun l => k.val a l ||| n.signExtend 32
  | .xori d a n => row32 d fun l => k.val a l ^^^ n.signExtend 32
  | .shli d a n => row32 d fun l => k.val a l <<< n.toNat
  | .shri d a n => row32 d fun l => k.val a l >>> n.toNat
  | .srai d a n => row32 d fun l => (k.val a l).sshiftRight n.toNat
  | .roli d a n => row32 d fun l => (k.val a l).rotateLeft n.toNat
  | .movi d n => row32 d fun _ => n.signExtend 32
  | .movhi d n => row32 d fun l => (n.setWidth 32 <<< 14) ||| (k.val d.toSrc l &&& 0x3FFF)
  | _ => none

def moveRow (k : Site) : Instr → Option RegSpec
  | .sel d a b inv p => row32 d fun l =>
    if (k.w.pred p.val).getLsbD l ^^ inv then k.val a l else k.val b l
  | .lea d a b l64 sh =>
    if l64 then row64 d fun l => k.dword a false l + ((k.val b l).signExtend 64 <<< sh.toNat)
    else row32 d fun l => k.val a l + (k.val b l <<< sh.toNat)
  | .mov d a w => if w then row64 d fun l => k.dword a false l else row32 d fun l => k.val a l
  | .p2v d => row32 d fun l => BitVec.ofNat 32
    (((List.range 8).map fun p => if (k.w.pred p).getLsbD l then 2 ^ p else 0).foldl (fun x y => x + y) 0)
  | _ => none

/-! ## Predicates (R80, R84, R85) -/

def holds (c : Cond) (x y : Word) : Bool :=
  match c with
  | .eq => decide (x = y)
  | .ne => decide (x ≠ y)
  | .lt => decide (x.toInt < y.toInt)
  | .le => decide (x.toInt ≤ y.toInt)
  | .gt => decide (y.toInt < x.toInt)
  | .ge => decide (y.toInt ≤ x.toInt)
  | .ltu => decide (x.toNat < y.toNat)
  | .leu => decide (x.toNat ≤ y.toNat)
  | .gtu => decide (y.toNat < x.toNat)
  | .geu => decide (y.toNat ≤ x.toNat)

/-- The predicate written and its value per lane. -/
def predRow (k : Site) : Instr → Option (PReg × (Nat → Bool))
  | .icmp p a b c => some (p, fun l => holds c (k.val a l) (k.val b l))
  | .icmpi p a c n => some (p, fun l => holds c (k.val a l) (n.signExtend 32))
  | .pand d a b => some (d, fun l => (k.w.pred a.val).getLsbD l && (k.w.pred b.val).getLsbD l)
  | .por d a b => some (d, fun l => (k.w.pred a.val).getLsbD l || (k.w.pred b.val).getLsbD l)
  | .pxor d a b => some (d, fun l => (k.w.pred a.val).getLsbD l ^^ (k.w.pred b.val).getLsbD l)
  | .pandn d a b => some (d, fun l => (k.w.pred a.val).getLsbD l && !(k.w.pred b.val).getLsbD l)
  | .pnot d a => some (d, fun l => !(k.w.pred a.val).getLsbD l)
  | .pmov d a => some (d, fun l => (k.w.pred a.val).getLsbD l)
  | _ => none

/-! ## Floating point (R55, R86 to R98) -/

/-- An element operation applied to a type's elements (R55): one FP32 value, two packed halves each computed
alone with their bits ORed, or an FP64 pair. -/
def elements (k : Site) (t : FType) (d : Dst) (a b : Src) (f : Fmt → Nat → Nat → Nat → FRes) : Option RegSpec :=
  let half := fun (m : Fmt) (l : Nat) (h : Nat) =>
    f m ((k.val a l >>> (16 * h)).setWidth 16).toNat ((k.val b l >>> (16 * h)).setWidth 16).toNat
      ((k.val d.toSrc l >>> (16 * h)).setWidth 16).toNat
  let packed := fun (m : Fmt) => some (RegSpec.mk d 1
    (fun l => [BitVec.ofNat 16 (half m l 1).1 ++ BitVec.ofNat 16 (half m l 0).1])
    (fun l => (half m l 0).2 ||| (half m l 1).2))
  match t with
  | .f32 =>
    let r := fun l => f fp32 (k.val a l).toNat (k.val b l).toNat (k.val d.toSrc l).toNat
    some ⟨d, 1, fun l => [BitVec.ofNat 32 (r l).1], fun l => (r l).2⟩
  | .f16x2 => packed fp16
  | .bf16x2 => packed bf16
  | .f64 =>
    let r := fun l => f fp64 (k.f64 a l) (k.f64 b l) (k.f64 d.toSrc l)
    some ⟨d, 2, fun l => words64 (BitVec.ofNat 64 (r l).1), fun l => (r l).2⟩

def floatRow (k : Site) : Instr → Option RegSpec
  | .fadd d a b r t => elements k t d a b fun m x y _ => m.add r x y
  | .fsub d a b r t => elements k t d a b fun m x y _ => m.sub r x y
  | .fmul d a b r t => elements k t d a b fun m x y _ => m.mul r x y
  | .ffma d a b r t => elements k t d a b fun m x y z => m.fma r x y z
  | .fmin d a b t => elements k t d a b fun m x y _ => m.minmax false x y
  | .fmax d a b t => elements k t d a b fun m x y _ => m.minmax true x y
  | .frnd d a r t => elements k t d a a fun m x _ _ => m.toIntegral r x
  | .fmant d a t => elements k t d a a fun m x _ _ => m.mantissa x
  | .fabs d a t =>
    match t with
    | .f32 => row32 d fun l => k.val a l &&& 0x7FFFFFFF
    | .f64 => row64 d fun l => BitVec.ofNat 64 (k.f64 a l) &&& 0x7FFFFFFFFFFFFFFF
    | _ => row32 d fun l => k.val a l &&& 0x7FFF7FFF
  | .fneg d a t =>
    match t with
    | .f32 => row32 d fun l => k.val a l ^^^ 0x80000000
    | .f64 => row64 d fun l => BitVec.ofNat 64 (k.f64 a l) ^^^ 0x8000000000000000
    | _ => row32 d fun l => k.val a l ^^^ 0x80008000
  | _ => none

/-- FCLS and FEXP write one register, a 16-bit result in each half of a packed type (R89). -/
def narrow (k : Site) (t : FType) (d : Dst) (a : Src) (f : Fmt → Nat → Nat → FRes) : Option RegSpec :=
  let half := fun (m : Fmt) (l : Nat) (h : Nat) => f m 16 ((k.val a l >>> (16 * h)).setWidth 16).toNat
  let packed := fun (m : Fmt) => some (RegSpec.mk d 1
    (fun l => [BitVec.ofNat 16 (half m l 1).1 ++ BitVec.ofNat 16 (half m l 0).1])
    (fun l => (half m l 0).2 ||| (half m l 1).2))
  match t with
  | .f32 => some ⟨d, 1, fun l => [BitVec.ofNat 32 (f fp32 32 (k.val a l).toNat).1], fun l => (f fp32 32 (k.val a l).toNat).2⟩
  | .f16x2 => packed fp16
  | .bf16x2 => packed bf16
  | .f64 => some ⟨d, 1, fun l => [BitVec.ofNat 32 (f fp64 32 (k.f64 a l)).1], fun l => (f fp64 32 (k.f64 a l)).2⟩

def classRow (k : Site) : Instr → Option RegSpec
  | .fcls d a t => narrow k t d a fun m _ x => (m.classify x, 0)
  | .fexp d a t => narrow k t d a fun m w x => m.exponent w x
  | _ => none

/-- One FP32 value from one or two (R93, R94). -/
def single (k : Site) (d : Dst) (a b : Src) (f : Nat → Nat → FRes) : Option RegSpec :=
  some ⟨d, 1, fun l => [BitVec.ofNat 32 (f (k.val a l).toNat (k.val b l).toNat).1],
    fun l => (f (k.val a l).toNat (k.val b l).toNat).2⟩

/-- The sign bit of an FP32 encoding inverted, exactly. -/
def flip (x : Nat) : Nat := x ^^^ 0x80000000

/-- Two FP32 parts, the second in the odd register (R65, R66). -/
def pairOf (d : Dst) (f : Nat → Nat × Nat × FBits) : Option RegSpec :=
  some ⟨d, 2, fun l => [BitVec.ofNat 32 (f l).1, BitVec.ofNat 32 (f l).2.1], fun l => (f l).2.2⟩

/-- One part of CACC, step by step (R98): TWOSUM, RN(lo + e), TWOSUM; nx and uf only for the rounding of lo + e,
of when a TWOSUM overflows, nv from either. -/
def caccPart (hi lo x : Nat) : Nat × Nat × FBits :=
  let first := twoSum hi x
  let low := fp32.add .rn lo first.2.1
  let last := twoSum first.1 low.1
  let bit := fun (b : FBits) (n : Nat) => if b.getLsbD n then (1 : FBits) <<< n else 0
  (last.1, last.2.1, bit low.2 0 ||| bit low.2 1 ||| bit first.2.2 2 ||| bit last.2.2 2 |||
    bit first.2.2 4 ||| bit low.2 4 ||| bit last.2.2 4)

/-- FCVT's element conversion (R62 to R64), by its code's formats. -/
def convElement (x : Conv) (r : RMode) (sat : Bool) (n : Nat) : FRes := (convPlan x).f r sat n

/-- Bits of an element of the source and of the destination, the count, and the first source element (R91,
R92). -/
def convShape (x : Conv) : Nat × Nat × Nat × Nat :=
  ((convPlan x).srcBits, (convPlan x).dstBits, (convPlan x).count, (convPlan x).first)

def specialRow (k : Site) : Instr → Option RegSpec
  | .rcp d a => single k d a a fun x _ => sfuRcp x
  | .rsq d a => single k d a a fun x _ => sfuRsq x
  | .sqrt d a => single k d a a fun x _ => sfuSqrt x
  | .ex2 d a => single k d a a fun x _ => sfuEx2 x
  | .lg2 d a => single k d a a fun x _ => sfuLg2 x
  | .sinpi d a => single k d a a fun x _ => sfuSinpi x
  | .cospi d a => single k d a a fun x _ => sfuCospi x
  | .tanh d a => single k d a a fun x _ => sfuTanh x
  | .fdiv d a b => single k d a b fun x y => fp32.div x y
  | .twosum d a b => pairOf d fun l => twoSum (k.val a l).toNat (k.val b l).toNat
  | .twoprod d a b => pairOf d fun l => twoProd (k.val a l).toNat (k.val b l).toNat
  | .cmul d a b => pairOf d fun l =>
    let p := fp32.mul .rn (k.im a l) (k.im b l)
    let q := fp32.mul .rn (k.im a l) (k.re b l)
    let re := fp32.fma .rn (k.re a l) (k.re b l) (flip p.1)
    let im := fp32.fma .rn (k.re a l) (k.im b l) q.1
    (re.1, im.1, p.2 ||| q.2 ||| re.2 ||| im.2)
  | .cfma d a b => pairOf d fun l =>
    let p := fp32.fma .rn (flip (k.im a l)) (k.im b l) (k.re d.toSrc l)
    let q := fp32.fma .rn (k.im a l) (k.re b l) (k.im d.toSrc l)
    let re := fp32.fma .rn (k.re a l) (k.re b l) p.1
    let im := fp32.fma .rn (k.re a l) (k.im b l) q.1
    (re.1, im.1, p.2 ||| q.2 ||| re.2 ||| im.2)
  | .cacc d a =>
    let part := fun l q x => caccPart (k.word d.toSrc (2 * q) l).toNat (k.word d.toSrc (2 * q + 1) l).toNat x
    some ⟨d, 4, fun l => [(part l 0 (k.re a l)).1, (part l 0 (k.re a l)).2.1, (part l 1 (k.im a l)).1,
      (part l 1 (k.im a l)).2.1].map fun n => BitVec.ofNat 32 n,
      fun l => (part l 0 (k.re a l)).2.2 ||| (part l 1 (k.im a l)).2.2⟩
  | _ => none

/-- The formats of lane arithmetic (R52). -/
def laneFormats : List Fmt := [fp64, fp32, fp16, bf16]

/-- The order of the real numbers, with −0 equal to +0 (R90). -/
def Less : Fp → Fp → Prop
  | .inf a, .inf b => a = true ∧ b = false
  | .inf a, .fin _ _ _ => a = true
  | .fin _ _ _, .inf b => b = false
  | .fin n1 m1 e1, .fin n2 m2 e2 =>
    let v := fun (n : Bool) (m : Nat) (e : Int) => (if n then (-1 : Int) else 1) * m * 2 ^ (e - min e1 e2).toNat
    v n1 m1 e1 < v n2 m2 e2
  | _, _ => False

/-- The truth of a condition of FCMP (R58, R90). -/
def Holds (c : FCond) (x y : Fp) : Prop :=
  let nan := x.isNan = true ∨ y.isNan = true
  match c with
  | .eq => ¬ nan ∧ ¬ Less x y ∧ ¬ Less y x
  | .ne => nan ∨ Less x y ∨ Less y x
  | .lt => Less x y
  | .le => ¬ nan ∧ ¬ Less y x
  | .gt => Less y x
  | .ge => ¬ nan ∧ ¬ Less x y
  | .unord => nan
  | .ord => ¬ nan

/-- The operands set nv: a signalling NaN under every condition, a quiet one under lt, le, gt and ge (R58, R90). -/
def Invalid (c : FCond) (x y : Fp) : Prop :=
  x.isSnan = true ∨ y.isSnan = true ∨
    ((x.isNan = true ∨ y.isNan = true) ∧ (c = .lt ∨ c = .le ∨ c = .gt ∨ c = .ge))

/-- The order of R59 on numbers: that of the real numbers, with −0 below +0. -/
def Below : Fp → Fp → Prop
  | .inf a, .inf b => a = true ∧ b = false
  | .inf a, .fin _ _ _ => a = true
  | .fin _ _ _, .inf b => b = false
  | .fin n1 m1 e1, .fin n2 m2 e2 =>
    let v := fun (n : Bool) (m : Nat) (e : Int) => (if n then (-1 : Int) else 1) * m * 2 ^ (e - min e1 e2).toNat
    v n1 m1 e1 < v n2 m2 e2 ∨ (m1 = 0 ∧ m2 = 0 ∧ n1 = true ∧ n2 = false)
  | _, _ => False

/-! ## Lane exchange (R139 to R147) -/

/-- The active lanes, ascending, that satisfy a test. -/
def activeWhere (k : Site) (f : Nat → Bool) : List Nat :=
  (List.range 32).filter fun l => k.act.getLsbD l && f l

/-- combine of R142 with the bits of an addition. -/
def combine (o : ScanOp) (x y : Word) : Word × FBits :=
  match o with
  | .addI32 => (x + y, 0)
  | .addF32 => let r := fp32.add .rn x.toNat y.toNat; (BitVec.ofNat 32 r.1, r.2)
  | .maxI32 => (if y.toInt ≤ x.toInt then x else y, 0)
  | .or => (x ||| y, 0)

def identity : ScanOp → Word
  | .maxI32 => BitVec.intMin 32
  | _ => 0

/-- The combination of lanes in order, from the first one's value unchanged; none of no lane (R142). -/
def chain (o : ScanOp) (val : Nat → Word) (ls : List Nat) : Option Word :=
  ls.foldl (fun acc l => match acc with
    | none => some (val l)
    | some x => some (combine o x (val l)).1) none

/-- Node i of level n of the pairwise tree of R143; none where absent. -/
def node (o : ScanOp) (leaf : Nat → Option Word) : Nat → Nat → Option (Word × FBits)
  | 0, i => (leaf i).map fun x => (x, 0)
  | n + 1, i =>
    match node o leaf n (2 * i), node o leaf n (2 * i + 1) with
    | some x, some y => some ((combine o x.1 y.1).1, (combine o x.1 y.1).2 ||| x.2 ||| y.2)
    | some x, none => some x
    | none, y => y

def exchangeRow (k : Site) : Instr → Option RegSpec
  | .shfl d a b w m =>
    let j := fun (l : Nat) =>
      let n := ((k.val b l).setWidth 5).toNat
      let j : Int := match m with
        | .idx => n
        | .up => (l : Int) - n
        | .down => (l : Int) + n
        | .xor => (l ^^^ n : Nat)
      if 0 ≤ j ∧ j ≤ 31 ∧ k.act.getLsbD j.toNat = true then j.toNat else l
    some ⟨d, if w then 2 else 1, fun l => if w then [k.word a 0 (j l), k.word a 1 (j l)] else [k.word a 0 (j l)],
      fun _ => 0⟩
  | .voteBallot d a inv => row32 d fun _ => k.act &&& (if inv then ~~~k.w.pred a.val else k.w.pred a.val)
  | .scan d a ex o =>
    let below := fun l => chain o (k.val a) (activeWhere k fun j => decide (j < l))
    let upto := fun l => chain o (k.val a) (activeWhere k fun j => decide (j ≤ l))
    some ⟨d, 1, fun l => [if ex then (below l).getD (identity o) else (upto l).getD 0],
      fun l => match below l with
        | some x => (combine o x (k.val a l)).2
        | none => 0⟩
  | .redw d a o =>
    let r := (node o (fun l => if k.act.getLsbD l then some (k.val a l) else none) 5 0).getD (0, 0)
    some ⟨d, 1, fun _ => [r.1], fun _ => r.2⟩
  | .matchLanes d a w => row32 d fun l => BitVec.ofNat 32 ((activeWhere k fun j =>
      if w then k.dword a false j == k.dword a false l else k.val a j == k.val a l).map fun j => 2 ^ j).sum
  | .lget d a b w =>
    let j := ((k.scalar b).setWidth 5).toNat
    some ⟨d, if w then 2 else 1, fun _ => if w then [k.word a 0 j, k.word a 1 j] else [k.word a 0 j], fun _ => 0⟩
  | .prmt d a b =>
    let byte := fun (l i : Nat) =>
      let s := (k.val b l >>> (4 * i)).setWidth 4
      let x := (k.dword a false l >>> (8 * (s.setWidth 3).toNat)).setWidth 8
      if s.getLsbD 3 then (if x.getLsbD 7 then 0xFF else 0x00) else x
    row32 d fun l => byte l 3 ++ byte l 2 ++ byte l 1 ++ byte l 0
  | _ => none

/-- The predicates of VOTE and ELECT in the active lanes (R134, R141). -/
def voteRow (k : Site) : Instr → Option (PReg × (Nat → Bool))
  | .voteAny d a inv => some (d, fun _ => !(activeWhere k fun l => (k.w.pred a.val).getLsbD l ^^ inv).isEmpty)
  | .voteAll d a inv => some (d, fun _ => (activeWhere k fun l => !((k.w.pred a.val).getLsbD l ^^ inv)).isEmpty)
  | .voteUniform d a => some (d, fun l => (activeWhere k fun j => k.val a j != k.val a l).isEmpty)
  | .elect p => some (p, fun l => (activeWhere k fun j => decide (j < l)).isEmpty)
  | _ => none

/-! ## Control (R22, R102, R126 to R131) -/

/-- Where each lane of the entry goes, as an exact offset. -/
def laneTarget (k : Site) : Instr → Option (Nat → Int)
  | .bra c n => some fun l =>
    let taken := match c with
      | .always => true
      | .pred inv p => (k.w.pred p.val).getLsbD l ^^ inv
    if k.act.getLsbD l && taken then k.e.hdr.toNat + 8 * n.toInt else k.fallTo
  | .brx c n => some fun l => if k.act.getLsbD l && k.scalar c.toSrc != 0 then k.e.hdr.toNat + 8 * n.toInt else k.fallTo
  | .brz c n => some fun l => if k.act.getLsbD l && k.scalar c.toSrc == 0 then k.e.hdr.toNat + 8 * n.toInt else k.fallTo
  | .call _ n => some fun l => if k.act.getLsbD l then k.e.hdr.toNat + 8 * n.toInt else k.fallTo
  | .jmpi a => some fun l => if k.act.getLsbD l then (k.val a l).toNat else k.fallTo
  | .yield => some fun _ => k.fallTo
  | _ => none

/-- A code offset that R22 refuses. -/
def refused (s : State) (k : Site) (t : Int) : Prop := t % 8 ≠ 0 ∨ t < 0 ∨ (s.codeSize k.sw.ctx : Int) ≤ t

/-- The lanes EXIT removes (R130). -/
def exiting (k : Site) : ExitCond → Mask
  | .always => k.act
  | .pred n => k.act &&& k.w.pred n.val

/-- The lane stands at a pc of a list of entries. -/
def standsAt (fr : List Entry) (l : Nat) (pc : Word) : Prop := ∃ e ∈ fr, e.mask.getLsbD l = true ∧ e.pc = pc

/-- The lanes FRSET acts on (R138). -/
def edited (k : Site) (d : Dst) : Mask := k.scalar d.toSrc &&& ~~~k.w.exited

/-- The place of the handler's lanes after FRSET.park: parked lanes leave its frontier, but for the running entry's where
none would be left to it (the model's choice, log 97). -/
def ParkedOn (k : Site) (m : Mask) (i : Instr) (w : Weft) : Prop :=
  let kept := if k.e.mask &&& ~~~m = 0 then k.e.mask else k.e.mask &&& ~~~m
  let stands := fun (at_ : Word) => ∀ l, l < 32 → ∀ pc, standsAt w.frontier l pc ↔
    (kept.getLsbD l = true ∧ pc = at_) ∨ (standsAt k.w.frontier.tail l pc ∧ m.getLsbD l = false)
  if clauseLen k.cl.h0 ≤ k.pos + 1 + i.lits.length then w.clause = none ∧ stands (codeOffset k.fallTo)
  else w.clause = some { k.cl with tested := true } ∧ stands (k.e.pc + BitVec.ofNat 32 (4 * (1 + i.lits.length)))

/-- A snapshot regrouped by pc (R138): one entry a pc, none empty, surviving entries in their order with their hdr and
prio, new ones after them in ascending pc with the prio of the word at their pc and no barrier-wait bit. -/
def Regrouped138 (s : State) (k : Site) (old new : List Entry) : Prop :=
  (∀ e ∈ new, e.mask ≠ 0) ∧ (new.map fun e => e.pc).Nodup ∧ ∃ keep fresh, new = keep ++ fresh ∧
    (keep.map fun e => e.pc).Sublist (old.map fun e => e.pc) ∧
    (∀ e ∈ keep, ∃ e0 ∈ old, e0.pc = e.pc ∧ e0.hdr = e.hdr ∧ e0.prio = e.prio) ∧
    (∀ e ∈ keep, e.barWait = true → ∃ e0 ∈ old, e0.pc = e.pc ∧ e0.barWait = true) ∧
    (fresh.map fun e => e.pc.toNat).Pairwise (· < ·) ∧
    ∀ e ∈ fresh, e.barWait = false ∧
      e.prio = if badTarget (s.codeSize k.sw.ctx) e.pc then 0 else s.prioAt k.clu k.sw.ctx e.pc

def frentRow (k : Site) : Instr → Option RegSpec
  | .frent d a =>
    k.w.trec.snap[(k.scalar a).toNat]?.map fun e => ⟨d, 4, fun _ =>
      [e.pc, e.hdr, BitVec.ofNat 32 (e.prio + if e.barWait then 2 ^ 31 else 0), e.mask], fun _ => 0⟩
  | .frentLanes d =>
    let parked : Mask := maskOf fun l => (k.w.parked.get? l).isSome
    some ⟨d, 4, fun _ => [~~~(k.w.exited ||| parked), parked &&& ~~~k.w.exited, k.w.exited, 0], fun _ => 0⟩
  | _ => none

/-! ## Control and status registers (R32, R47, R107, R113, R115, R135, R136) -/

def flagWord (a b : Bool) : Word := BitVec.ofNat 32 ((if a then 1 else 0) + if b then 2 else 0)

/-- The low or high word of a 64-bit counter. -/
def counterHalf (n x : Nat) : Word := if n % 2 = 0 then BitVec.ofNat 32 x else BitVec.ofNat 32 (x / 2 ^ 32)

/-- The weft's own registers, by number. -/
def weftRegister (k : Site) (n : Nat) : Option Word :=
  let r := k.w.trec
  if 0x010 ≤ n ∧ n ≤ 0x01F then some (r.tscr.getD (n - 0x010) 0)
  else
    match n with
    | 0x000 => some r.tcause
    | 0x001 => some r.tpc
    | 0x002 => some r.tlanes
    | 0x003 => some r.tdone
    | 0x004 => some (r.taddr.setWidth 32)
    | 0x005 => some ((r.taddr >>> 32).setWidth 32)
    | 0x006 => some r.tinfo
    | 0x007 => some (BitVec.ofNat 32 (16 * r.twinS + r.twinV))
    | 0x008 => some (r.tfst.setWidth 32)
    | 0x009 => some (BitVec.ofNat 32 r.snap.length)
    | 0x020 => some (flagWord k.w.ctlfrt k.w.hangen)
    | 0x021 => some (flagWord k.w.frd k.w.hng)
    | 0x022 => some (BitVec.ofNat 32 (k.w.sbud * 65536 + k.w.vbud))
    | 0x023 => some (BitVec.ofNat 32 (k.w.salloc * 65536 + k.w.valloc))
    | 0x028 => some (k.w.fstat.setWidth 32)
    | 0x040 => some (counterHalf 0 k.w.slip)
    | 0x041 => some (counterHalf 1 k.w.slip)
    | 0x042 => some (counterHalf 0 k.w.dstall)
    | 0x043 => some (counterHalf 1 k.w.dstall)
    | 0x044 => some (counterHalf 0 k.w.rot)
    | 0x045 => some (counterHalf 1 k.w.rot)
    | _ => none

/-- Registers of the cluster, the die and the package that hold what was last written. -/
def unitRegister (s : State) (k : Site) (n : Nat) : Option Word :=
  let c := s.cluster k.clu
  let d := s.die k.die
  if 0x200 ≤ n ∧ n ≤ 0x20F then some (BitVec.ofNat 32 (c.weight (n - 0x200)))
  else if 0x220 ≤ n ∧ n ≤ 0x276 then some (c.vf.getD (n - 0x220) 0)
  else
    match n with
    | 0x210 => some c.enstatic
    | 0x211 => some (BitVec.ofNat 32 c.fdefault)
    | 0x213 => some (flagWord c.gateEn false)
    | 0x2E0 => some (c.cpSrc.setWidth 32)
    | 0x2E1 => some ((c.cpSrc >>> 32).setWidth 32)
    | 0x2E2 => some (c.cpDst.setWidth 32)
    | 0x2E3 => some ((c.cpDst >>> 32).setWidth 32)
    | 0x2E4 => some c.cpLen
    | 0x2E5 => some c.cpCore
    | 0x301 => some d.ptabHi
    | 0x311 => some d.fhost
    | 0x31C => some d.fpsel
    | 0x321 => some (d.mig.bmap.setWidth 32)
    | 0x322 => some ((d.mig.bmap >>> 32).setWidth 32)
    | 0x323 => some d.mig.base
    | 0x324 => some d.mig.pages
    | 0x420 => some (BitVec.ofNat 32 s.pkg.plimit)
    | 0x438 => some (BitVec.ofNat 32 s.pkg.cethr)
    | _ => none

/-- Values the writable registers of the weft take (R25, R47, R113, R115). -/
def weftAccepts (n x : Nat) : Option Bool :=
  if 0x010 ≤ n ∧ n ≤ 0x01F then some true
  else
    match n with
    | 0x007 => some (decide (x % 16 ≤ 12) && decide (x / 16 ≤ 9))
    | 0x008 => some (decide (x < 64))
    | 0x020 => some (decide (x < 4))
    | 0x021 => some (decide (x < 4))
    | 0x028 => some (decide (x < 64))
    | _ => none

/-- Values the unit registers take (R235, R265, R295, R344, R376, R394, R405). -/
def unitAccepts (n x : Nat) : Option Bool :=
  if 0x200 ≤ n ∧ n ≤ 0x20F then some (decide (x < 65536))
  else if 0x220 ≤ n ∧ n ≤ 0x276 then some (decide (x < 65536))
  else
    match n with
    | 0x210 => some true
    | 0x211 => some (decide (300 ≤ x) && decide (x ≤ 2450) && decide (x % 25 = 0))
    | 0x213 => some (decide (x < 2))
    | 0x2E0 => some true
    | 0x2E1 => some true
    | 0x2E2 => some true
    | 0x2E3 => some true
    | 0x2E4 => some true
    | 0x2E5 => some (decide (x < 8))
    | 0x301 => some (decide (x < 2 ^ 28))
    | 0x311 => some (decide (x < 256))
    | 0x31C => some (decide (x < 48))
    | 0x321 => some (decide (x % 4096 = 0))
    | 0x322 => some (decide (x < 2 ^ 28))
    | 0x323 => some (decide (x < 2 ^ 30))
    | 0x324 => some true
    | 0x420 => some (decide (800 ≤ x) && decide (x ≤ 1500))
    | 0x438 => some true
    | _ => none

/-! ## Plain and acquire loads, stores (R148 to R153, R267) -/

/-- A load: its destination and registers, bytes a lane, whether it reads at the home, its address, and
the registers its bytes become. -/
structure LoadSpec where
  d : Dst
  g : Nat
  n : Nat
  atHome : Bool
  scalar : Bool
  addr : Nat → DWord
  words : List Byte → List Word

/-- A little-endian number (R11). -/
def leSum (bs : List Byte) : Nat := bs.foldr (fun b x => b.toNat + 256 * x) 0

/-- The 32-bit words of a run of bytes. -/
def wordsOf (g : Nat) (bs : List Byte) : List Word := (List.range g).map fun j => BitVec.ofNat 32 (leSum bs / 2 ^ (32 * j))

def wide (sc : Scope) : Bool := sc != .wf && sc != .sw

/-- Other packages' homes acknowledge what is performed at the scope (R249). -/
def far (sc : Scope) : Bool := sc == .rl || sc == .sy

def loadRow (k : Site) : Instr → Option LoadSpec
  | .ld d a b _ sgn w =>
    let at_ := fun l => k.addr a l + (k.val b l).signExtend 64
    let sc := k.allScalar [d.toSrc, a, b]
    match w with
    | .b8 => some ⟨d, 1, 1, false, sc, at_, fun bs =>
        [if sgn then (BitVec.ofNat 8 (leSum bs)).signExtend 32 else BitVec.ofNat 32 (leSum bs)]⟩
    | .b16 => some ⟨d, 1, 2, false, sc, at_, fun bs =>
        [if sgn then (BitVec.ofNat 16 (leSum bs)).signExtend 32 else BitVec.ofNat 32 (leSum bs)]⟩
    | .b32 => some ⟨d, 1, 4, false, sc, at_, wordsOf 1⟩
    | .b64 => some ⟨d, 2, 8, false, sc, at_, wordsOf 2⟩
  | .ldq d a b _ => some ⟨d, 4, 16, false, k.allScalar [d.toSrc, a, b],
      fun l => k.addr a l + (k.val b l).signExtend 64, wordsOf 4⟩
  | .ldacq d a sc _ w =>
    let g := match w with | .b32 => 1 | .b64 => 2
    some ⟨d, g, 4 * g, sc == .pk || sc == .rl || sc == .sy, k.allScalar [d.toSrc, a], k.addr a, wordsOf g⟩
  | _ => none

/-- A store: its data, bytes a lane and address, and the scope of its release. -/
structure StoreSpec where
  d : Src
  n : Nat
  scalar : Bool
  addr : Nat → DWord
  wide : Bool
  far : Bool

def storeRow (k : Site) : Instr → Option StoreSpec
  | .st d a b _ w =>
    let n := match w with | .b8 => 1 | .b16 => 2 | .b32 => 4 | .b64 => 8
    some ⟨d.toSrc, n, k.allScalar [d.toSrc, a, b], fun l => k.addr a l + (k.val b l).signExtend 64, false, false⟩
  | .stq d a b _ => some ⟨d.toSrc, 16, k.allScalar [d.toSrc, a, b], fun l => k.addr a l + (k.val b l).signExtend 64,
      false, false⟩
  | .strel d a sc _ w =>
    some ⟨d.toSrc, (match w with | .b32 => 4 | .b64 => 8), k.allScalar [d.toSrc, a], k.addr a, wide sc, far sc⟩
  | _ => none

/-- Byte j of a lane's data group. -/
def dataByte (k : Site) (d : Src) (l j : Nat) : Byte := (k.word d (j / 4) l >>> (8 * (j % 4))).setWidth 8

/-- The byte that lanes at physical addresses store at `a`: the highest lane's; none elsewhere (R151). -/
def storedByte (k : Site) (d : Src) (n : Nat) (ls : List (Nat × Nat)) (a : Nat) : Option Byte :=
  ((ls.filter fun x => decide (x.2 ≤ a) && decide (a < x.2 + n)).getLast?).map fun x => dataByte k d x.1 (a - x.2)

/-- The lanes all lie in one page. -/
def OnePage (ls : List (Nat × DWord)) (x : Nat → Trans) : Prop :=
  ∀ l ∈ ls, ∀ m ∈ ls, (x l.1).leaf = (x m.1).leaf ∧ (x l.1).shift = (x m.1).shift ∧
    l.2.toNat / 2 ^ (x l.1).shift = m.2.toNat / 2 ^ (x l.1).shift

/-! ## Atomics (R256, R268 to R270) -/

structure AtomSpec where
  old : Option Dst
  n : Nat
  scalar : Bool
  addr : Nat → DWord
  rel : Bool
  far : Bool
  acq : Bool
  new : Nat → Nat → Option Nat

/-- The new value from the old one and the operand, W bits (R268). -/
def newValue (o : AtomOp) (W old x : Nat) : Nat :=
  let sg := fun (v : Nat) => (BitVec.ofNat W v).toInt
  match o with
  | .add => (old + x) % 2 ^ W
  | .min => if sg x < sg old then x else old
  | .max => if sg old < sg x then x else old
  | .minu => if x < old then x else old
  | .maxu => if old < x then x else old
  | .and => Nat.land old x
  | .or => Nat.lor old x
  | .xor => Nat.xor old x
  | .exch => x
  | .fadd => (fp32.add .rn old x).1
  | .fmin => (fp32.minmax false old x).1
  | .fmax => (fp32.minmax true old x).1

/-- Registers j and, for 64 bits, j + 1 of a group as a number. -/
def groupValue (k : Site) (d : Src) (j : Nat) (w64 : Bool) (l : Nat) : Nat :=
  (k.word d j l).toNat + if w64 then 2 ^ 32 * (k.word d (j + 1) l).toNat else 0

def atomRow (k : Site) : Instr → Option AtomSpec
  | .atom d a o sc _ c w => some ⟨some d, if w then 8 else 4, k.allScalar [d.toSrc, a], k.addr a,
      (c == .rel || c == .ar) && wide sc, (c == .rel || c == .ar) && far sc, (c == .acq || c == .ar) && wide sc,
      fun l old => some (newValue o (if w then 64 else 32) old (groupValue k d.toSrc 0 w l))⟩
  | .cas d a sc _ c w => some ⟨some d, if w then 8 else 4, k.allScalar [d.toSrc, a], k.addr a,
      (c == .rel || c == .ar) && wide sc, (c == .rel || c == .ar) && far sc, (c == .acq || c == .ar) && wide sc,
      fun l old => if old = groupValue k d.toSrc 0 w l then some (groupValue k d.toSrc (if w then 2 else 1) w l) else none⟩
  | .red d a o sc _ rel _ w => some ⟨none, if w then 8 else 4, k.allScalar [d.toSrc, a], k.addr a,
      rel && wide sc, rel && far sc, false,
      fun l old => some (newValue o (if w then 64 else 32) old (groupValue k d.toSrc 0 w l))⟩
  | _ => none

/-- Lanes at their places, ascending, each on the value left by the one before it: the old values and memory
as a function of the address (R256). -/
def atomics (n : Nat) (new : Nat → Nat → Option Nat) : List (Nat × Nat) → (Nat → Byte) → List (Nat × Nat) × (Nat → Byte)
  | [], m => ([], m)
  | (l, a) :: ls, m =>
    let old := leSum ((List.range n).map fun j => m (a + j))
    let m' := fun x => match new l old with
      | some v => if a ≤ x ∧ x < a + n then BitVec.ofNat 8 (v / 256 ^ (x - a)) else m x
      | none => m x
    let r := atomics n new ls m'
    ((l, old) :: r.1, r.2)

/-- Nothing stands in the issuing core's write buffer or on its way from its die: a release has nothing to drain. -/
def Clear (s : State) (k : Site) : Prop := ∀ c, k.core = some c → (s.core c).wbuf = [] ∧ (s.die (dieOfCore c)).out = []

/-- Nothing stands between the issuing core and the homes of these places: no buffered entry, nothing on its way, good
data behind every place, no dirty tracking, this package. -/
structure Settled (s : State) (k : Site) (ps : List Nat) : Prop where
  buffer : ∀ c, k.core = some c → (∀ p ∈ ps, (s.core c).wbuf.all (fun e => e.sector != sectorOf p) = true) ∧
    (s.die (dieOfCore c)).out = []
  good : ∀ p ∈ ps, s.bad.contains (sectorOf p) = false ∧ s.present p = true ∧ pkgOf p = s.pkg.fpkg ∧
    (s.die (dieOf p)).mig.track = false

/-! ## The address checks of every instruction on global memory (R149, R266) -/

/-- Address, alignment and whether it writes. -/
structure AccessSpec where
  n : Nat
  write : Bool
  scalar : Bool
  addr : Nat → DWord

def accessRow (k : Site) (i : Instr) : Option AccessSpec :=
  match loadRow k i, storeRow k i, atomRow k i, i with
  | some x, _, _, _ => some ⟨x.n, false, x.scalar, x.addr⟩
  | _, some x, _, _ => some ⟨x.n, true, x.scalar, x.addr⟩
  | _, _, some x, _ => some ⟨x.n, true, x.scalar, x.addr⟩
  | _, _, _, .watch a _ => some ⟨1, false, k.allScalar [a], k.addr a⟩
  | _, _, _, _ => none

/-- What an address breaks before any lane accesses: the pointer rule of R6, or alignment. -/
def broken (n : Nat) (a : DWord) : Option Nat :=
  if a >>> 57 ≠ (if a.getLsbD 56 then 0x7F else 0) then some 0x09 else if a.toNat % n ≠ 0 then some 0x0A else none

/-- An address meets a cause, whatever else it meets (R117). -/
def meets (n c : Nat) (a : DWord) : Bool :=
  if c = 0x09 then decide (a >>> 57 ≠ (if a.getLsbD 56 then 0x7F else 0)) else decide (a.toNat % n ≠ 0)

/-- The permission a kind of instruction asks for. -/
def accOf : Instr → Acc
  | .st _ _ _ _ _ => .store
  | .stq _ _ _ _ => .store
  | .strel _ _ _ _ _ => .store
  | .atom _ _ _ _ _ _ _ => .atomic
  | .cas _ _ _ _ _ _ => .atomic
  | .red _ _ _ _ _ _ _ _ => .atomic
  | _ => .load

/-! ## Versioned memory (R326 to R336) -/

/-- A lane's address is canonical, aligned, on a mapped page that admits the versioned access, and in a registered region of
the weft's partition (R331). -/
structure InRegion (s : State) (k : Site) (acc : Acc) (n : Nat) (va : DWord) (x : Trans) (key : Nat) (r : Region) : Prop where
  whole : broken n va = none
  mapped : Mapped s k acc va x
  region : s.regionAt (s.partOfCtx k.sw.ctx) (va.toNat % 2 ^ 57) = some (key, r)
  record : s.regions.get? key = some r

/-- The sector's versions as a lane meets them. -/
def versionsAt (s : State) (r : Region) (va : DWord) (x : Trans) : VSector := s.versionsOf r (va.toNat % 2 ^ 57) x.pa

/-- The version a VLD returns: the newest at or below under .le, the one of that number at or above the floor (R333). -/
def returned (r : Region) (x : VSector) (le : Bool) (n : Nat) : Option Version :=
  if le then x.newest fun v => decide (v ≤ n) else if n < r.floor then none else x.vers.find? fun v => v.n == n

/-- The checks of VREG, in the order of R329: the first that fails. -/
def vregStatus (s : State) (k : Site) (part : Nat) (bs : List Byte) : Nat :=
  let f := fun (off n : Nat) => leSum ((bs.drop off).take n)
  let vbase := f 0 8
  let size := f 8 8
  let depth := f 0x11 1
  let dir := f 0x18 8
  let pool := f 0x20 8
  let pslots := f 0x28 4
  let own := s.regions.filter fun p => p.2.part == part
  let meet := fun (a n b m : Nat) => decide (a < b + m) && decide (b < a + n)
  let frames := ((List.range (size / 65536)).map fun i => s.walkPa k.sw.ctx (vbase + 65536 * i))
  let good := fun (w : Except Nat Trans) => match w with
    | .ok t => pteVer t.leaf && pteR t.leaf && pkgOf t.pa == pkgOf dir && dieOf t.pa == dieOf dir
    | .error _ => false
  let whole := (List.range (size / 65536)).all fun i => broken 1 (BitVec.ofNat 64 (vbase + 65536 * i)) == none
  let crosses := fun (w : Except Nat Trans) => match w with
    | .ok t => meet t.pa 65536 dir (size / 2) || meet t.pa 65536 pool (65536 * pslots)
    | .error _ => false
  if f 0x10 1 / 2 ≠ 0 ∨ f 0x12 2 ≠ 0 ∨ f 0x14 4 ≠ 0 ∨ f 0x2C 20 ≠ 0 ∨ depth < 2 ∨ 16 < depth then 1
  else if vbase % 65536 ≠ 0 ∨ size % 65536 ≠ 0 ∨ dir % 65536 ≠ 0 ∨ pool % 65536 ≠ 0 ∨ size = 0 ∨ pslots = 0 then 2
  else if !whole ∨ frames.any (fun w => !good w) then 3
  else if own.any (fun p => meet vbase size p.2.vbase p.2.size) then 4
  else if 64 ≤ own.length then 5
  else if pkgOf pool ≠ pkgOf dir ∨ dieOf pool ≠ dieOf dir ∨ meet dir (size / 2) pool (65536 * pslots) ∨
      frames.any crosses ∨ 15 * s.populatedAt dir / 16 < dieAddr dir + size / 2 ∨
      15 * s.populatedAt pool / 16 < dieAddr pool + 65536 * pslots then 6
  else 0

/-! ## The scratchpad (R163 to R167, R182 to R186) -/

/-- An instruction on scratchpad addresses: bytes a lane, whether it writes, one access for the weft, its address. -/
structure SpadSpec where
  n : Nat
  write : Bool
  scalar : Bool
  addr : Src
  deriving DecidableEq, Repr

def spadBytes : SpadW → Nat
  | .b32 => 4
  | .b64 => 8
  | .b128 => 16

def spadRow (k : Site) : Instr → Option SpadSpec
  | .lds d a _ _ w => some ⟨spadBytes w, false, k.allScalar [d.toSrc, a], a⟩
  | .sts d a _ _ w => some ⟨spadBytes w, true, k.allScalar [d.toSrc, a], a⟩
  | .feget d a _ => some ⟨1, false, k.allScalar [d.toSrc, a], a⟩
  | .atoms d a _ _ => some ⟨4, true, k.allScalar [d.toSrc, a], a⟩
  | .spdesc d a _ => some ⟨1, false, k.allScalar [d.toSrc, a], a⟩
  | .spdescSet a b _ => some ⟨1, true, k.allScalar [a, b], a⟩
  | _ => none

/-- Lanes with their scratchpad addresses: one access when every operand is scalar. -/
def spadAt (k : Site) (x : SpadSpec) : List (Nat × Nat) :=
  let ls := ((List.range 32).filter fun l => k.act.getLsbD l).map fun l => (l, (k.val x.addr l).toNat)
  if x.scalar then ls.take 1 else ls

/-- What an address breaks (R163, R182). -/
def spadBroken (k : Site) (n a : Nat) : Option Nat :=
  if k.sw.spsize ≤ a then some 0x09 else if a % n ≠ 0 then some 0x0A else none

/-- No lane's address breaks a rule, and no line of theirs was left empty by an aborted job (R177). -/
def SpadGood (k : Site) (x : SpadSpec) : Prop :=
  (∀ y ∈ spadAt k x, spadBroken k x.n y.2 = none) ∧ ∀ f ∈ k.sw.descFaults, ∀ y ∈ spadAt k x, y.2 / 128 ∈ f.lines → y.2 / 128 ∈ k.sw.full

/-- Lines that an aborted job left empty, less those that have become full (R177). -/
def filled (fs : List DescFault) (p : Nat → Bool) : List DescFault :=
  fs.map fun f => { f with lines := f.lines.filter fun n => !p n }

/-- The lines that the lanes address are all full, or all empty. -/
def linesAll (k : Site) (x : SpadSpec) (full : Bool) : Prop := ∀ y ∈ spadAt k x, (y.2 / 128 ∈ k.sw.full ↔ full = true)

/-- The new word of ATOMS (R185). -/
def atomsValue (o : AtomsOp) (old x y : Nat) : Nat :=
  match o with
  | .add => newValue .add 32 old x
  | .min => newValue .min 32 old x
  | .max => newValue .max 32 old x
  | .minu => newValue .minu 32 old x
  | .maxu => newValue .maxu 32 old x
  | .and => newValue .and 32 old x
  | .or => newValue .or 32 old x
  | .xor => newValue .xor 32 old x
  | .exch => x
  | .fadd => newValue .fadd 32 old x
  | .fmin => newValue .fmin 32 old x
  | .fmax => newValue .fmax 32 old x
  | .cas => if old = x then y else old

/-- The lines that a pair form names in a lane (R184). -/
def feRange (k : Site) (a : Src) (l : Nat) : List Nat :=
  (List.range (k.word a 1 l).toNat).map fun j => (k.word a 0 l).toNat / 128 + j

/-- Lanes a pair form acts for. -/
def feLanes (k : Site) (a : Src) : List Nat :=
  let ls := (List.range 32).filter fun l => k.act.getLsbD l
  if k.allScalar [a] then ls.take 1 else ls

def FeGood (k : Site) (a : Src) : Prop :=
  ∀ l ∈ feLanes k a, 1 ≤ (k.word a 1 l).toNat ∧ (k.word a 1 l).toNat ≤ 256 ∧
    128 * ((k.word a 0 l).toNat / 128 + (k.word a 1 l).toNat) ≤ k.sw.spsize

def feNames (k : Site) (a : Src) (n : Nat) : Prop := ∃ l ∈ feLanes k a, n ∈ feRange k a l

/-- Lanes that perform a step of the tag table: one when every operand is scalar (R28). -/
def tagLanes (k : Site) (xs : List Src) : List Nat :=
  let ls := (List.range 32).filter fun l => k.act.getLsbD l
  if k.allScalar xs then ls.take 1 else ls

/-- A key's entry written to a way of its set: any other entry of the set with the key becomes invalid (R165, R186). -/
def tagPut (t : Nat → Option Word) (key : Word) (way : Nat) : Nat → Option Word := fun n =>
  if n = 4 * (key.toNat % 1024) + way then some key
  else if n / 4 = key.toNat % 1024 ∧ t n = some key then none else t n

/-- A key's entry made invalid. -/
def tagDrop (t : Nat → Option Word) (key : Word) : Nat → Option Word := fun n =>
  if n / 4 = key.toNat % 1024 ∧ t n = some key then none else t n

/-- The table after lanes, each in its turn, have dropped their keys' entries. -/
def tagDrops (k : Site) (a : Src) (ls : List Nat) : Nat → Option Word :=
  ls.foldl (fun t l => tagDrop t (k.val a l)) k.sw.tags.get?

/-- The slot of a key's entry: the lowest way of its set that holds it (R165). -/
def slotOf (t : Nat → Option Word) (key : Word) : Word :=
  match [0, 1, 2, 3].find? fun w => t (4 * (key.toNat % 1024) + w) == some key with
  | some w => BitVec.ofNat 32 (4 * (key.toNat % 1024) + w)
  | none => 0xFFFFFFFF

/-- No set holds two valid entries with one key (R165). -/
def OneEntry (t : Tab Word) : Prop :=
  ∀ i j key, i < 4096 → j < 4096 → i / 4 = j / 4 → t.get? i = some key → t.get? j = some key → i = j

/-! ## Shape records, code tables and copy jobs (R176, R180, R187 to R194) -/

/-- The checks of SHAPE before pages are looked at, in the order of R188. -/
def shapeCheck (bs : List Byte) (spad ix : Nat) (taken : Bool) : Nat :=
  let r := shapeOf (leSum bs)
  let f := fun (off n : Nat) => leSum ((bs.drop off).take n)
  let size := if r.esz = 0 then 1 else 2 ^ (r.esz - 1)
  let block : Nat := if r.esz = 0 then 128 else 64
  let bytes := r.tile.foldl (fun a b => a * b) 1 * 2 ^ r.esz / 2
  if r.esz ≤ 4 ∧ r.base % size ≠ 0 then 1
  else if r.described = true ∧ (r.base % 64 ≠ 0 ∨ (r.str.take (r.ndim - 1)).any (fun x => x % 64 != 0)) then 2
  else if r.described = true ∧ (r.tile.getD 0 0 % block ≠ 0 ∨ r.ext.getD 0 0 % block ≠ 0) then 3
  else if f 8 4 / 2 ^ 13 ≠ 0 ∨ f 8 4 / 8 % 32 ≠ 0 ∨ f 0x0C 4 ≠ 0 ∨ f 0x4C 4 ≠ 0 ∨
      (r.coded = false ∧ (r.sbase ≠ 0 ∨ r.slen ≠ 0)) ∨ 5 ≤ r.esz ∨ (r.esz = 0 ∧ r.described = false) ∨
      (r.described = true ∧ 2 ≤ r.esz) ∨ (r.coded = true ∧ r.described = false) ∨ (r.coded = true ∧ r.wr = true) then 4
  else if 0 ∈ r.ext ∨ 0 ∈ r.tile ∨ (r.tile.zip r.ext).any (fun p => decide (p.2 < p.1)) ∨
      (r.ext.drop r.ndim).any (fun x => x != 1) ∨ (r.tile.drop r.ndim).any (fun x => x != 1) ∨
      (r.str.drop (r.ndim - 1)).any (fun x => x != 0) ∨ spad < bytes ∨ (r.coded = true ∧ r.slen = 0) then 5
  else if 63 < ix ∨ taken = true then 6
  else 0

/-- A code table is valid (R180): lengths up to 15, one of them not 0, and the codes fit. -/
def validTable (t : List Nat) : Bool :=
  t.all (fun n => decide (n ≤ 15)) && t.any (fun n => n != 0) &&
    decide ((t.map fun n => if n = 0 then 0 else 2 ^ (15 - n)).sum ≤ 2 ^ 15)

/-- The record and origin checks of step 2 of R191, a tile's origin possibly below 0 in a schedule (R179). -/
def shapeRefused (r : Shape) (out : Bool) (org : List Int) : Bool :=
  (out && (!r.wr || r.coded)) || (!out && r.coded && r.table.isNone) ||
    (org.zip (r.tile.zip r.ext)).any (fun p => decide (p.1 < 0) || decide ((p.2.2 : Int) < p.1 + p.2.1)) ||
    (r.described && (org.getD 0 0) % (if r.esz = 0 then 128 else 64 : Int) != 0) || (r.coded && org.any fun o => o != 0)

def tileSize (r : Shape) : Nat := r.tile.foldl (fun a b => a * b) 1 * 2 ^ r.esz / 2

/-- A job has been issued: it stands last at its core with its number, the number is in d, and the flight counts
until the job ends (R168, R175, R176). -/
def JobIssued (s t : State) (k : Site) (i : Instr) (w : Weft) (d : Dst) (c : Nat) (j : Job) : Prop :=
  t.weft? k.sid k.wid = some w ∧ (t.core c).jobs = (s.core c).jobs ++ [j] ∧ j.num = k.sw.jobs ∧ j.sid = k.sid ∧
    j.owner = k.wid ∧ j.begun = false ∧ j.lines = 0 ∧ j.err = 0 ∧
    (∃ f, Begins k i w f ∧ f.kind = .copyJob c k.sw.jobs ∧ f.vwr = [] ∧ f.swr = []) ∧
    k.after w d 0 0 = BitVec.ofNat 32 k.sw.jobs ∧ t.mem = s.mem ∧ w.preds = k.w.preds ∧ w.fstat = k.w.fstat ∧
    ∃ u, t.swatch? k.sid = some u ∧ u.jobs = (k.sw.jobs + 1) % 2 ^ 32 ∧ u.spad = k.sw.spad ∧ u.full = k.sw.full ∧
      u.shapes = k.sw.shapes

/-! ## Barriers (R195 to R199) -/

/-- One unit's arrival at a record with a count (R198): the record after it, or the value the count failed against. -/
def arriveAt (r : BarRec) (unit declared live c : Nat) : Except Nat BarRec :=
  if r.arrived = 0 ∧ declared < c then .error declared
  else if r.arrived ≠ 0 ∧ c ≠ (if r.zmode = true then 0 else r.expected) then
    .error (if r.zmode = true then 0 else r.expected)
  else
    let z := if r.arrived = 0 then c == 0 else r.zmode
    let e := if r.arrived = 0 then (if c = 0 then live else c) else r.expected
    if r.arrived + 1 = e then .ok ⟨(r.phase + 1) % 2 ^ 32, z, e, 0, []⟩
    else .ok ⟨r.phase, z, e, r.arrived + 1, r.who ++ [unit]⟩

/-- The swatch's record of a barrier. -/
def swBar (sw : Swatch) (n : Nat) : BarRec := sw.bars.getD n ⟨0, false, 0, 0, []⟩

/-- Members of the swatch that have not ended; a task weft is none (R196, R363). -/
def members (sw : Swatch) : Nat := (sw.wefts.filter fun p => p.2.task.isNone && !p.2.ended).length

/-- A queue of the swatch. -/
def queueOf (sw : Swatch) (n : Nat) : HwQueue := sw.hwq.getD n ⟨[], [], []⟩

/-- p6 of a scalar .nb form (R30). -/
def P6 (k : Site) (w : Weft) (nb served : Bool) : Prop :=
  (nb = true → w.pred 6 = if served then BitVec.allOnes 32 else 0) ∧ (∀ q, q ≠ 6 → w.pred q = k.w.pred q) ∧
    (nb = false → w.preds = k.w.preds)

/-! ## The enlarger (R72, R206 to R226) -/

/-- Reserved and unused fields of a selector are zero (R218). -/
def selOk (v : Word) (tile slot grp : Bool) : Prop :=
  v.toNat / 2 ^ 15 = 0 ∧ v.toNat / 128 % 2 = 0 ∧ (tile = false → v.toNat % 128 = 0) ∧
    (slot = false → v.toNat / 256 % 16 = 0) ∧ (grp = false → v.toNat / 4096 % 8 = 0)

def tileOf (v : Word) : Nat := v.toNat % 128

def negOf (v : Word) : Nat := v.toNat / 256 % 16

/-- The tile exists and is no check copy of a primary in dual state (R212, R218). -/
def tileFree (sw : Swatch) (t : Nat) : Prop :=
  t < sw.accMap.length ∧ ∀ p, p < sw.accMap.length / 2 → t = p + sw.accMap.length / 2 → (sw.tile p).dual = false

/-- An aligned scratchpad range that lies below spad (R182). -/
def rangeOk (k : Site) (al len a : Nat) : Prop := a < k.sw.spsize ∧ a % al = 0 ∧ a + len ≤ k.sw.spsize

/-- The descriptor of the 64-byte block at a scratchpad address. -/
def descAt (sw : Swatch) (a : Nat) : Word := sw.descs.getD (a / 64) 0

/-- A descriptor of a 4-bit format (R70). -/
def narrowFmt (d : Word) : Bool := d.toNat % 256 == 3 || d.toNat % 256 == 6 || d.toNat % 256 == 7

/-- A line of 128 bytes can be consumed as a column or row (R71, R207). -/
def stripOk (d0 d1 : Word) : Prop :=
  descNumeric d0 = true ∧ (narrowFmt d0 = true ∨ descNumeric d1 = true ∧ narrowFmt d1 = false)

/-- The value of an element code under its descriptor (R72). -/
def elementOf (d : Word) (q : Nat) : Fp :=
  let z := d.toNat / 256 % 256
  let v := match d.toNat % 256 with
    | 1 => e4m3.unpack q
    | 2 => e5m2.unpack q
    | 3 => e2m1.unpack q
    | 4 => Fp.ofInt ((BitVec.ofNat 8 q).toInt - (BitVec.ofNat 8 z).toInt)
    | 5 => Fp.ofInt ((q : Int) - z)
    | 6 => Fp.ofInt ((BitVec.ofNat 4 q).toInt - (BitVec.ofNat 4 z).toInt)
    | _ => Fp.ofInt ((q : Int) - (z % 16 : Nat))
  (v.mul (fp16.unpack (d.toNat / 65536))).getD v

/-- Element k of a column or row of 128 bytes at `a`: a 4-bit one lies in block 0, the low nibble first; an 8-bit one fills
both blocks, each under its own descriptor (R68, R207). -/
def stripElement (m : Tab Byte) (d0 d1 : Word) (a k : Nat) : Fp :=
  if narrowFmt d0 then elementOf d0 ((memByte m (a + k / 2)).toNat / 16 ^ (k % 2) % 16)
  else elementOf (if k < 64 then d0 else d1) (memByte m (a + k)).toNat

/-- A contribution enters an accumulator word: the word and the bits of both roundings (R208, R209). -/
def enter (old : Nat) (c : FRes) : Nat × FBits :=
  let r := fp32.add .rn old c.1
  (r.1, c.2 ||| if (fp32.unpack old).isNan || (fp32.unpack c.1).isNan then r.2 &&& 0x2F else r.2)

/-- Word n of row i after a narrow exposure (R208): the segments in ascending order. -/
def exposedWord (sw : Swatch) (neg : Tab Byte) (descs : Tab Word) (at_ old i n : Nat) : Nat × FBits :=
  let a := at_ + 128 * i
  let seg := fun (sg : Nat) => contribution
    ((List.range 64).map fun k => stripElement sw.spad (descAt sw a) (descAt sw (a + 64)) a (64 * sg + k))
    ((List.range 64).map fun k => stripElement neg (descs.getD (2 * n) 0) (descs.getD (2 * n + 1) 0) (128 * n) (64 * sg + k))
  let x := enter old (seg 0)
  let y := enter x.1 (seg 1)
  (y.1, x.2 ||| y.2)

/-- A complex FP32 value (R65). -/
def complexOf (m : Tab Byte) (a : Nat) : Fp × Fp :=
  (fp32.unpack (leSum (memBytes m a 4)), fp32.unpack (leSum (memBytes m (a + 4) 4)))

/-- The sum of block j for one part of element (i, n), and whether a product was dropped (R211). -/
def complexBlock (sw : Swatch) (neg : Tab Byte) (at_ i n j : Nat) (im : Bool) : FRes × Bool :=
  let ks := (List.range 8).map fun k => 8 * j + k
  let x := ks.map fun k => complexOf sw.spad (at_ + 256 * i + 8 * k)
  let y := ks.map fun k => complexOf neg (256 * n + 8 * k)
  if im then blockSum ((x.map fun p => p.1) ++ x.map fun p => p.2) ((y.map fun p => p.2) ++ y.map fun p => p.1)
  else blockSum ((x.map fun p => p.1) ++ x.map fun p => p.2.negate) ((y.map fun p => p.1) ++ y.map fun p => p.2)

/-- The pair of one part after the four blocks entered in order (R98, R211). -/
def complexPart (sw : Swatch) (neg : Tab Byte) (at_ hi lo i n : Nat) (im : Bool) : Nat × Nat × FBits :=
  [0, 1, 2, 3].foldl (fun r j =>
    let x := (complexBlock sw neg at_ i n j im).1
    let y := caccPart r.1 r.2.1 x.1
    (y.1, y.2.1, r.2.2 ||| x.2 ||| y.2.2)) (hi, lo, 0)

/-- Word c of row i of the tile that holds elements `first` to `first + 15`. -/
def complexWord (sw : Swatch) (neg : Tab Byte) (x : Tile) (at_ first i c : Nat) : Nat × FBits :=
  let p := c / 2 * 2
  let r := complexPart sw neg at_ (x.word i p) (x.word i (p + 1)) i (first + c / 4) (c / 2 % 2 == 1)
  (if c % 2 = 0 then r.1 else r.2.1, r.2.2)

/-- A tile after an exposure (R206, R208): active rows take their new words, the status collects. -/
def Exposed (x y : Tile) (act : Mask) (cell : Nat → Nat → Nat × FBits) (lost bad : Bool) : Prop :=
  let any := fun (b : Nat) => (lanesOf act).any fun i => (List.range 64).any fun n => (cell i n).2.getLsbD b
  (∀ i n, i < 32 → n < 64 → y.word i n = if act.getLsbD i then (cell i n).1 else x.word i n) ∧
    y.nx = (x.nx || any 0) ∧ y.uf = (x.uf || any 1) ∧ y.ofl = (x.ofl || any 2) ∧ y.nv = (x.nv || any 4) ∧
    y.lost = (x.lost || lost) ∧ y.poison = (x.poison || bad) ∧ y.dual = x.dual

/-- The tiles that a dual instruction on `t` writes: the primary and its check copy (R212). -/
def written (sw : Swatch) (dual : Bool) (t x : Nat) : Prop := x = t ∨ (dual = true ∧ x = t + sw.accMap.length / 2)

/-- Uncorrectable data lies in a range. -/
def badIn (sw : Swatch) (a n : Nat) : Bool := (List.range n).any fun j => sw.spadBad.contains ((a + j) / 32 * 32)

/-- Uncorrectable data lies in what is read of a column or row: of a 4-bit one, in its first block (R207). -/
def stripBad (sw : Swatch) (a : Nat) : Bool := badIn sw a (if narrowFmt (descAt sw a) then 64 else 128)

/-- An exposure in flight. -/
def exposing (f : Flight) : Bool :=
  match f.kind with
  | .exposure _ => true
  | _ => false

/-- An exposure in flight still reads the slot (R214). -/
def slotRead (sw : Swatch) (n : Nat) : Prop := ∃ p ∈ sw.wefts, ∃ f ∈ p.2.flights, f.kind = .exposure n

/-- An exposure finds its heavy slot and a row buffer (R214). -/
def room (s : State) (k : Site) : Prop :=
  let busy := fun (sw : Swatch) => (sw.wefts.map fun p => (p.2.flights.filter exposing).length).sum
  busy k.sw < max 1 k.sw.heavy ∧
    (s.swatches.map fun p => if p.2.core? == k.core then busy p.2 else 0).sum < Config.rowBuffers

/-- An enlarger instruction that writes no register has issued. -/
def Enlarges (s t : State) (k : Site) (i : Instr) (w : Weft) (f : Flight) (u : Swatch) : Prop :=
  exec i s = .next t ∧ OnlySwatch s t k w u ∧ Begins k i w f ∧ f.vwr = [] ∧ f.swr = [] ∧ w.preds = k.w.preds ∧
    w.fstat = k.w.fstat

/-- Element j after p passes of the butterfly, distances 1, 2, 4, … (R222), and the bits of its last rounding. -/
def butterfly (x : Nat → Nat) : Nat → Nat → Nat × FBits
  | 0, j => (x j, 0)
  | p + 1, j =>
    if j / 2 ^ p % 2 = 0 then fp32.add .rn (butterfly x p j).1 (butterfly x p (j + 2 ^ p)).1
    else fp32.sub .rn (butterfly x p (j - 2 ^ p)).1 (butterfly x p j).1

/-- An element of a transformed row and the bits it collects (R222). -/
def hadamard (x : Nat → Nat) (size j : Nat) (norm bf : Bool) : Nat × FBits :=
  let y := butterfly x (size + 4) j
  let bits := (List.range (size + 5)).foldl (fun b p => b ||| (butterfly x p j).2) 0
  let z := if norm then fp32.mul .rn y.1 (if size = 0 then 0x3E800000 else if size = 1 then 0x3E3504F3 else 0x3E000000) else (y.1, 0)
  let o := if bf then fp32.convert bf16 .rn false z.1 else (z.1, 0)
  (o.1, bits ||| z.2 ||| o.2)

/-- What ACCRD writes of a row: bytes a row, the byte at an offset and the descriptor, from the row's words (R225, R226). -/
structure Drain where
  stride : Nat
  byte : (Nat → Nat) → Nat → Nat
  desc : (Nat → Nat) → Option Word
  bits : (Nat → Nat) → FBits

/-- The scaling exponent of R226 for a row. -/
def scaleOf (big : Nat) (ws : Nat → Nat) (e : Int) : Prop :=
  let x := fun n => fp32.unpack (ws n)
  let zero := ∀ n, n < 64 → (x n).isZero = true ∨ (x n).isNan = true ∨ x n = .inf false ∨ x n = .inf true
  (zero → e = 0) ∧ (¬ zero → -14 ≤ e ∧ e ≤ 15 ∧ ((∀ n, n < 64 → (x n).magLe big e = true) ∨ e = 15) ∧
    (e = -14 ∨ ∃ n, n < 64 ∧ (x n).magLe big (e - 1) = false))

def orBits (n : Nat) (f : Nat → FBits) : FBits := (List.range n).foldl (fun b j => b ||| f j) 0

/-- A described row: each word over 2^e, converted (R63, R226). -/
def described (dst : Fmt) (fmt : Nat) (e : Int) : Drain :=
  let c := fun (ws : Nat → Nat) (n : Nat) => dst.convertFp .rn true ((fp32.unpack (ws n)).shift e)
  ⟨64, fun ws o => (c ws o).1, fun _ => some (BitVec.ofNat 32 ((e + 15).toNat * 2 ^ 26 + fmt)), fun ws => orBits 64 fun n => (c ws n).2⟩

def drainF32 : Drain := ⟨256, fun ws o => ws (o / 4) / 256 ^ (o % 4), fun _ => none, fun _ => 0⟩

def drainBf16 : Drain :=
  let c := fun (ws : Nat → Nat) (n : Nat) => fp32.convert bf16 .rn false (ws n)
  ⟨128, fun ws o => (c ws (o / 2)).1 / 256 ^ (o % 2), fun _ => none, fun ws => orBits 64 fun n => (c ws n).2⟩

/-- The rows that a data form drains, or the status words, differ from the check copy's (R213). -/
def copyDiffers (sw : Swatch) (act : Mask) (t : Nat) : Prop :=
  let c := sw.tile (t + sw.accMap.length / 2)
  (sw.tile t).dual = true ∧ ((sw.tile t).status.toNat % 64 ≠ c.status.toNat % 64 ∨
    ∃ l n, l < 32 ∧ n < 64 ∧ act.getLsbD l = true ∧ (sw.tile t).word l n ≠ c.word l n)

/-- A finite datum as a whole number of 2^e. -/
def unitsOf (e : Int) : Fp → Int
  | .fin n m x => (if n then -1 else 1) * (m : Int) * 2 ^ (x - e).toNat
  | _ => 0

/-- No finite datum of the list has an exponent below e. -/
def aligned (e : Int) (ps : List Fp) : Prop := ∀ n m x, Fp.fin n m x ∈ ps → e ≤ x

/-! ## Deadlines, energy accounts, collectives and the system instructions -/

/-- The issuing cluster after the charge of this issue (R289, R291). -/
def chargedCluster (s : State) (k : Site) (i : Instr) : Cluster := (s.chargeIssue k i.op false false).cluster k.clu

/-- The account word (R297). -/
def accountPair (count : Nat) (sat : Bool) : List Word := words64 (BitVec.ofNat 64 (count + if sat then 2 ^ 63 else 0))

/-- A signed number kept within 32 bits. -/
def clamp32 (x : Int) : Word := BitVec.ofInt 32 (if x < -(2 ^ 31) then -(2 ^ 31) else if 2 ^ 31 - 1 < x then 2 ^ 31 - 1 else x)

/-- Nothing waits in a write buffer or on its way. -/
def Quiet (s : State) : Prop := (∀ c, (s.core c).wbuf = []) ∧ ∀ d, (s.die d).out = []

/-- A scalar result is in its group and the word is over. -/
def Writes (k : Site) (i : Instr) (w : Weft) (d : Dst) (xs : List Word) : Prop :=
  (∀ j, j < xs.length → k.after w d j 0 = xs.getD j 0) ∧ RegsKept k i w ∧ w.preds = k.w.preds ∧ w.fstat = k.w.fstat ∧
    Advanced k i w

/-- A pinned page meets the range that a TLBINV names: the page of `va`, the larger of the two deciding, or all of it. -/
def pinInRange (s : State) (ctx : Word) (va : Option Nat) (p : Pin) : Prop :=
  ∀ x, va = some x → let sh := max p.shift (s.pageShift ctx x); p.va % 2 ^ 57 / 2 ^ sh = x / 2 ^ sh

/-- Every access of the context that began under an older generation has delivered its data, and other packages have
acknowledged what was sent to them (R316). -/
def AccessesOver (s : State) (ctx : Word) (gen : Nat) : Prop :=
  s.pkg.acked = true ∧ ∀ p ∈ s.swatches, p.2.ctx = ctx → ∀ q ∈ p.2.wefts, ∀ f ∈ q.2.flights, f.kind = .plain → gen ≤ f.gen

/-- A TLBINV or PGATTR whose effect stands: it delivers its words when older accesses are over, and holds its weft until
then (R316). -/
def Invalidates (s t : State) (k : Site) (i : Instr) (w : Weft) (d : Dst) (ctx : Word) (gen : Nat) (ws : List Word) : Prop :=
  (AccessesOver s ctx gen → w.wait = none ∧ Writes k i w d ws) ∧
    (¬ AccessesOver s ctx gen → (∃ y, w.wait = some y ∧ y.instr = i ∧ y.form = .tlbinv ctx gen ws) ∧
      w.vregs = k.w.vregs ∧ w.sregs = k.w.sregs ∧ w.preds = k.w.preds) ∧
    t.weft? k.sid k.wid = some w

/-- Contexts of swatches that come back from the shadow stores have an account entry in their cluster, or one is free (R287). -/
def entryFor (s : State) (clu : Nat) (ctx : Word) : Prop :=
  (s.cluster clu).accounts.any (fun a => a.ctx == ctx) = true ∨ (s.cluster clu).accounts.length < Config.accounts

/-- No TLB of the package holds an entry of the context that covers the address, or any under `none`; all others stay. -/
def Dropped (s t : State) (ctx : Word) (va : Option Nat) : Prop :=
  let named := fun (e : TlbEntry) => match va with | some a => e.covers ctx a | none => e.ctx == ctx
  (∀ c, (t.core c).tlb = (s.core c).tlb.filter fun e => !named e) ∧
    ∀ c, (t.cluster c).tlb = (s.cluster c).tlb.filter fun e => !named e

/-- The descriptor's values are those R399 to R401 admit for XRED, XBC and XAG. -/
def plainDescOk (form : Nat) (bs : List Byte) : Bool :=
  let f := fun (off n : Nat) => leSum ((bs.drop off).take n)
  let nmem := f 0x20 2
  let out := if form = 3 then nmem * f 0x10 4 else f 0x10 4
  (f 0x17 1 == 0 && (bs.drop 0x34).all (fun b => b == 0) && f 0x24 4 == 0 && (bs.drop 0x28).all (fun b => b == 0)) &&
    (f 0 8 % 32 == 0 && f 8 8 % 32 == 0 && f 0x10 4 % 32 == 0 && f 0x10 4 != 0 && decide (1 ≤ nmem) && decide (nmem ≤ 4096)) &&
    (if form = 1 then decide (f 0x16 1 ≤ 3) else f 0x16 1 == 0) &&
    (if form = 2 then decide (f 0x22 2 < nmem) else f 0x22 2 == 0) &&
    (decide (f 0 8 + f 0x10 4 ≤ f 8 8) || decide (f 8 8 + out ≤ f 0 8))

def collForm : Instr → Option (Nat × Dst × Src × Option Src)
  | .xperm d a b _ => some (0, d, a, some b)
  | .xred d a _ => some (1, d, a, none)
  | .xbc d a _ => some (2, d, a, none)
  | .xag d a _ => some (3, d, a, none)
  | _ => none

/-! ## Events -/

/-- From `s` to `t` one weft has changed, and nothing else in the machine. -/
structure OneWeft (s t : State) (sid wid : Nat) (w : Weft) : Prop where
  weft : t.weft? sid wid = some w
  rest : { t with swatches := s.swatches } = s
  others : ∀ a b, (a, b) ≠ (sid, wid) → t.weft? a b = s.weft? a b
  swatch : ∀ a, (t.swatch? a).map (fun x => { x with wefts := [] }) = (s.swatch? a).map fun x => { x with wefts := [] }

/-- From `s` to `t` one swatch has changed, and nothing else in the machine. -/
structure OneSwatch (s t : State) (sid : Nat) (u : Swatch) : Prop where
  swatch : t.swatch? sid = some u
  rest : { t with swatches := s.swatches } = s
  others : ∀ a, a ≠ sid → t.swatch? a = s.swatch? a

/-- From `s` to `t` one cluster has changed, and nothing else in the machine. -/
structure OneCluster (s t : State) (n : Nat) (c : Cluster) : Prop where
  cluster : t.cluster n = c
  rest : { t with clusters := s.clusters } = s
  others : ∀ a, a ≠ n → t.cluster a = s.cluster a

/-- From `s` to `t` one core has changed, and nothing else in the machine. -/
structure OneCore (s t : State) (n : Nat) (c : Core) : Prop where
  core : t.core n = c
  rest : { t with cores := s.cores } = s
  others : ∀ a, a ≠ n → t.core a = s.core a

/-- From `s` to `t` one die has changed, and nothing else in the machine. -/
structure OneDie (s t : State) (n : Nat) (d : Die) : Prop where
  die : t.die n = d
  rest : { t with dies := s.dies } = s
  others : ∀ a, a ≠ n → t.die a = s.die a

/-- From `s` to `t` only the package record has changed, to `p`. -/
def OnlyPkg (s t : State) (p : Package) : Prop := t = { s with pkg := p }

/-- The weft of a placed swatch stands in its slot and neither has ended nor is halted. -/
structure Resident (s : State) (sid wid : Nat) (sw : Swatch) (w : Weft) : Prop where
  swatch : s.swatch? sid = some sw
  weft : s.weft? sid wid = some w
  here : w.place ≠ .absent
  runs : w.ended = false ∧ w.halted = none

/-- The entry that R101 selects, the pcs of the frontier being distinct. -/
structure Top (w : Weft) (e : Entry) : Prop where
  mem : e ∈ w.frontier
  best : ∀ x ∈ w.frontier, x.prio < e.prio ∨ (x.prio = e.prio ∧ e.pc.toNat ≤ x.pc.toNat)
  apart : w.frontier.Pairwise fun a b => a.pc ≠ b.pc

/-- The weft stands in the handler with this cause, pc, lanes, address and information; its registers stand. -/
structure InHandler (w w' : Weft) (cause : Nat) (pc : Word) (lanes : Mask) (addr : DWord) (info : Word) : Prop where
  mode : w'.trapMode = true
  record : w'.trec.tcause = BitVec.ofNat 32 cause ∧ w'.trec.tpc = pc ∧ w'.trec.tlanes = lanes ∧ w'.trec.taddr = addr ∧
    w'.trec.tinfo = info
  kept : w'.vregs = w.vregs ∧ w'.sregs = w.sregs ∧ w'.preds = w.preds ∧ w'.flights = w.flights ∧ w'.vwin = 0 ∧ w'.swin = 0

/-- The pending trap that R120 takes first: cause and information; the hang's lanes are the top entry's. -/
def firstPending (p : Pending) (e : Entry) : Option (Nat × Mask × DWord × Word) :=
  match p.copyError, p.arrayMismatch, p.deadlineRisk, p.hang with
  | x :: _, _, _, _ => some (0x10, 0, x.1, x.2)
  | [], t :: _, _, _ => some (0x11, 0, 0, t)
  | [], [], n :: _, _ => some (0x12, 0, 0, n)
  | [], [], [], true => some (0x19, e.mask, 0, e.pc)
  | [], [], [], false => none

/-- Forms of wait that a pending trap leaves with nothing else to settle (R120): a BAR keeps its count. -/
def leavesOff : WaitForm → Bool
  | .bar _ _ _ => false
  | .jobsDone _ => false
  | .halt _ => false
  | .quiesce _ => false
  | .tlbinv _ _ _ => false
  | _ => true

/-- A flight has landed: its registers take its words in its lanes, its fstat bits are set, its flag counts one less. -/
structure Landed (w w' : Weft) (f : Flight) (ix : Nat) : Prop where
  vector : ∀ n m x, (n, m, x) ∈ f.vwr → ∀ l, l < 32 →
    laneAt (w'.vget n) l = if m.getLsbD l then laneAt x l else laneAt (w.vget n) l
  scalar : ∀ n x, (n, x) ∈ f.swr → w'.sget n = x
  vothers : ∀ n, (∀ m x, (n, m, x) ∉ f.vwr) → w'.vregs.get? n = w.vregs.get? n
  sothers : ∀ n, (∀ x, (n, x) ∉ f.swr) → w'.sregs.get? n = w.sregs.get? n
  flag : ∀ g, w'.flag g = if g = f.flag then w.flag g - 1 else w.flag g
  fstat : w'.fstat = w.fstat ||| f.fst
  flights : w'.flights = w.flights.eraseIdx ix
  kept : w'.preds = w.preds ∧ w'.frontier = w.frontier ∧ w'.clause = w.clause ∧ w'.trapMode = w.trapMode

/-- The waiting weft has been told to test again. -/
def Woken (w w' : Weft) : Prop := ∃ x, w.wait = some x ∧ w'.wait = some { x with woken := true }

/-! ## Copy jobs, buffers and floors -/

/-- A byte that an agent of the die may read in place: homed on the die, present and not uncorrectable. -/
def Readable (s : State) (die a : Nat) : Prop :=
  pkgOf a = s.pkg.fpkg ∧ dieOf a = die ∧ s.present (sectorOf a) = true ∧ sectorOf a ∉ s.bad

/-- A byte of this package that a write reaches, on a die that tracks no dirty pages. -/
def Writable (s : State) (a : Nat) : Prop :=
  pkgOf a = s.pkg.fpkg ∧ s.present (sectorOf a) = true ∧ (s.die (dieOf a)).mig.track = false

/-- No die tracks dirty pages (R406). -/
def Untracked (s : State) : Prop := ∀ d, (s.die d).mig.track = false

/-- The memory of `t` is that of `s` with the listed bytes. -/
def Wrote (s t : State) (bs : List (Nat × Byte)) : Prop :=
  (∀ p ∈ bs, memByte t.mem p.1 = p.2) ∧ ∀ a, (∀ p ∈ bs, p.1 ≠ a) → memByte t.mem a = memByte s.mem a

/-- The core's jobs are as before but for the job at `ix`. -/
def JobMoved (s t : State) (core ix : Nat) (j : Job) : Prop := (t.core core).jobs = (s.core core).jobs.set ix j

/-- The job at `ix` has left its place, its status is remembered, and its owner's flag has fallen (R175, R194). -/
structure JobEnded (s t : State) (core ix : Nat) (j : Job) (sw u : Swatch) (state : Nat) : Prop where
  place : (t.core core).jobs = (s.core core).jobs.eraseIdx ix
  swatch : t.swatch? j.sid = some u
  log : (sw.jobs + 2 ^ 32 - 1 - j.num) % 2 ^ 32 < 64 → u.jobLog.get? j.num = some ⟨j.lines, j.err, state⟩
  owner : ∀ w f fx, s.weft? j.sid j.owner = some w → w.flights[fx]? = some f → f.kind = .copyJob core j.num →
    (∀ g ∈ w.flights.take fx, g.kind ≠ .copyJob core j.num) → f.poison = none → (f.vwr.map fun x => x.1).Nodup →
    (f.swr.map fun x => x.1).Nodup → ∃ w', t.weft? j.sid j.owner = some w' ∧ Landed w w' f fx
  waiters : t.recordBusy j.sid j.record = false → ∀ wid w x, s.weft? j.sid wid = some w → w.wait = some x →
    x.form = .jobsDone j.record → ∃ w', t.weft? j.sid wid = some w' ∧ Woken w w'
  kept : u.spad = sw.spad ∧ u.full = sw.full ∧ u.descs = sw.descs ∧ t.mem = s.mem

/-- A write takes its place in its sector's order at the home (R318): the bytes and the sequence number. -/
structure PlacedWrite (s t : State) (sec : Nat) (bs : Tab Byte) : Prop where
  bytes : ∀ o, o < 32 → memByte t.mem (sec + o) = (bs.get? o).getD (memByte s.mem (sec + o))
  others : ∀ a, (a < sec ∨ sec + 32 ≤ a) → memByte t.mem a = memByte s.mem a
  order : (t.die (dieOf sec)).seqs.getD sec 0 = (s.die (dieOf sec)).seqs.getD sec 0 + 1

/-! ## Command queues -/

/-- The bytes of a 32-bit and of a 64-bit word, low byte first, at an address. -/
def wordAt (a n : Nat) : List (Nat × Byte) := (List.range 4).map fun i => (a + i, BitVec.ofNat 8 (n / 2 ^ (8 * i)))
def dwordAt (a n : Nat) : List (Nat × Byte) := (List.range 8).map fun i => (a + i, BitVec.ofNat 8 (n / 2 ^ (8 * i)))

/-- No byte of the list lies in the descriptor at `a`. -/
def Apart (a : Nat) (bs : List (Nat × Byte)) : Prop :=
  (bs.map fun p => p.1).Nodup ∧ ∀ p ∈ bs, p.1 < a ∨ a + 64 ≤ p.1

/-- A queue's descriptor stands in memory that the front end writes. -/
def InMemory (s : State) (d : QDesc) : Prop := d.at_ % 64 = 0 ∧ ∀ o, o < 64 → Writable s (d.at_ + o)

/-- The queue is eligible (R351) with its descriptor `d`, its next packet has the bytes `bs`, and what it reads of another
package has been read (R395). -/
structure PacketAt (s : State) (ctx : Word) (q : Nat) (x : QState) (c : Ctx) (p : Part) (d : QDesc) (bs : List Byte) : Prop where
  queue : s.queue? ctx q = some x
  context : s.ctx? ctx = some c
  part : s.parts.get? c.part = some p
  desc : d = s.queueDesc c q
  eligible : s.eligible x = true
  inRing : (d.tail + 2 ^ 32 - d.head) % 2 ^ 32 ≤ d.ring
  bytes : s.readPacket ctx d d.head = .ok bs
  read : s.packetNeeds x ⟨ctx, q, d, c.part, p, bs⟩ = []
  fresh : ∀ f ∈ s.finishes, ¬ (f.ctx = ctx ∧ f.q = q ∧ f.idx = d.head)
  home : InMemory s d

/-- The events of the packet types (R348). -/
def packetEvents (ctx : Word) (q : Nat) : List (Nat × Instr) :=
  [(1, .launchPacket ctx q), (2, .graphPacket ctx q), (3, .waitPacket ctx q), (4, .signalPacket ctx q), (5, .copyPacket ctx q),
    (6, .qbarrierPacket ctx q), (7, .fencePacket ctx q)]

/-- The queue's front end sends a read of each sector to its home, and notes it for the packet (R395). -/
def Reads (s t : State) (ctx : Word) (q : Nat) (x : QState) (idx : Nat) (secs : List Nat) : Prop :=
  t.mem = s.mem ∧ t.pkg.sent = s.pkg.sent ++ (List.range secs.length).map (fun j => ⟨pkgOf (secs.getD j 0), dieOf (secs.getD j 0), false,
      s.pkg.fpkg, s.frontDie ctx, false, 1, (s.pkg.nextTxn + j) % 2 ^ 20, secs.getD j 0, []⟩) ∧
    ∃ y, t.queue? ctx q = some y ∧ { y with reads := [] } = { x with reads := [] } ∧ ∀ sec ∈ secs, ∃ r ∈ y.reads, r.idx = idx ∧ r.sector = sec

/-- The packet-done record follows where the packet asks for it (R348, R354). -/
def withDone (u : State) (evt : Bool) (ty : Nat) (ctx : Word) (q idx : Nat) : State :=
  if evt then u.post (u.record 0x25 ty ctx (BitVec.ofNat 32 q) (BitVec.ofNat 32 idx) 0 0 0) else u

/-- The queue stops at its packet after the bytes it wrote: ecode and eidx are written, head stands, and the sticky record
is posted (R353). -/
def QueueStopsAfter (s : State) (i : Instr) (ctx : Word) (q : Nat) (d : QDesc) (code : Nat) (ws : List (Nat × Byte)) : Prop :=
  ∃ u, Wrote s u (ws ++ wordAt (d.at_ + 0x20) (code * 2 ^ 24) ++ wordAt (d.at_ + 0x24) d.head) ∧ u.finishes = s.finishes ∧
    u.launches = s.launches ∧ exec i s = .next (u.post { u.record 0x20 code ctx (BitVec.ofNat 32 q) (BitVec.ofNat 32 d.head) 0 0 0 with
      queue := some q })

def QueueStops (s : State) (i : Instr) (ctx : Word) (q : Nat) (d : QDesc) (code : Nat) : Prop :=
  QueueStopsAfter s i ctx q d code []

/-- The cluster has a core that is neither vacated by QUIESCE nor fenced (R364, R384). -/
def keepsCore (s : State) (k : Nat) : Bool :=
  !s.pkg.fclus.testBit k && (List.range 6).any fun n => !(s.core (6 * k + n)).vacated && !(s.pkg.fcore.getD k 0).testBit n

/-- The clusters of a core set that have a core left (R364); all of them where none has (log 106). -/
def withCores (s : State) (cs : List Nat) : List Nat :=
  let l := cs.filter (keepsCore s)
  if l = [] then cs else l

/-- The page that dval is written to is pinned until then (R352). -/
def PinsDadr (s : State) (ctx : Word) (va : Nat) (pa : Option Nat) (pg : Option Pin) : Prop :=
  pg.isSome = pa.isSome ∧ ∀ x, pg = some x → x.va = va / 65536 * 65536 ∧ pa.map (fun a => a / 65536 * 65536) = some x.pa ∧
    x.desc = false ∧ ∀ y, s.walkPa ctx va = .ok y → x.shift = y.shift

/-- The packet starts and completes at once: head and done advance after the bytes it writes. -/
def PacketPasses (s : State) (i : Instr) (ctx : Word) (q : Nat) (x : QState) (d : QDesc) (ty : Nat) (evt : Bool)
    (ws : List (Nat × Byte)) : Prop :=
  ∃ u, Wrote s u (ws ++ wordAt (d.at_ + 0x14) (d.head + 1) ++ wordAt (d.at_ + 0x18) (d.done + 1)) ∧ u.finishes = s.finishes ∧
    u.queue? ctx q = some { x with aged := false, waited := 0 } ∧ exec i s = .next (withDone u evt ty ctx q d.head)

/-- The packet starts and is held after the bytes it wrote: head advances, nothing else starts in its queue (R350). -/
def PacketHoldsAfter (s : State) (i : Instr) (ctx : Word) (q : Nat) (x : QState) (d : QDesc) (ty : Nat) (evt : Bool) (h : Held)
    (ws : List (Nat × Byte)) : Prop :=
  ∃ u, exec i s = .next u ∧ Wrote s u (ws ++ wordAt (d.at_ + 0x14) (d.head + 1)) ∧
    u.finishes = s.finishes ++ [⟨ctx, q, d.head, ty, evt, none, 0, none⟩] ∧
    u.queue? ctx q = some { x with aged := false, waited := 0, held := some (d.head, h) }

def PacketHolds (s : State) (i : Instr) (ctx : Word) (q : Nat) (x : QState) (d : QDesc) (ty : Nat) (evt : Bool) (h : Held) : Prop :=
  PacketHoldsAfter s i ctx q x d ty evt h []

/-- The queue waits for the next write of its tail word; nothing has been performed (R352). -/
def QueueParks (s : State) (i : Instr) (ctx : Word) (q : Nat) (x : QState) (d : QDesc) (addr : Nat) : Prop :=
  ∃ u : State, u.mem = s.mem ∧ u.finishes = s.finishes ∧ u.queue? ctx q = some { x with aged := false, waited := 0, parked := true } ∧
    exec i s = .next (u.post (u.record 0x21 0 ctx (BitVec.ofNat 32 q) (BitVec.ofNat 32 d.head) (BitVec.ofNat 32 addr)
      (BitVec.ofNat 32 (addr / 2 ^ 32)) 0))

/-- The partition is a member of a roll group, and the group's table names it (R396). -/
def InRoll (s : State) (part : Nat) (p : Part) : Prop :=
  2 ≤ p.ngrp ∧ ∃ j, j < p.ngrp ∧ nbits (s.homeDword (p.gtab + 8 * j)) 20 16 = part ∧
    nbits (s.homeDword (p.gtab + 8 * j)) 11 0 = s.pkg.fpkg

/-! ## Power -/

/-- The smallest of the 87 steps of the FLL at or above x/y MHz times 17/16, at most `cap` (R275, R285). -/
def stepFor (x y cap : Nat) : Nat :=
  ((((List.range 87).map fun i => 300 + 25 * i).filter fun f => decide (f ≤ cap)).find? fun f =>
    decide (17 * x ≤ 16 * y * f)).getD cap

/-- Issues and cycles of the last 10 µs of reference time (R285); of a sample that began before them, its cycles in
proportion (log 105). -/
def windowOf (d : Deadline) (tim : Nat) : Nat × Nat :=
  let w := d.log.filter fun x => decide (tim < x.stop + 10000)
  ((w.map fun x => x.issues).sum,
    (w.map fun x => if x.stop ≤ x.start then x.cycles
      else x.cycles * (x.stop - max x.start (tim - 10000)) / (x.stop - x.start)).sum)

/-- want(c) of R285. -/
def wanted (d : Deadline) (tim cap : Nat) : Nat :=
  let r := d.work - d.issues
  let left := d.due - tim
  let w := windowOf d tim
  if r = 0 then 300
  else if left = 0 ∨ w.1 < 1024 ∨ w.2 = 0 then stepFor cap 1 cap
  else stepFor (1000 * r * w.2) (w.1 * left) cap

/-- The condition of a risk event in R285. -/
def risky (d : Deadline) (tim cap : Nat) : Bool :=
  let r := d.work - d.issues
  let left := d.due - tim
  let w := windowOf d tim
  decide (0 < r ∧ (left = 0 ∨ (1024 ≤ w.1 ∧ 0 < w.2 ∧ left * w.1 * cap < r * w.2 * 1000)))

/-- An open step whose risk this evaluation finds first. -/
def newRisk (d : Deadline) (tim cap : Nat) : Bool := d.opened && !d.risk && risky d tim cap

/-- The context whose weighted issue energy fell most between two intervals, the lowest of equals (R282). -/
def Departs (prev cur : Tab Nat) (ctx : Word) : Prop :=
  (prev.map fun x => x.1).Pairwise (· < ·) ∧ ∃ p, prev.get? ctx.toNat = some p ∧ ∀ n q, prev.get? n = some q →
    q - cur.getD n 0 ≤ p - cur.getD ctx.toNat 0 ∧ (q - cur.getD n 0 = p - cur.getD ctx.toNat 0 → ctx.toNat ≤ n)

/-- Ticks of a context's residency in the running energy period. -/
def ticksOf (r : Tab Nat) (ctx : Word) : Nat := r.getD ctx.toNat 0

/-! ## The package -/

/-- The package stands in reset with the reason shifted into reason0 (R379, R382). -/
structure ResetWith (s t : State) (reason fsc : Nat) : Prop where
  reasons : t.pkg.reasons = BitVec.ofNat 32 reason :: s.pkg.reasons.take 7
  pkg : t.pkg.boot = .held ∧ t.pkg.fsc = fsc ∧ (s.pkg.repl = true → t.pkg.repl = true) ∧ t.pkg.flash = s.pkg.flash ∧ t.pkg.fclus = 0 ∧
    t.pkg.fport = 0 ∧ t.pkg.fd2d = 0
  empty : t.swatches = [] ∧ t.cores = [] ∧ (∀ c, t.cluster c = Cluster.reset) ∧ t.dies = [] ∧ t.ctxs = [] ∧ t.parts = [] ∧ t.queues = [] ∧
    t.launches = [] ∧ t.graphs = [] ∧ t.regions = []

/-- The reason of the first stage that fails in a start: its code and the stage (R381, R382). -/
def stageReason (p : Package) (rep : StartReport) : Option (Nat × Nat) :=
  [0, 1, 2, 3].findSome? fun k =>
    if rep.flashError = some k then some (0x09, k)
    else if rep.signatureBad = some k then some (0x01, k)
    else if p.flashVer.getD k 0 < p.fusedVer.getD k 0 then some (0x02, k)
    else if k ≠ 0 ∧ rep.watchdog = some k then some (0x07, k)
    else none

/-- Code and argument of the latest reason record. -/
def lastReason (p : Package) : Nat × Nat := ((p.reasons.getD 0 0).toNat % 256, (p.reasons.getD 0 0).toNat / 256 % 256)

/-- The masks after a fencing: the bit of one unit is set and no other bit has changed. -/
def FencedOne (p q : Package) (u : FenceUnit) : Prop :=
  match u with
  | .core n => q.fcore = p.fcore.modify (n / 6) (fun m => m ||| 2 ^ (n % 6)) ∧ q.fclus = p.fclus ∧ q.flink = p.flink ∧
      q.fport = p.fport ∧ q.fd2d = p.fd2d
  | .cluster n => q.fclus = p.fclus ||| 2 ^ n ∧ q.fcore = p.fcore ∧ q.flink = p.flink ∧ q.fport = p.fport ∧ q.fd2d = p.fd2d
  | .memLink d l => q.flink = p.flink.modify d (fun m => m ||| 2 ^ l) ∧ q.fcore = p.fcore ∧ q.fclus = p.fclus ∧
      q.fport = p.fport ∧ q.fd2d = p.fd2d
  | .port n => q.fport = p.fport ||| 2 ^ n ∧ q.fcore = p.fcore ∧ q.fclus = p.fclus ∧ q.flink = p.flink ∧ q.fd2d = p.fd2d
  | .d2d k => q.fd2d = p.fd2d ||| 2 ^ k ∧ q.fcore = p.fcore ∧ q.fclus = p.fclus ∧ q.flink = p.flink ∧ q.fport = p.fport

/-- The cores that a fenced unit takes away. -/
def takes (u : FenceUnit) (core : Nat) : Prop :=
  match u with
  | .core n => core = n
  | .cluster n => clusterOfCore core = n
  | _ => False

/-! ## Messages -/

/-- The operation's swatch stands on a core (R404). -/
def InEngine (s : State) (c : Coll) : Prop := ∃ sw, s.swatch? c.sid = some sw ∧ (sw.control ≠ none ∨ sw.core? ≠ none)

/-- What another package has answered for a sector of this member's source (R395). -/
def sourceAnswer (c : Coll) (sec : Nat) : Option (List Byte × Bool) :=
  (c.away.find? fun a => a.lane == none && a.addr == sec).bind fun a => a.answer

/-- A byte of a rank's source, with whether it is uncorrectable: of this member's at its home, or as another package has
answered; of another's as its messages have brought it (R401, R403). -/
def sourceByte (s : State) (c : Coll) (rank n : Nat) : Byte × Bool :=
  let d := collDesc c.desc
  let sec := c.pa (d.src + n / 32 * 32)
  if c.members.findIdx (fun m => m == s.pkg.fpkg) = rank then
    if pkgOf sec = s.pkg.fpkg then (memByte s.mem (sec + n % 32), s.bad.contains sec || !s.present sec)
    else ((sourceAnswer c sec).map fun x => (x.1.getD (n % 32) 0, x.2)).getD (0, true)
  else ((s.collMail? c rank).map fun x => (x.data.getD n 0, x.data.getD (d.len + n / 32) 0 != 0)).getD (0, true)

/-- Every sector of this member's source stands here, or has its answer (R395). -/
def SourceRead (s : State) (c : Coll) : Prop :=
  ∀ n, n < (collDesc c.desc).len / 32 → pkgOf (c.pa ((collDesc c.desc).src + 32 * n)) = s.pkg.fpkg ∨
    ∃ x, sourceAnswer c (c.pa ((collDesc c.desc).src + 32 * n)) = some x ∧ x.1.length = 32

/-- The member's verdict has gone to every other member, unless it had before; no more of the package has changed (R401,
log 119). -/
def Tells (s t : State) (die : Nat) (c : Coll) (n : Nat) : Prop :=
  ∃ ms, t.pkg = { s.pkg with sent := s.pkg.sent ++ ms } ∧ (c.told = true → ms = []) ∧
    (c.told = false → ∀ m, m ∈ ms ↔ ∃ p ∈ c.members, p ≠ s.pkg.fpkg ∧ p < 4096 ∧
      m = ⟨p, die, false, s.pkg.fpkg, die, false, 10, 0, 0, natBytes 4 (c.form * 65536 + (collDesc c.desc).tag) ++
        natBytes 4 c.issue ++ 0 :: natBytes 1 n ++ natBytes 4 c.digest.toNat⟩)

/-- A destination byte of an XRED, an XBC or an XAG, with whether uncorrectable data enters it (R401, R403). -/
def collByte (s : State) (c : Coll) (n : Nat) : Byte × Bool :=
  let d := collDesc c.desc
  if c.form = 1 then
    let o : ScanOp := if d.op = 0 then .addI32 else if d.op = 1 then .addF32 else if d.op = 2 then .maxI32 else .or
    let word := fun (r : Nat) => BitVec.ofNat 32 (leSum ((List.range 4).map fun i => (sourceByte s c r (n / 4 * 4 + i)).1))
    let top := node o (fun r => if r < d.nmem then some (word r) else none) 12 0
    ((((top.map fun x => x.1).getD 0) >>> (8 * (n % 4))).setWidth 8, (List.range d.nmem).any fun r => (sourceByte s c r n).2)
  else if c.form = 2 then sourceByte s c d.root n
  else sourceByte s c (n / d.len) (n % d.len)

/-! ## The fabric -/

/-- The flit that a port makes of a payload: its header, the payload filled with zeros, and the CRC (R391). -/
def flitOf (p : Port) (nak : Bool) (kind : Nat) (payload : List Byte) : List Byte :=
  let bs := natBytes 8 (p.sendSeq * 2 ^ 52 + (p.expect + 4095) % 4096 * 2 ^ 40 + (if nak then 2 ^ 39 else 0) + kind * 2 ^ 24) ++
    payload ++ List.replicate (112 - payload.length) 0
  bs ++ natBytes 8 (crc64 bs).toNat

/-- The port after it has put one flit on the wire and into its replay buffer. -/
def sendsFlit (p : Port) (f : List Byte) : Port :=
  { p with wire := p.wire ++ [f], replay := p.replay ++ [f], sendSeq := (p.sendSeq + 1) % 4096 }

/-- From `s` to `t` only one port has changed, to `x`. -/
structure OnlyPort (s t : State) (i : Nat) (x : Port) : Prop where
  port : t.pkg.port i = x
  others : ∀ j, j ≠ i → t.pkg.port j = s.pkg.port j
  rest : { t with pkg := { t.pkg with ports := s.pkg.ports } } = s

/-- A message of this package back to where `m` came from, under its tag (R391). -/
def replyTo (s : State) (m : Msg) (kind : Nat) (body : List Byte) : Msg :=
  ⟨m.spkg, m.sdie, m.sh, s.pkg.fpkg, m.ddie, false, kind, m.txn, m.addr, body⟩

/-- The unacknowledged requests of this package are those that the message does not answer. -/
def Answered (s t : State) (m : Msg) : Prop := ∀ r, r ∈ t.pkg.unacked ↔ r ∈ s.pkg.unacked ∧ r.txn ≠ m.txn

/-- A request of this kind waits under the message's tag. -/
def Asked (s : State) (m : Msg) (kind : Nat) : Prop := ∃ r ∈ s.pkg.unacked, r.txn = m.txn ∧ r.mkind = kind

/-- The accesses that wait under a tag have their answer; nothing else of a weft has changed. -/
def Delivered (s t : State) (txn : Nat) (x : List Byte × Bool) : Prop :=
  ∀ sid wid w, s.weft? sid wid = some w → t.weft? sid wid = some { w with
    away := w.away.map fun a => if a.txn = txn ∧ a.answer = none then { a with answer := some x } else a }

/-- The fields of a header are in their ranges. -/
def FitsHeader (m : Msg) : Prop :=
  m.dpkg < 4096 ∧ m.ddie < 4 ∧ m.spkg < 4096 ∧ m.sdie < 4 ∧ 1 ≤ m.mkind ∧ m.mkind ≤ 12 ∧ m.txn < 2 ^ 20 ∧ m.addr < 2 ^ 60


/-- The destination partition is enabled, holds no context, and has as many clusters as the source (R407). -/
def Suits (s : State) (part : Nat) (x : Transfer) : Prop :=
  ∃ p, s.parts.get? part = some p ∧ p.active = none ∧ (clustersOf p.clusters).length = x.clusters.length ∧
    ∀ c ∈ s.partCores p, (s.core c).shadow = none ∧ ∀ y ∈ s.swatches, y.2.core? ≠ some c

/-! ## Words and steps -/

/-- A word of format A or U from its fields (R13). -/
def wordA (op d a b m : Nat) : Word := BitVec.ofNat 32 (op * 2 ^ 25 + d * 2 ^ 18 + a * 2 ^ 11 + b * 2 ^ 4 + m)

/-- A word of format C or J from its fields (R13). -/
def wordC (op d k : Nat) : Word := BitVec.ofNat 32 (op * 2 ^ 25 + d * 2 ^ 18 + k)

/-- The step of `s` is a turn of the weft, in the state `u`: the agenda's next move says so, or nothing else is due and the
issue choice selects it (R162, log 1). -/
def TurnOf (s : State) (sid wid : Nat) (u : State) : Prop :=
  (∃ ms, s.agenda = .issue sid wid :: ms ∧ u = { s.beat with agenda := ms }) ∨
    (s.agenda = [] ∧ u = s.beat ∧ u.enabledEvent = none ∧ u.ringDue = none ∧ u.chooseWeft = some (sid, wid))

/-- The outcome of what moves, once the catches whose event it was have stopped their contexts (R245). -/
def Stopped (s : State) (o : Host.Outcome State Fault Refusal) : Host.Outcome State Fault Refusal :=
  match o with
  | .next t => .next (s.beat.caught t)
  | x => x

/-! ## Parts of the statements -/

/-- IADD, ISUB, IMUL, IMULH, IMAD, IMIN and IMAX: the exact result, the nearest end of the range with sat
under .sat, modulo 2^W, lane by lane (R75); the frame: only the destination, fstat.sat and the freed last
uses move. -/
def IntegerArithmeticDeliversExactResultModuloOrSaturated : Prop :=
  ∀ s i k r, Issues s i k → integerRow k i = some r → Completes s i k r

/-- IABS to FFS: the result of R76's table, lane by lane; nothing else moves. -/
def UnaryIntegerResults : Prop :=
  ∀ s i k r, Issues s i k → unaryRow k i = some r → Completes s i k r

/-- SEL, LEA, MOV and P2V (R81 to R83, R85); nothing else moves. -/
def SelectAddressAndMoveResults : Prop :=
  ∀ s i k r, Issues s i k → moveRow k i = some r → Completes s i k r

/-- AND, OR, XOR, ANDN, SHL, SHR, SRA and ROL: the result of R77, no fstat bit; nothing else moves. -/
def LogicAndShiftResults : Prop :=
  ∀ s i k r, Issues s i k → logicRow k i = some r → Completes s i k r

/-- BFX and BFI, whose field is cut at bit 31 (R78); nothing else moves. -/
def BitFieldResults : Prop :=
  ∀ s i k r, Issues s i k → fieldRow k i = some r → Completes s i k r

/-- The immediate forms (R79); nothing else moves. -/
def ImmediateResults : Prop :=
  ∀ s i k r, Issues s i k → immediateRow k i = some r → Completes s i k r

/-- FADD, FSUB, FMUL, FFMA, FMIN, FMAX, FABS, FNEG, FRND, FCLS, FEXP and FMANT: element by element of the type,
the bits of all elements and lanes ORed (R55, R86, R88, R89); nothing else moves. -/
def FloatResultsElementByElement : Prop :=
  ∀ s i k r, Issues s i k → (floatRow k i = some r ∨ classRow k i = some r) → Completes s i k r

/-- The special functions, FDIV, TWOSUM, TWOPROD, CMUL, CFMA and CACC: the order of roundings of R93 to R98; nothing
else moves. -/
def SpecialComplexAndCompensatedResults : Prop :=
  ∀ s i k r, Issues s i k → specialRow k i = some r → Completes s i k r

/-- The special cases of FADD, FSUB, FMUL and FFMA (R58, R87): the canonical NaN, with nv for a signalling operand,
for a sum of opposite infinities and for a product of zero and infinity even beside a quiet NaN. FMIN and FMAX (R59):
the lower or the higher of two numbers, −0 below +0, no bit; the other operand beside one NaN, the canonical NaN for
two, nv for a signalling one. -/
def FloatSpecialCases : Prop :=
  ∀ m, m ∈ laneFormats → ∀ rm x y z,
    let X := m.unpack x
    let Y := m.unpack y
    let Z := m.unpack z
    let nan := fun (nv : Bool) => ((m.qnan, if nv then 16 else 0) : FRes)
    ((X.isNan = true ∨ Y.isNan = true) → m.add rm x y = nan (X.isSnan || Y.isSnan) ∧
      m.sub rm x y = nan (X.isSnan || Y.isSnan) ∧ m.mul rm x y = nan (X.isSnan || Y.isSnan)) ∧
    (∀ n, X = .inf n → Y = .inf (!n) → m.add rm x y = nan true) ∧
    (∀ n, X = .inf n → Y = .inf n → m.sub rm x y = nan true) ∧
    (∀ n, X.isZero = true → Y = .inf n → m.mul rm x y = nan true ∧ m.mul rm y x = nan true ∧
      m.fma rm x y z = nan true ∧ m.fma rm y x z = nan true) ∧
    ((X.isNan = true ∨ Y.isNan = true) → m.fma rm x y z = nan (X.isSnan || Y.isSnan || Z.isSnan)) ∧
    (Below X Y → m.minmax false x y = (x, 0) ∧ m.minmax true x y = (y, 0)) ∧
    (Below Y X → m.minmax false x y = (y, 0) ∧ m.minmax true x y = (x, 0)) ∧
    (x = y → X.isNan = false → ∀ b, m.minmax b x y = (x, 0)) ∧
    ∀ b, (X.isNan = true → Y.isNan = false → m.minmax b x y = (y, if X.isSnan then 16 else 0)) ∧
      (X.isNan = false → Y.isNan = true → m.minmax b x y = (x, if Y.isSnan then 16 else 0)) ∧
      (X.isNan = true → Y.isNan = true → m.minmax b x y = nan (X.isSnan || Y.isSnan))

/-- SHFL, VOTE.ballot, SCAN, REDW, MATCH, LGET and PRMT (R139 to R145, R147); nothing else moves. -/
def LaneExchangeResults : Prop :=
  ∀ s i k r, Issues s i k → exchangeRow k i = some r → Completes s i k r

/-- VOTE.any, VOTE.all, VOTE.uniform and ELECT write their predicate in the active lanes (R134, R141); nothing else
moves. -/
def VoteAndElectPredicates : Prop :=
  ∀ s i k p f, Issues s i k → voteRow k i = some (p, f) →
    ∃ t w, exec i s = .next t ∧ OnlyWeft s t k w ∧ w.rest = k.w.rest ∧ RegsKept k i w ∧
      w.fstat = k.w.fstat ∧ PredResult k w p f

/-- LSET writes the scalar into lane b[4:0] of d if that lane is active, and every other lane keeps its value; if it is
not active nothing is written (R146). -/
def LsetWritesOneActiveLane : Prop :=
  ∀ s d a b w64 k, Issues s (.lset d a b w64) k →
    let j := ((k.scalar b).setWidth 5).toNat
    ∃ t w, exec (.lset d a b w64) s = .next t ∧ OnlyWeft s t k w ∧ w.rest = k.w.rest ∧ w.preds = k.w.preds ∧
      w.fstat = k.w.fstat ∧ RegsKept k (.lset d a b w64) w ∧
      ∀ l, l < 32 → ∀ r, r < (if w64 then 2 else 1) →
        k.after w d r l = if l = j ∧ k.act.getLsbD j = true then k.word a r 0 else k.after k.w d r l

/-- BRA, BRX, BRZ, CALL and JMPI: where no lane's target fails R22, every lane of the entry moves to its target, the
clause ends and the lanes regroup (R102, R126 to R129); CALL leaves the next header's offset in vN of the active
lanes (R128); no other register, no predicate, no fstat bit and nothing else moves. -/
def BranchesMoveEveryLaneToItsTarget : Prop :=
  ∀ s i k f, Issues s i k → laneTarget k i = some f → i ≠ .yield →
    (∀ l, l < 32 → k.e.mask.getLsbD l = true → ¬ refused s k (f l)) →
    ∃ t w, exec i s = .next t ∧ OnlyWeft s t k w ∧ w.rest = k.w.rest ∧ w.preds = k.w.preds ∧
      w.fstat = k.w.fstat ∧ RegsKept k i w ∧ Regrouped k w (fun _ => true) (fun l => codeOffset (f l)) ∧
      ∀ n d, i = .call n d → k.act ≠ 0 → ∀ l, l < 32 → k.after w (.v n) 0 l =
        if k.act.getLsbD l then codeOffset k.fallTo else k.after k.w (.v n) 0 l

/-- A lane whose target fails R22 raises the bad-branch-target trap with the lanes that meet it and the lowest one's
target (as a signed number, log 96); no lane moves and CALL writes nothing (R22, R116, R126, R129). -/
def BadTargetTrapsBeforeAnyLaneMoves : Prop :=
  ∀ s i k f, Issues s i k → laneTarget k i = some f →
    ∀ l, l < 32 → k.e.mask.getLsbD l = true → refused s k (f l) →
    (∀ j, j < l → k.e.mask.getLsbD j = true → ¬ refused s k (f j)) →
    ∃ m : Mask, (∀ j, j < 32 → (m.getLsbD j = true ↔ k.e.mask.getLsbD j = true ∧ refused s k (f j))) ∧
      Traps s i k ⟨0x04, m, BitVec.ofInt 64 (f l), BitVec.ofNat 32 i.wordNat, 0⟩

/-- YIELD: the lanes fall through, the quadrant's most recently issued weft is forgotten, the weft counts as ready from
now on; no register, flag or memory changes (R131). -/
def YieldFallsThroughAndGivesUpItsClaim : Prop :=
  ∀ s k, Issues s .yield k → ¬ refused s k k.fallTo →
    ∃ t w, exec .yield s = .next t ∧ OnlyWeft { s with cores := t.cores } t k w ∧
      w.rest = { k.w.rest with readySince := s.turn } ∧ w.preds = k.w.preds ∧ w.fstat = k.w.fstat ∧
      RegsKept k .yield w ∧ Regrouped k w (fun _ => true) (fun _ => codeOffset k.fallTo) ∧
      (∀ c, some c ≠ k.core → t.core c = s.core c) ∧
      ∀ c, k.core = some c → { t.core c with recent := (s.core c).recent } = s.core c ∧
        ∀ q ix, k.w.place = .slot q ix → (t.core c).recent.get? q = none ∧
          ∀ q', q' ≠ q → (t.core c).recent.get? q' = (s.core c).recent.get? q'

/-- EXIT removes the lanes of pN, or all active lanes, from the live set and, in trap mode, from the snapshot; the
others fall through; a weft with no live lane ends (R102, R130). -/
def ExitRemovesLanes : Prop :=
  ∀ s c k, Issues s (.exit c) k → ¬ refused s k k.fallTo →
    let m := exiting k c
    ∃ t w, exec (.exit c) s = .next t ∧ t.weft? k.sid k.wid = some w ∧ w.exited = k.w.exited ||| m ∧
      w.parked = k.w.parked ∧ RegsKept k (.exit c) w ∧ w.preds = k.w.preds ∧ t.mem = s.mem ∧
      (k.w.trapMode = true → ∀ l, l < 32 → ∀ pc, standsAt w.trec.snap l pc ↔
        standsAt k.w.trec.snap l pc ∧ m.getLsbD l = false) ∧
      (k.w.trapMode = false → w.trec.snap = k.w.trec.snap) ∧
      let gone := ∀ l, l < 32 → m.getLsbD l = true ∨ k.w.exited.getLsbD l = true ∨ (k.w.parked.get? l).isSome = true
      (gone → w.ended = true ∧ w.frontier = []) ∧
      (¬ gone → w.ended = k.w.ended ∧ Regrouped k w (fun l => !m.getLsbD l) (fun _ => codeOffset k.fallTo))

/-- NOP and the register instructions leave the entry at the next word, or at the next header when they were the
clause's last (R16, R102, R131). -/
def EntryGoesToTheNextWord : Prop :=
  (∀ s k, Issues s .nop k → ∃ t w, exec .nop s = .next t ∧ OnlyWeft s t k w ∧ w.rest = k.w.rest ∧
    w.preds = k.w.preds ∧ w.fstat = k.w.fstat ∧ RegsKept k .nop w ∧ Advanced k .nop w) ∧
  (∀ s i k r, Issues s i k → (integerRow k i = some r ∨ unaryRow k i = some r ∨ logicRow k i = some r ∨
      fieldRow k i = some r ∨ immediateRow k i = some r ∨ moveRow k i = some r ∨ floatRow k i = some r ∨
      classRow k i = some r ∨ specialRow k i = some r ∨ exchangeRow k i = some r) →
    ∃ t w, exec i s = .next t ∧ t.weft? k.sid k.wid = some w ∧ Advanced k i w) ∧
  ∀ s i k r, Issues s i k → (predRow k i = some r ∨ voteRow k i = some r) →
    ∃ t w, exec i s = .next t ∧ t.weft? k.sid k.wid = some w ∧ Advanced k i w

/-- WINB sets both windows for the words that follow (R25); IPREF has no effect that a weft sees (R132). -/
def WindowsAndPrefetch : Prop :=
  (∀ s a v k, Issues s (.winb a v) k → ∃ t w, exec (.winb a v) s = .next t ∧ OnlyWeft s t k w ∧
    w.rest = { k.w.rest with vwin := v.toNat, swin := a.toNat } ∧ w.preds = k.w.preds ∧ w.fstat = k.w.fstat ∧
    RegsKept k (.winb a v) w ∧ Advanced k (.winb a v) w) ∧
  ∀ s c d k, Issues s (.ipref c d) k → ∃ t w, exec (.ipref c d) s = .next t ∧ t.weft? k.sid k.wid = some w ∧
    t.mem = s.mem ∧ w.rest = k.w.rest ∧ w.preds = k.w.preds ∧ w.fstat = k.w.fstat ∧ RegsKept k (.ipref c d) w ∧
    Advanced k (.ipref c d) w

/-- TRAP takes the software trap with its code, or the breakpoint trap for 0xFF, and is not completed (R114, R133). -/
def TrapTakesTheSoftwareTrap : Prop :=
  ∀ s n k, Issues s (.trap n) k →
    Traps s (.trap n) k ⟨if n = 0xFF then 0x14 else 0x13, k.act, 0, n.setWidth 32, 0⟩

/-- A precise trap in trap mode halts the weft with its first record and its registers kept, and posts the double-trap
context fault with the first cause, the first tpc and the second cause (R121, R354). -/
def SecondTrapHaltsTheWeft : Prop :=
  ∀ s n k, Issues s (.trap n) k → k.w.trapMode = true → k.sw.control = none →
    ∃ u w, OnlyWeft s u k w ∧ w.halted = some (.double (if n = 0xFF then 0x14 else 0x13)) ∧ w.trec = k.w.trec ∧
      w.vregs = k.w.vregs ∧ w.sregs = k.w.sregs ∧ w.preds = k.w.preds ∧ w.place = k.w.place ∧
      exec (.trap n) s = .next (u.post ⟨k.sw.ctx, [BitVec.ofNat 32 (0x22 + 256 * 0x1C), k.sw.ctx,
        BitVec.ofNat 32 k.sw.swi, BitVec.ofNat 32 k.wid, k.w.trec.tcause &&& 0xFF, k.w.trec.tpc,
        BitVec.ofNat 32 s.tim, if n = 0xFF then 0x14 else 0x13], none⟩)

/-- For every state in which it issues, ERET (constructor eret) completes (exec answers a next state): the frontier
is the snapshot's live lanes grouped by pc, each entry with a hdr of its pc's and the prio that hdr's word holds; the
windows and fstat are restored, the latch is empty, the mode is user; the lanes of tdone skip the word at tpc once; a
weft with no live lane ends; a BAR at which an entry still waits waits on (R119, R138). Registers, predicates, other
wefts and memory stand. -/
def EretRestoresTheInterruptedCode : Prop :=
  (∀ s k, Issues s .eret k →
    ∃ t w, exec .eret s = .next t ∧ t.weft? k.sid k.wid = some w ∧ (w.ended = false → OnlyWeft s t k w) ∧
      w.trapMode = false ∧ w.vwin = k.w.trec.twinV ∧ w.swin = k.w.trec.twinS ∧ w.fstat = k.w.trec.tfst ∧
      w.latch = [] ∧ w.clause = none ∧ w.vregs = k.w.vregs ∧ w.sregs = k.w.sregs ∧ w.preds = k.w.preds ∧
      w.vpoison = k.w.vpoison ∧ w.spoison = k.w.spoison ∧ t.mem = s.mem ∧
      w.replay = (if k.w.trec.tdone = 0 then k.w.replay else k.w.replay.put k.w.trec.tpc.toNat k.w.trec.tdone) ∧
      (∀ l, l < 32 → ∀ pc, standsAt w.frontier l pc ↔ standsAt k.w.trec.snap l pc ∧ k.w.live.getLsbD l = true) ∧
      (w.frontier.map fun e => e.pc).Nodup ∧
      (∀ e ∈ w.frontier, e.prio = s.prioAt k.clu k.sw.ctx e.hdr ∧
        ∃ e0 ∈ k.w.trec.snap, e0.pc = e.pc ∧ e0.hdr = e.hdr) ∧
      (w.ended = true ↔ ∀ e ∈ k.w.trec.snap, e.mask &&& k.w.live = 0) ∧
      w.exited = k.w.exited ∧ w.parked = k.w.parked ∧
      (k.w.barSaved = none → w.ended = false → w.rest = { k.w.rest with
        trapMode := false, vwin := k.w.trec.twinV, swin := k.w.trec.twinS, ended := w.ended }) ∧
      ∀ x, k.w.barSaved = some x →
        ((∃ e ∈ w.frontier, e.barWait = true) → w.wait = some { x with woken := true }) ∧
        ((∀ e ∈ w.frontier, e.barWait = false) → w.ended = false → w.rest = { k.w.rest with
          trapMode := false, vwin := k.w.trec.twinV, swin := k.w.trec.twinS, ended := w.ended, barSaved := none })) ∧
  (∀ (s : State) (k : Site), s.site? = some k → k.w.wait = none → k.act = k.e.mask &&&
    ~~~(if k.w.trapMode then 0 else k.w.replay.getD k.e.pc.toNat 0)) ∧
  ∀ s k, Issues s .nop k → k.w.trapMode = false → ∃ t w, exec .nop s = .next t ∧ OnlyWeft s t k w ∧
    w.rest = k.w.rest ∧ w.replay = k.w.replay.del k.e.pc.toNat

/-- For every state and operands in which they issue, FRENT and FRENT.lanes (constructors frent, frentLanes) complete
(exec answers a next state) with one snapshot entry, or the live, parked and exited masks, in a quad (R137); an index
at or above tnent is illegal, a second precise trap in trap mode, which halts the weft with its record (R121). -/
def FrentReadsTheSnapshot : Prop :=
  (∀ s i k r, Issues s i k → frentRow k i = some r → Completes s i k r) ∧
  ∀ s d a k, Stands s k → k.w.trapMode = true → k.sw.control = none →
    (∀ r ∈ k.w.reads (Instr.frent d a).use, r ∉ k.w.pendingRegs) → k.w.trec.snap.length ≤ (k.scalar a).toNat →
    ∃ t w, exec (.frent d a) s = .next t ∧ t.weft? k.sid k.wid = some w ∧ w.halted = some (.double 0x01) ∧
      w.trec = k.w.trec ∧ w.vregs = k.w.vregs ∧ w.sregs = k.w.sregs

/-- For every state and operands in which they issue, FRSET.pc, .park and .unpark (constructors frsetPc, frsetPark,
frsetUnpark) complete (exec answers a next state; R138): the named lanes that have not exited move, park or stand
again at their kept pc; every other lane stands where it stood; the snapshot is regrouped by pc; the BAR waits on
only while some entry keeps the barrier-wait bit; no register, no predicate and nothing else moves. -/
def FrsetEditsTheSnapshot : Prop :=
  ∀ s i k d, Issues s i k → (∃ a, i = .frsetPc d a) ∨ i = .frsetPark d ∨ i = .frsetUnpark d →
    let m := edited k d
    let old := k.w.trec.snap
    ∃ t w, exec i s = .next t ∧ OnlyWeft s t k w ∧ RegsKept k i w ∧ w.preds = k.w.preds ∧ w.fstat = k.w.fstat ∧
      w.rest = { k.w.rest with
        parked := w.parked, barSaved := w.barSaved, trec := { k.w.rest.trec with snap := w.trec.snap } } ∧
      (i = .frsetPark d → ParkedOn k m i w) ∧ (i ≠ .frsetPark d → Advanced k i w) ∧
      Regrouped138 s k old w.trec.snap ∧
      ((∃ e ∈ w.trec.snap, e.barWait = true) → w.barSaved = k.w.barSaved) ∧
      ((∀ e ∈ w.trec.snap, e.barWait = false) → w.barSaved = none) ∧
      (∀ l, l < 32 → m.getLsbD l = false → w.parked.get? l = k.w.parked.get? l ∧
        ∀ pc, standsAt w.trec.snap l pc ↔ standsAt old l pc) ∧
      ∀ l, l < 32 → m.getLsbD l = true →
        (∀ a, i = .frsetPc d a → w.parked.get? l = none ∧ (∀ pc, standsAt w.trec.snap l pc ↔ pc = k.scalar a) ∧
          ∀ e ∈ w.trec.snap, e.mask.getLsbD l = true → e.hdr = e.pc ∨ ∃ e0 ∈ old, e0.pc = e.pc ∧ e0.hdr = e.hdr) ∧
        (i = .frsetPark d → (∀ pc, ¬ standsAt w.trec.snap l pc) ∧
          ((∀ pc, ¬ standsAt old l pc) → w.parked.get? l = k.w.parked.get? l) ∧
          ((∃ pc, standsAt old l pc) → ∃ e ∈ old, e.mask.getLsbD l = true ∧ w.parked.get? l = some (e.pc, e.hdr))) ∧
        (i = .frsetUnpark d → w.parked.get? l = none ∧ ∀ pc, standsAt w.trec.snap l pc ↔
          standsAt old l pc ∨ ∃ h, (l, pc, h) ∈ k.w.parked)

/-- CSRW of a value that the register takes leaves it there, and only there (R47, R48, R113, R115, R136); any other value
is an illegal instruction and changes nothing. -/
def CsrwReplacesTheRegister : Prop :=
  ∀ s d c k, Issues s (.csrw d c) k →
    let x := k.scalar d.toSrc
    (weftAccepts c.toNat x.toNat = some true → ∃ t w, exec (.csrw d c) s = .next t ∧ OnlyWeft s t k w ∧
      weftRegister { k with w := w } c.toNat = some x ∧ RegsKept k (.csrw d c) w ∧ w.preds = k.w.preds ∧
      Advanced k (.csrw d c) w ∧
      ∀ n, n ≠ c.toNat → n ≠ 0x003 → (n = 0x021 → (k.w.reads (Instr.csrw d c).use).all (fun r => !k.w.isFreed r) = true) →
        weftRegister { k with w := w } n = weftRegister k n) ∧
    (unitAccepts c.toNat x.toNat = some true → ∃ t w, exec (.csrw d c) s = .next t ∧ t.weft? k.sid k.wid = some w ∧
      w.rest = k.w.rest ∧ RegsKept k (.csrw d c) w ∧ w.preds = k.w.preds ∧ t.mem = s.mem ∧
      unitRegister t k c.toNat = some x ∧
      ∀ n, n ≠ c.toNat → unitRegister t k n = unitRegister s k n) ∧
    ((weftAccepts c.toNat x.toNat = some false ∨ unitAccepts c.toNat x.toNat = some false) →
      Traps s (.csrw d c) k ⟨0x01, k.act, 0, BitVec.ofNat 32 (Instr.csrw d c).wordNat, 0⟩)

/-- Access by the range of the number (R32): in a user context a privileged number that is assigned raises the privileged
trap; a number that is not assigned, a read-only one written, and a trap-record field written outside trap mode raise
the illegal-instruction trap. -/
def CsrAccessByRange : Prop :=
  ∀ s i k n wr, Stands s k → i.csrOf = some (n, wr) → i.wellFormed = true → k.sw.control = none → i.targIllegal = false →
    (csrKnown n = false → Traps s i k ⟨0x01, k.act, 0, BitVec.ofNat 32 i.wordNat, 0⟩) ∧
    (csrKnown n = true → wr = true → csrReadOnly k.w.trapMode n = true →
      Traps s i k ⟨0x01, k.act, 0, BitVec.ofNat 32 i.wordNat, 0⟩) ∧
    (csrKnown n = true → (wr = true → csrReadOnly k.w.trapMode n = false) → 0x100 ≤ n → k.sys = false →
      Traps s i k ⟨0x03, k.act, 0, BitVec.ofNat 32 i.wordNat, 0⟩) ∧
    (n < 0x100 → csrKnown n = true → ∀ t, k.staticTrap i ≠ some ⟨0x03, k.act, 0, t, 0⟩)

/-- ATOM, CAS and RED (R256, R266, R268 to R270): lanes of one page, ascending, each a read-modify-write of the value
left by the lane before it, at the home; the old values go to d (R268, R269), and RED returns nothing; every other
byte of memory stands. A RED.any that may combine on a merge page is left to the next statement. -/
def AtomicsReadModifyWriteInLaneOrder : Prop :=
  ∀ (s : State) (i : Instr) (k : Site) x (p : Nat → Trans), Issues s i k → atomRow k i = some x →
    let ls := k.accessLanes x.scalar x.addr
    let at_ := ls.map fun y => (y.1, (p y.1).pa)
    (∀ y ∈ ls, broken x.n y.2 = none ∧ Mapped s k .atomic y.2 (p y.1)) → OnePage ls p → (x.rel = true → Clear s k) →
    Settled s k (at_.map fun y => y.2) → s.mem.wf = true → (x.far = true → s.pkg.acked = true) →
    (∀ y ∈ k.w.away, y.lane = none) →
    (∀ d a o sc f rel w, i = .red d a o sc f rel true w → ∀ y ∈ ls, pteAp (p y.1).leaf ≠ 1) →
    let r := atomics x.n x.new at_ (memByte s.mem)
    ∃ t w f, exec i s = .next t ∧ t.weft? k.sid k.wid = some w ∧ w.preds = k.w.preds ∧ w.fstat = k.w.fstat ∧
      Begins k i w f ∧ f.kind = .plain ∧ f.fst = 0 ∧ f.poison = none ∧
      (∀ a, memByte t.mem a = r.2 a) ∧
      (x.old = none → f.vwr = [] ∧ f.swr = []) ∧
      ∀ d, x.old = some d → Carries k w f d (x.n / 4) fun l =>
        wordsOf (x.n / 4) ((List.range x.n).map fun j => BitVec.ofNat 8 (((r.1.find? fun y => y.1 == l).map fun y => y.2).getD 0 / 256 ^ j))

/-- RED.fadd.any on a merge page completes too, whatever the routers combine (R257, log 10): only the addressed words may
move, and no register. -/
def CombiningReductionsTouchOnlyTheirWords : Prop :=
  ∀ (s : State) d a sc f0 w64 (k : Site) (p : Nat → Trans), Issues s (.red d a .fadd sc f0 false true w64) k →
    let ls := k.accessLanes (k.allScalar [d.toSrc, a]) (k.addr a)
    (∀ y ∈ ls, broken 4 y.2 = none ∧ Mapped s k .atomic y.2 (p y.1)) → OnePage ls p →
    Settled s k (ls.map fun y => (p y.1).pa) → s.mem.wf = true → (∀ y ∈ k.w.away, y.lane = none) →
    ∃ t w f, exec (.red d a .fadd sc f0 false true w64) s = .next t ∧ t.weft? k.sid k.wid = some w ∧
      Begins k (.red d a .fadd sc f0 false true w64) w f ∧ Plain f ∧ w.preds = k.w.preds ∧
      ∀ b, (∀ y ∈ ls, ¬ ((p y.1).pa ≤ b ∧ b < (p y.1).pa + 4)) → memByte t.mem b = memByte s.mem b

/-- FENCE (R252, R253, R271): a release beyond swatch scope leaves the core's write buffer empty and nothing of its die on
its way, an acquire leaves no notice that may be applied; with an empty buffer and nothing on its way no byte of
memory moves; the flight only counts. At .rl and .sy a release first awaits what other packages have not acknowledged
(R249). -/
def FenceDrainsAndAcquires : Prop :=
  (∀ s sc f0 kind k, Issues s (.fence sc f0 kind) k → kind ≠ .acq → far sc = true → Clear s k →
    s.pkg.acked = false → HeldBack s (.fence sc f0 kind) k) ∧
  ∀ s sc f0 kind k, Issues s (.fence sc f0 kind) k →
    (kind ≠ .acq → far sc = true → Clear s k ∧ s.pkg.acked = true) →
    ∃ t w f, exec (.fence sc f0 kind) s = .next t ∧ t.weft? k.sid k.wid = some w ∧ OnlyFlight k w ∧
      Begins k (.fence sc f0 kind) w f ∧ Plain f ∧ w.preds = k.w.preds ∧ w.fstat = k.w.fstat ∧
      (kind ≠ .acq → wide sc = true → ∀ c, k.core = some c → (t.core c).wbuf = [] ∧ (t.die (dieOfCore c)).out = []) ∧
      (kind ≠ .rel → wide sc = true → ∀ n ∈ (t.die k.die).notices, (t.die k.die).mayApply n = false) ∧
      ((∀ c, k.core = some c → (s.core c).wbuf = [] ∧ (s.die (dieOfCore c)).out = []) → t.mem = s.mem)

/-- PREF and CCTL change no value that an agent observes (R153, R274): an address that does not translate is dropped, no
trap is raised; .iinv leaves no line of the context in the cluster's instruction cache. -/
def PrefetchAndCacheControlChangeNoValue : Prop :=
  ∀ s i k, Issues s i k →
    (∀ a b w0, i = .pref a b w0 → ∃ t w, exec i s = .next t ∧ CachesOnly s t k w ∧ w.rest = k.w.rest ∧
      RegsKept k i w ∧ w.preds = k.w.preds ∧ w.fstat = k.w.fstat ∧ Advanced k i w) ∧
    ((∃ a f, i = .cctlWb a f ∨ i = .cctlInv a f ∨ i = .cctlDemote a f) ∨ (∃ f, i = .cctlIinv f) →
      ∃ t w f, exec i s = .next t ∧ t.weft? k.sid k.wid = some w ∧ OnlyFlight k w ∧ Begins k i w f ∧ Plain f ∧
        w.preds = k.w.preds ∧ w.fstat = k.w.fstat ∧
        ((∀ c, k.core = some c → (s.core c).wbuf = [] ∧ (s.die (dieOfCore c)).out = []) → CachesOnly s t k w) ∧
        ∀ f0, i = .cctlIinv f0 → ∀ x ∈ (t.cluster k.clu).icache, x.ctx ≠ k.sw.ctx)

/-- WATCH adds the sectors of the active lanes in ascending lane order, keeping those it holds; WATCH.clr empties the set
(R259, R272), by hash where the watch table is full; a ninth sector raises the watch-overflow trap and adds none. -/
def WatchSet : Prop :=
  (∀ (s : State) a f0 (k : Site) (p : Nat → Trans), Issues s (.watch a f0) k →
    let ls := k.accessLanes (k.allScalar [a]) (k.addr a)
    let full := (ls.map fun y => sectorOf (p y.1).pa).foldl
      (fun (t : List WatchEntry) sec => if t.any fun e => e.sector == sec then t else t ++ [⟨sec, false, s.watchFull sec⟩]) k.w.watch
    (∀ y ∈ ls, broken 1 y.2 = none ∧ Mapped s k .load y.2 (p y.1)) →
    (full.length ≤ 8 → ∃ t w f, exec (.watch a f0) s = .next t ∧ CachesOnly s t k w ∧
      OnlyFlight k { w with watch := k.w.watch } ∧ Begins k (.watch a f0) w f ∧ Plain f ∧ w.watch = full) ∧
    (8 < full.length → k.w.watch.length ≤ 8 → k.w.trapMode = false → ∃ t w, exec (.watch a f0) s = .next t ∧
      CachesOnly s t k w ∧ w.trapMode = true ∧ w.trec.tcause = 0x16 ∧ w.trec.tlanes = k.act ∧
      w.trec.tinfo = BitVec.ofNat 32 k.w.watch.length ∧ w.watch = k.w.watch)) ∧
  ∀ s f0 k, Issues s (.watchClr f0) k → ∃ t w f, exec (.watchClr f0) s = .next t ∧ OnlyWeft s t k w ∧
    OnlyFlight k { w with watch := k.w.watch } ∧ Begins k (.watchClr f0) w f ∧ Plain f ∧ w.watch = []

/-- WAITW (R30, R273): an empty set delivers 0 at once; fired entries deliver their mask and are cleared; with none fired it
waits, or under .nb is not served and leaves d unchanged; p6 tells which. -/
def WaitwDeliversTheFiredEntries : Prop :=
  ∀ s d f0 nb k, Issues s (.waitw d f0 nb) k →
    let m := ((List.range k.w.watch.length).map fun j => if ((k.w.watch[j]?).map fun e => e.fired).getD false then 2 ^ j else 0).sum
    let served := fun (w : Weft) (b : Bool) => (nb = true → w.pred 6 = if b then BitVec.allOnes 32 else 0) ∧
      (∀ q, q ≠ 6 → w.pred q = k.w.pred q) ∧ (nb = false → w.preds = k.w.preds)
    ((k.w.watch = [] ∨ m ≠ 0) → ∃ t w f, exec (.waitw d f0 nb) s = .next t ∧ OnlyWeft s t k w ∧
      Begins k (.waitw d f0 nb) w f ∧ Carries k w f d 1 (fun _ => [BitVec.ofNat 32 m]) ∧ served w true ∧
      w.watch = k.w.watch.map fun e => { e with fired := false }) ∧
    (k.w.watch ≠ [] → m = 0 → nb = true → ∃ t w f, exec (.waitw d f0 nb) s = .next t ∧ OnlyWeft s t k w ∧
      Begins k (.waitw d f0 nb) w f ∧ Plain f ∧ served w false ∧ w.watch = k.w.watch) ∧
    (k.w.watch ≠ [] → m = 0 → nb = false → ∃ t w x, exec (.waitw d f0 nb) s = .next t ∧ OnlyWeft s t k w ∧
      w.wait = some x ∧ x.instr = .waitw d f0 nb ∧ x.form = .watch ∧ x.woken = false ∧
      Reserves k (.waitw d f0 nb) w ∧ w.watch = k.w.watch ∧
      w.frontier = k.e :: k.w.frontier.tail)

/-- The scratchpad checks before any lane is performed (R163, R182): the lowest lane with a broken address fixes the cause;
tlanes holds the lanes that meet it, taddr its address; nothing is performed. -/
def ScratchpadAddressChecks : Prop :=
  ∀ s i k x l a c, Issues s i k → spadRow k i = some x → x.scalar = false →
    (spadAt k x).find? (fun y => (spadBroken k x.n y.2).isSome) = some (l, a) → spadBroken k x.n a = some c →
    Traps s i k ⟨c, maskOf fun j => (spadAt k x).any fun y => y.1 == j && spadBroken k x.n y.2 == some c,
      BitVec.ofNat 64 a, if x.write then 1 else 0, 0⟩

/-- LDS and STS (R163, R164, R166, R167, R183): the lanes' bytes go to d, or into the scratchpad, the highest lane's where
they overlap; every other byte stands; .take empties the lines and .fill fills them, no other full bit moves; .full
and .empty make the weft wait while a line is not so. -/
def ScratchpadLoadsAndStores : Prop :=
  (∀ s d a f0 m w0 k x, let i : Instr := .lds d a f0 m w0
    Issues s i k → spadRow k i = some x → SpadGood k x →
    (((m = .one ∨ m = .both) → linesAll k x true) → ∃ t w f u, exec i s = .next t ∧ OnlySwatch s t k w u ∧ OnlyFlight k w ∧
      Begins k i w f ∧ w.preds = k.w.preds ∧ w.fstat = k.w.fstat ∧ f.kind = .plain ∧ f.fst = 0 ∧
      (f.poison = none ↔ ∀ y ∈ spadAt k x, y.2 / 32 * 32 ∉ k.sw.spadBad) ∧
      Carries k w f d (x.n / 4) (fun l => wordsOf (x.n / 4)
        (memBytes k.sw.spad (((spadAt k x).find? fun y => y.1 == l).map fun y => y.2).get! x.n)) ∧
      { u with wefts := [], full := [] } = { k.sw with wefts := [], full := [] } ∧
      ∀ n, n ∈ u.full ↔ n ∈ k.sw.full ∧ ¬ ((m = .two ∨ m = .both) ∧ ∃ y ∈ spadAt k x, y.2 / 128 = n)) ∧
    ((m = .one ∨ m = .both) → ¬ linesAll k x true → ∃ t w y, exec i s = .next t ∧ OnlyWeft s t k w ∧
      w.wait = some y ∧ y.instr = i ∧ (∃ ls, y.form = .fullEmpty ls true) ∧ Reserves k i w)) ∧
  ∀ s d a f0 m w0 k x, let i : Instr := .sts d a f0 m w0
    Issues s i k → spadRow k i = some x → SpadGood k x →
    (((m = .two ∨ m = .both) → linesAll k x false) → ∃ t w f u, exec i s = .next t ∧ OnlySwatch s t k w u ∧
      Begins k i w f ∧ Plain f ∧ w.preds = k.w.preds ∧ w.fstat = k.w.fstat ∧
      (∀ b, memByte u.spad b = (storedByte k d.toSrc x.n (spadAt k x) b).getD (memByte k.sw.spad b)) ∧
      { u with wefts := [], full := [], descFaults := [], spad := [], spadBad := [] } =
        { k.sw with wefts := [], full := [], descFaults := [], spad := [], spadBad := [] } ∧
      u.descFaults = (if m = .one ∨ m = .both then filled k.sw.descFaults fun n => (spadAt k x).any fun y => y.2 / 128 == n
        else k.sw.descFaults) ∧
      ∀ n, n ∈ u.full ↔ n ∈ k.sw.full ∨ ((m = .one ∨ m = .both) ∧ ∃ y ∈ spadAt k x, y.2 / 128 = n)) ∧
    ((m = .two ∨ m = .both) → ¬ linesAll k x false → ∃ t w y, exec i s = .next t ∧ OnlyWeft s t k w ∧
      w.wait = some y ∧ y.instr = i ∧ (∃ ls, y.form = .fullEmpty ls false) ∧ Reserves k i w)

/-- ATOMS (R164, R185): in ascending lane order each lane's word becomes the operation on the value left by the lane before
it, and d gets the value before; every other byte stands, and no fstat bit moves. -/
def ScratchpadAtomics : Prop :=
  ∀ s d a o f0 k x, Issues s (.atoms d a o f0) k → spadRow k (.atoms d a o f0) = some x → SpadGood k x →
    let r := atomics 4 (fun l old => some (atomsValue o old (k.word d.toSrc 0 l).toNat (k.word d.toSrc 1 l).toNat))
      (spadAt k x) (memByte k.sw.spad)
    ∃ t w f u, exec (.atoms d a o f0) s = .next t ∧ OnlySwatch s t k w u ∧ Begins k (.atoms d a o f0) w f ∧
      w.preds = k.w.preds ∧ w.fstat = k.w.fstat ∧ f.kind = .plain ∧ f.fst = 0 ∧
      (∀ b, memByte u.spad b = r.2 b) ∧
      { u with wefts := [], spad := [], spadBad := [] } = { k.sw with wefts := [], spad := [], spadBad := [] } ∧
      Carries k w f d 1 fun l => [BitVec.ofNat 32 ((r.1.find? fun y => y.1 == l).map fun y => y.2).get!]

/-- For every state and operands in which they issue, SPLOOK, SPTAG and SPTAG.inv (constructors splook, sptag,
sptagInv) complete (exec answers a next state; R165, R186): each lane, in ascending order, looks its key up, writes
its entry and drops an older one with the key, or drops its entry; d gets the slot, 0xFFFFFFFF where there was none;
a set never holds two entries with one key; and nothing else of the swatch or the weft moves. -/
def TagTable : Prop :=
  (∀ s d a f0 k, Issues s (.splook d a f0) k → ∃ t w f, exec (.splook d a f0) s = .next t ∧ OnlyWeft s t k w ∧ OnlyFlight k w ∧
    Begins k (.splook d a f0) w f ∧ f.kind = .plain ∧ f.poison = none ∧ f.fst = 0 ∧ w.preds = k.w.preds ∧ w.fstat = k.w.fstat ∧
    Carries k w f d 1 fun l => [slotOf k.sw.tags.get? (k.val a l)]) ∧
  (∀ s d a b f0 k, let i : Instr := .sptag d a b f0
    let slot := fun l => 4 * ((k.val a l).toNat % 1024) + (k.val b l).toNat % 4
    Issues s i k → OneEntry k.sw.tags → ∃ t w f u, exec i s = .next t ∧ OnlySwatch s t k w u ∧ OnlyFlight k w ∧ Begins k i w f ∧
      f.kind = .plain ∧ f.poison = none ∧ f.fst = 0 ∧ w.preds = k.w.preds ∧ w.fstat = k.w.fstat ∧
      { u with wefts := [], tags := [] } = { k.sw with wefts := [], tags := [] } ∧ OneEntry u.tags ∧
      (∀ n, u.tags.get? n = (tagLanes k [d.toSrc, a, b]).foldl
        (fun t l => tagPut t (k.val a l) ((k.val b l).toNat % 4)) k.sw.tags.get? n) ∧
      Carries k w f d 1 fun l => [BitVec.ofNat 32 (slot l)]) ∧
  ∀ s d a f0 k, let i : Instr := .sptagInv d a f0
    let ls := tagLanes k [d.toSrc, a]
    Issues s i k → OneEntry k.sw.tags → ∃ t w f u, exec i s = .next t ∧ OnlySwatch s t k w u ∧ OnlyFlight k w ∧ Begins k i w f ∧
      f.kind = .plain ∧ f.poison = none ∧ f.fst = 0 ∧ w.preds = k.w.preds ∧ w.fstat = k.w.fstat ∧
      { u with wefts := [], tags := [] } = { k.sw with wefts := [], tags := [] } ∧ OneEntry u.tags ∧
      (∀ n, u.tags.get? n = tagDrops k a ls n) ∧
      Carries k w f d 1 fun l => [slotOf (tagDrops k a (ls.takeWhile fun j => j != l)) (k.val a l)]

/-- For every state and operands in which they issue and the addresses obey R182, SPDESC and SPDESC.set (constructors
spdesc, spdescSet) complete (exec answers a next state): SPDESC reads the descriptor of the 64-byte block that holds
each lane's address; SPDESC.set writes it, the highest lane's where lanes name one block; no data byte and no full
bit moves (R163, R186). -/
def ScratchpadDescriptors : Prop :=
  (∀ s d a f0 k x, Issues s (.spdesc d a f0) k → spadRow k (.spdesc d a f0) = some x → SpadGood k x →
    ∃ t w f, exec (.spdesc d a f0) s = .next t ∧ OnlyWeft s t k w ∧ OnlyFlight k w ∧ Begins k (.spdesc d a f0) w f ∧
      f.kind = .plain ∧ f.poison = none ∧ f.fst = 0 ∧ w.preds = k.w.preds ∧ w.fstat = k.w.fstat ∧
      Carries k w f d 1 fun l => [k.sw.descs.getD ((k.val a l).toNat / 64) 0]) ∧
  ∀ s a b f0 k x, Issues s (.spdescSet a b f0) k → spadRow k (.spdescSet a b f0) = some x →
    (∀ y ∈ spadAt k x, spadBroken k x.n y.2 = none) →
    ∃ t w f u, exec (.spdescSet a b f0) s = .next t ∧ OnlySwatch s t k w u ∧ Begins k (.spdescSet a b f0) w f ∧ Plain f ∧
      w.preds = k.w.preds ∧ w.fstat = k.w.fstat ∧ { u with wefts := [], descs := [] } = { k.sw with wefts := [], descs := [] } ∧
      ∀ n, u.descs.getD n 0 = ((((spadAt k x).filter fun y => y.2 / 64 == n).getLast?).map fun y => k.val b y.1).getD
        (k.sw.descs.getD n 0)

/-- SHAPE (R169, R187, R188): the first check that fails gives the status and creates nothing; with every page of the extent
and the stream mapped and permitted the record stands at its index with its pages pinned, and d gets 0; a forbidden
page gives 7; a misaligned template traps. UNSHAPE of no record only counts; of a record it stays in flight (R189). -/
def ShapeRecords : Prop :=
  (∀ (s : State) d a b f0 (k : Site) x (p : Nat → Trans), Issues s (.shape d a b f0) k → k.act ≠ 0 →
    let va := k.addr a 0
    let ix := (k.scalar b).toNat
    let i : Instr := .shape d a b f0
    broken 16 va = none → Mapped s k .load va x → va.toNat % 65536 ≤ 65536 - 80 →
    let v := s.loadBytes k.core k.die k.w.away x.pa 80 false
    v.2.2 = none → pkgOf x.pa = s.pkg.fpkg →
    let r := shapeOf (leSum v.2.1)
    let st := shapeCheck v.2.1 k.sw.spsize ix (k.sw.shapes.get? ix).isSome
    let ok := fun (va : Nat) => broken 1 (BitVec.ofNat 64 va) = none ∧ s.walkPa k.sw.ctx va = .ok (p va) ∧
      (∀ e, e ∈ (s.cluster k.clu).tlb ∨ (∃ c, k.core = some c ∧ e ∈ (s.core c).tlb) →
        e.covers k.sw.ctx (va % 2 ^ 57) = true → mkTrans e.leaf.toNat e.shift (va % 2 ^ 57) = p va)
    let admits := fun (va : Nat) => pageAdmits .load (p va).leaf = true ∧ (r.wr = true → pteW (p va).leaf = true)
    (st ≠ 0 → ∃ t w f, exec i s = .next t ∧ CachesOnly s t k w ∧ Begins k i w f ∧ w.preds = k.w.preds ∧
      Carries k w f d 1 fun _ => [BitVec.ofNat 32 st]) ∧
    (st = 0 → (∀ va ∈ r.pages, ok va ∧ admits va) → ∃ t w f u, exec i s = .next t ∧ t.weft? k.sid k.wid = some w ∧
      t.swatch? k.sid = some u ∧ Begins k i w f ∧ w.preds = k.w.preds ∧ t.mem = s.mem ∧
      (Carries k w f d 1 fun _ => [0]) ∧ { u with wefts := [], shapes := [] } = { k.sw with wefts := [], shapes := [] } ∧
      u.shapes.get? ix = some { r with pins := r.pages.map fun va => ⟨va, (p va).pa, (p va).shift, pteDesc (p va).leaf⟩ } ∧
      ∀ j, j ≠ ix → u.shapes.get? j = k.sw.shapes.get? j) ∧
    (st = 0 → ∀ pre va post, r.pages = pre ++ va :: post → (∀ y ∈ pre, ok y ∧ admits y) → ok va → ¬ admits va →
      ∃ t w f, exec i s = .next t ∧ CachesOnly s t k w ∧ Begins k i w f ∧ Carries k w f d 1 fun _ => [7])) ∧
  (∀ s d a b f0 k, Issues s (.shape d a b f0) k → k.act ≠ 0 → broken 16 (k.addr a 0) = some 0x0A →
    Traps s (.shape d a b f0) k ⟨0x0A, k.act, k.addr a 0, 0, 0⟩) ∧
  ∀ s b f0 k, Issues s (.unshape b f0) k → ∃ t w f, exec (.unshape b f0) s = .next t ∧ OnlyWeft s t k w ∧ OnlyFlight k w ∧
    Begins k (.unshape b f0) w f ∧ f.vwr = [] ∧ f.swr = [] ∧
    ((k.sw.shapes.get? (k.scalar b).toNat = none ∨ k.act = 0) → f.kind = .plain) ∧
    (∀ r, k.sw.shapes.get? (k.scalar b).toNat = some r → k.act ≠ 0 → f.kind = .unshape (k.scalar b).toNat)

/-- CTAB (R180, R190): 2 for a record that is absent or not coded, 1 for a table that is not valid, else 0 and the table is
the record's; it waits while a job uses the record; a failed one leaves the record's table. -/
def CodeTables : Prop :=
  ∀ s d a b f0 k, Issues s (.ctab d a b f0) k → k.act ≠ 0 →
    let i : Instr := .ctab d a b f0
    let va := (k.scalar a).toNat
    let ix := (k.scalar b).toNat
    let t0 := (memBytes k.sw.spad va 256).map fun x => x.toNat
    va % 128 = 0 → va + 256 ≤ k.sw.spsize → k.sw.descFaults = [] →
    let usable := ∃ r, k.sw.shapes.get? ix = some r ∧ r.coded = true
    let answers := fun (st : Word) (u : Swatch) (t : State) (w : Weft) (f : Flight) => exec i s = .next t ∧
      OnlySwatch s t k w u ∧ Begins k i w f ∧ w.preds = k.w.preds ∧ (Carries k w f d 1 fun _ => [st]) ∧
      { u with wefts := [], shapes := [] } = { k.sw with wefts := [], shapes := [] }
    (¬ usable → ∃ t w f u, answers 2 u t w f ∧ u.shapes = k.sw.shapes) ∧
    (usable → s.recordBusy k.sid ix = false → validTable t0 = false →
      ∃ t w f u, answers 1 u t w f ∧ u.shapes = k.sw.shapes) ∧
    (∀ r, k.sw.shapes.get? ix = some r → r.coded = true → s.recordBusy k.sid ix = false → validTable t0 = true →
      ∃ t w f u, answers 0 u t w f ∧ u.shapes.get? ix = some { r with table := some t0 } ∧
        ∀ j, j ≠ ix → u.shapes.get? j = k.sw.shapes.get? j) ∧
    (usable → s.recordBusy k.sid ix = true → ∃ t w y, exec i s = .next t ∧ OnlyWeft s t k w ∧ w.wait = some y ∧
      y.instr = i ∧ y.form = .jobsDone ix ∧ Reserves k i w)

/-- CPYIN, CPYOUT, GATHER and STAGE issue one job after their checks (R168, R176, R179, R191 to R193); a record that is
absent or does not admit the job, or an origin out of its extent, raises the copy-shape trap with the origin and the
record, and issues none. -/
def CopyJobsAreIssued : Prop :=
  (∀ s d a b f0 ring out k c, k.core = some c → (s.core c).jobs.length < Config.jobPlaces → k.act ≠ 0 →
    let i : Instr := if out then .cpyout d a b f0 ring else .cpyin d a b f0 ring
    Issues s i k →
    let org := (List.range 4).map fun j => (k.word a j 0).toNat
    let ix := (k.word b 0 0).toNat
    let sp := (k.word b 1 0).toNat
    let bad := ∀ r, ix ≤ 63 → k.sw.shapes.get? ix = some r → shapeRefused r out (org.map Int.ofNat) = true
    (∀ r, ix ≤ 63 → k.sw.shapes.get? ix = some r → shapeRefused r out (org.map Int.ofNat) = false → sp % 128 = 0 →
      sp + tileSize r ≤ k.sw.spsize → ∃ t w j, exec i s = .next t ∧ JobIssued s t k i w d c j ∧
        j.kind = (if out then .cpyout else .cpyin) ∧ j.ring = ring ∧ j.record = ix ∧ j.shape = r ∧ j.org = org ∧
        j.spad = sp ∧ j.bytes = tileSize r) ∧
    (bad → Traps s i k ⟨0x0F, k.act, k.word a 1 0 ++ k.word a 0 0, BitVec.ofNat 32 ix, 0⟩) ∧
    (∀ r, ix ≤ 63 → k.sw.shapes.get? ix = some r → shapeRefused r out (org.map Int.ofNat) = false →
      (sp % 128 ≠ 0 → Traps s i k ⟨0x0A, k.act, BitVec.ofNat 64 sp, if out then 0 else 1, 0⟩) ∧
      (sp % 128 = 0 → k.sw.spsize < sp + tileSize r → Traps s i k ⟨0x09, k.act, BitVec.ofNat 64 sp, if out then 0 else 1, 0⟩))) ∧
  (∀ s d a b f0 k c r, k.core = some c → (s.core c).jobs.length < Config.jobPlaces → k.act ≠ 0 →
    let i : Instr := .gather d a b f0
    Issues s i k →
    let list := (k.word a 0 0).toNat
    let n := (k.word a 1 0).toNat
    let ix := (k.word b 0 0).toNat
    let sp := (k.word b 1 0).toNat
    let rows := (List.range n).map fun j => leSum (memBytes k.sw.spad (list + 4 * j) 4)
    let row := r.tile.getD 0 1 * 2 ^ r.esz / 2
    list % 4 = 0 → ix ≤ 63 → k.sw.shapes.get? ix = some r → r.coded = false → 2 ≤ r.ndim → 1 ≤ n → n ≤ 1024 →
    list + 4 * n ≤ k.sw.spsize → k.sw.descFaults = [] →
    (rows.all (fun y => decide (y < r.ext.getD 1 1)) = true → sp % 128 = 0 → sp + n * row ≤ k.sw.spsize →
      ∃ t w j, exec i s = .next t ∧ JobIssued s t k i w d c j ∧ j.kind = .gather ∧ j.rows = rows ∧ j.record = ix ∧
        j.shape = r ∧ j.spad = sp ∧ j.bytes = n * row) ∧
    (∀ y, rows.find? (fun y => decide (r.ext.getD 1 1 ≤ y)) = some y →
      Traps s i k ⟨0x0F, k.act, BitVec.ofNat 64 y, BitVec.ofNat 32 ix, 0⟩)) ∧
  ∀ s d f0 k c, k.core = some c → (s.core c).jobs.length < Config.jobPlaces → k.act ≠ 0 → Issues s (.stage d f0) k →
    let i : Instr := .stage d f0
    (k.sw.sched[k.sw.schedPos]? = none → Traps s i k ⟨0x0F, k.act, 0, 0xFFFFFFFF, 0⟩) ∧
    ∀ e r, k.sw.sched[k.sw.schedPos]? = some e →
      let w0 := e.w0.toNat
      let out := w0 % 2 == 1
      let org := (e.org.zip (List.range 4)).map fun y =>
        (y.1 : Int) + if y.2 = e.w7.toNat % 4 then (k.sw.schedPass : Int) * e.advance else 0
      w0 % 4 < 2 → w0 / 65536 = 0 → w0 / 16 % 16 = 0 → e.w7.toNat / 4 = 0 → w0 / 256 % 256 ≤ 63 →
      k.sw.shapes.get? (w0 / 256 % 256) = some r → shapeRefused r out org = false → e.spad % 128 = 0 →
      e.spad + tileSize r ≤ k.sw.spsize →
      ∃ t w j u, exec i s = .next t ∧ JobIssued s t k i w d c j ∧ j.kind = (if out then .cpyout else .cpyin) ∧
        j.ring = w0.testBit 3 ∧ j.record = w0 / 256 % 256 ∧ j.org = org.map Int.toNat ∧ j.spad = e.spad ∧
        t.swatch? k.sid = some u ∧
        (k.sw.schedPos + 1 < k.sw.sched.length → u.schedPos = k.sw.schedPos + 1 ∧ u.schedPass = k.sw.schedPass) ∧
        (k.sw.sched.length ≤ k.sw.schedPos + 1 → u.schedPos = 0 ∧ u.schedPass = k.sw.schedPass + 1)

/-- CPYQ (R194): not issued, expired, or the job's lines, error and state; a job aborted on its descriptor raises the
descriptor trap instead. -/
def CopyJobStatus : Prop :=
  ∀ s d a f0 k, Issues s (.cpyq d a f0) k →
    let i : Instr := .cpyq d a f0
    let num := (k.scalar a).toNat
    let age := (k.sw.jobs + 2 ^ 33 - 1 - num) % 2 ^ 32
    let answers := fun (x : Word) => ∃ t w f, exec i s = .next t ∧ OnlyWeft s t k w ∧ OnlyFlight k w ∧ Begins k i w f ∧
      f.kind = .plain ∧ w.preds = k.w.preds ∧ Carries k w f d 1 fun _ => [x]
    (2 ^ 31 ≤ age → answers 0x20) ∧ (64 ≤ age → age < 2 ^ 31 → answers 0x10) ∧
    (age < 64 → (∀ c, k.core = some c → ∀ j ∈ (s.core c).jobs, ¬ (j.kind ≠ .firmware ∧ j.sid = k.sid ∧ j.num = num)) →
      let st := k.sw.jobLog.getD num ⟨0, 0, 0⟩
      ((st.err ≠ 3 ∨ k.sw.descFaults = []) → answers (BitVec.ofNat 32 (st.lines % 65536 * 256 + st.err * 4 + st.state))) ∧
      (∀ x, st.err = 3 → st.state = 3 → k.sw.descFaults.find? (fun y => y.job == num) = some x →
        Traps s i k ⟨0x18, k.act, x.addr, x.desc, 0⟩))

/-- BAR, BARA, BARW and BARQ at swatch scope (R195 to R199): the arrival fixes or checks the count, ends the phase
when the expected number has arrived, and BARA delivers the phase, BAR waits for its end; a second entry of a weft
that has arrived does not arrive again; a BAR tested again after its phase's end gives its count back and goes on; a
count that does not fit raises the count-mismatch trap and changes no record. BARW completes or waits on the phase;
BARQ reads the record. -/
def SwatchBarriers : Prop :=
  (∀ s a f0 n d k c0, k.w.task = none → k.core = some c0 →
    let r := swBar k.sw n.toNat
    let c := (k.scalar a).toNat
    let res := arriveAt r k.wid k.sw.nwf (members k.sw) c
    (Issues s (.bara d a f0 n .sw) k → k.wid ∉ r.who → ∀ r', res = .ok r' → ∃ t w f u, exec (.bara d a f0 n .sw) s = .next t ∧
      t.weft? k.sid k.wid = some w ∧ t.swatch? k.sid = some u ∧ Begins k (.bara d a f0 n .sw) w f ∧ t.mem = s.mem ∧
      w.preds = k.w.preds ∧ (Carries k w f d 1 fun _ => [BitVec.ofNat 32 r.phase]) ∧ swBar u n.toNat = r' ∧
      ∀ m, m ≠ n.toNat → swBar u m = swBar k.sw m) ∧
    (Issues s (.bara d a f0 n .sw) k → k.wid ∈ r.who → ∃ t w f, exec (.bara d a f0 n .sw) s = .next t ∧ OnlyWeft s t k w ∧
      Begins k (.bara d a f0 n .sw) w f ∧ Carries k w f d 1 fun _ => [BitVec.ofNat 32 r.phase]) ∧
    (Issues s (.bar a f0 n .sw) k → k.wid ∉ r.who → ∀ r', res = .ok r' → ∃ t w y u, exec (.bar a f0 n .sw) s = .next t ∧
      t.weft? k.sid k.wid = some w ∧ t.swatch? k.sid = some u ∧ w.wait = some y ∧ y.instr = .bar a f0 n .sw ∧
      y.form = .bar .sw n.toNat r.phase ∧ t.mem = s.mem ∧ w.vregs = k.w.vregs ∧ w.sregs = k.w.sregs ∧
      w.flag y.flag = k.w.flag y.flag + 1 ∧ swBar u n.toNat = r') ∧
    (Issues s (.bar a f0 n .sw) k → k.wid ∈ r.who → ∃ t w y, exec (.bar a f0 n .sw) s = .next t ∧ OnlyWeft s t k w ∧
      w.wait = some y ∧ y.form = .bar .sw n.toNat r.phase) ∧
    (∀ y p, Resumes s (.bar a f0 n .sw) k y → y.cl = k.cl → y.form = .bar .sw n.toNat p → p ≠ r.phase →
      k.w.place ≠ .absent → k.w.frontier.all (fun e => !e.barWait) = true →
      ∃ t w, exec (.bar a f0 n .sw) s = .next t ∧ t.weft? k.sid k.wid = some w ∧ w.wait = none ∧
        w.flag y.flag = k.w.flag y.flag - 1 ∧ RegsKept k (.bar a f0 n .sw) w ∧ w.preds = k.w.preds ∧ t.mem = s.mem ∧
        Advanced k (.bar a f0 n .sw) w) ∧
    (∀ v i, (i = .bar a f0 n .sw ∨ i = .bara d a f0 n .sw) → Issues s i k → k.wid ∉ r.who → res = .error v →
      Traps s i k ⟨0x0E, k.act, BitVec.ofNat 32 v ++ BitVec.ofNat 32 c, BitVec.ofNat 32 n.toNat, 0⟩)) ∧
  (∀ s a f0 n k, Issues s (.barw a f0 n .sw) k →
    let r := swBar k.sw n.toNat
    (r.phase ≠ (k.scalar a).toNat → ∃ t w f, exec (.barw a f0 n .sw) s = .next t ∧ OnlyWeft s t k w ∧
      Begins k (.barw a f0 n .sw) w f ∧ Plain f ∧ w.preds = k.w.preds) ∧
    (r.phase = (k.scalar a).toNat → ∃ t w y, exec (.barw a f0 n .sw) s = .next t ∧ OnlyWeft s t k w ∧ w.wait = some y ∧
      y.instr = .barw a f0 n .sw ∧ y.form = .barw .sw n.toNat r.phase)) ∧
  ∀ s d f0 n k, Issues s (.barq d f0 n .sw) k → ∃ t w f, exec (.barq d f0 n .sw) s = .next t ∧ OnlyWeft s t k w ∧
    OnlyFlight k w ∧ Begins k (.barq d f0 n .sw) w f ∧ w.preds = k.w.preds ∧ Carries k w f d 2 fun _ =>
      [BitVec.ofNat 32 (swBar k.sw n.toNat).phase, BitVec.ofNat 32 (swBar k.sw n.toNat).arrived]

/-- An arrival of a wider scope (R196, R198): a weft is counted within its swatch; while another member has not arrived no
record of the scope moves; a count that differs from the one its swatch carries traps. At reel scope other packages
acknowledge the weft's earlier writes first (R325). -/
def WiderBarriersCountWithinTheUnit : Prop :=
  ∀ s d a f0 n sc k, Issues s (.bara d a f0 n sc) k → sc ≠ .sw → k.w.task = none → k.sw.control = none →
    let p := k.sw.parts.getD (32 * sc.ix + n.toNat) ⟨[], 0, false, none⟩
    let c := (k.scalar a).toNat
    k.wid ∉ p.who →
    ((p.who = [] ∨ p.carried = c) → (∃ q ∈ k.sw.wefts, q.2.task = none ∧ q.2.ended = false ∧ q.1 ≠ k.wid ∧ q.1 ∉ p.who) →
      Clear s k → (sc = .rl → s.pkg.acked = true) →
      ∃ t w f u, exec (.bara d a f0 n sc) s = .next t ∧ t.weft? k.sid k.wid = some w ∧ t.swatch? k.sid = some u ∧
        Begins k (.bara d a f0 n sc) w f ∧ t.launches = s.launches ∧ t.mem = s.mem ∧
        u.parts.get? (32 * sc.ix + n.toNat) = some { p with who := p.who ++ [k.wid], carried := c }) ∧
    (sc = .rl → Clear s k → s.pkg.acked = false → HeldBack s (.bara d a f0 n sc) k) ∧
    (p.who ≠ [] → p.carried ≠ c → Clear s k → (sc = .rl → s.pkg.acked = true) → Traps s (.bara d a f0 n sc) k
      ⟨0x0E, k.act, BitVec.ofNat 32 p.carried ++ BitVec.ofNat 32 c, BitVec.ofNat 32 (32 * sc.ix + n.toNat), 0⟩)

/-- Contributions (R209): a NaN element gives the canonical NaN and no bit; an infinity times zero, or infinite products of
both signs, the canonical NaN with nv; infinite products of one sign that infinity; otherwise the exact sum, rounded
once, a zero being +0 unless every product is −0. -/
def ContributionsRoundOnce : Prop :=
  ∀ a b : List Fp, a.length = b.length → a ≠ [] →
    let ps := (a.zip b).filterMap fun p => p.1.mul p.2
    ((∃ x, x ∈ a ++ b ∧ x.isNan = true) → contribution a b = (fp32.qnan, 0)) ∧
    ((∀ x ∈ a ++ b, x.isNan = false) →
      ((∃ p ∈ a.zip b, p.1.mul p.2 = none) ∨ (.inf true ∈ ps ∧ .inf false ∈ ps) → contribution a b = (fp32.qnan, 16)) ∧
      ((∀ p ∈ a.zip b, p.1.mul p.2 ≠ none) →
        (∀ n, .inf n ∈ ps → .inf (!n) ∉ ps → contribution a b = (fp32.signed n fp32.infBits, 0)) ∧
        ((∀ n, .inf n ∉ ps) → ∃ e : Int, aligned e ps ∧
          contribution a b = Fmt.res (fp32.roundInt .rn (ps.map (unitsOf e)).sum e (ps.all fun p => p.isNeg)))))

/-- NEG, NEGREL, EXPO and CEXPO (R207, R208, R211 to R214, R218 to R221): a slot takes the 8192 bytes at b, with
their descriptors when narrow, or is emptied; NEG is held while an exposure in flight reads its slot; an exposure
enters, row by active row, the contributions of its slot into its tiles, and into their check copies under .dual;
every other tile and slot and all of the scratchpad stand. -/
def ExposuresAccumulate : Prop :=
  (∀ s a b f0 c k, Issues s (.neg a b f0 c) k → k.sw.descFaults = [] →
    let v := k.scalar a
    let at_ := (k.scalar b).toNat
    selOk v false true false → negOf v < k.sw.negMap.length → rangeOk k 128 8192 at_ →
    (c = false → ∀ n, n < 64 → stripOk (descAt k.sw (at_ + 128 * n)) (descAt k.sw (at_ + 128 * n + 64))) →
    let bad := if c then badIn k.sw at_ 8192 else (List.range 64).any fun n => stripBad k.sw (at_ + 128 * n)
    (slotRead k.sw (negOf v) → HeldBack s (.neg a b f0 c) k) ∧
    (¬ slotRead k.sw (negOf v) → ∃ t w f u, Enlarges s t k (.neg a b f0 c) w f u ∧ OnlyFlight k w ∧ f.kind = .enlarger ∧ f.fst = 0 ∧
      { u with wefts := [], negs := [] } = { k.sw with wefts := [], negs := [] } ∧
      (∀ n, n ≠ negOf v → u.slot n = k.sw.slot n) ∧
      ∃ bytes descs, u.slot (negOf v) = (if c then .complex bytes bad else .narrow bytes descs bad) ∧
        (∀ j, j < 8192 → memByte bytes j = memByte k.sw.spad (at_ + j)) ∧
        ∀ j, j < 128 → descs.getD j 0 = descAt k.sw (at_ + 64 * j))) ∧
  (∀ s a f0 k, Issues s (.negrel a f0) k → selOk (k.scalar a) false true false → negOf (k.scalar a) < k.sw.negMap.length →
    ∃ t w f u, Enlarges s t k (.negrel a f0) w f u ∧ OnlyFlight k w ∧ f.kind = .enlarger ∧ f.fst = 0 ∧
      { u with wefts := [], negs := [] } = { k.sw with wefts := [], negs := [] } ∧ u.slot (negOf (k.scalar a)) = .empty ∧
      ∀ n, n ≠ negOf (k.scalar a) → u.slot n = k.sw.slot n) ∧
  (∀ s a b f0 dual k bytes descs bad, Issues s (.expo a b f0 dual) k → k.sw.descFaults = [] →
    let i : Instr := .expo a b f0 dual
    let v := k.scalar a
    let at_ := (k.scalar b).toNat
    let t0 := tileOf v
    selOk v true true false → negOf v < k.sw.negMap.length → tileFree k.sw t0 → (k.sw.tile t0).dual = dual →
    (dual = true → t0 < k.sw.accMap.length / 2) → k.sw.slot (negOf v) = .narrow bytes descs bad → rangeOk k 128 4096 at_ →
    (∀ l ∈ lanesOf k.act, stripOk (descAt k.sw (at_ + 128 * l)) (descAt k.sw (at_ + 128 * l + 64))) →
    (k.act = 0 → ∃ t w f u, Enlarges s t k i w f u ∧ f.kind = .enlarger ∧
      { u with wefts := [] } = { k.sw with wefts := [] }) ∧
    (k.act ≠ 0 → room s k → ∃ t w f u, Enlarges s t k i w f u ∧ OnlyFlight k w ∧ f.kind = .exposure (negOf v) ∧ f.fst = 0 ∧
      { u with wefts := [], tiles := [] } = { k.sw with wefts := [], tiles := [] } ∧
      (∀ x, written k.sw dual t0 x → Exposed (k.sw.tile x) (u.tile x) k.act
        (fun l n => exposedWord k.sw bytes descs at_ ((k.sw.tile x).word l n) l n) false
        (bad || (lanesOf k.act).any fun l => stripBad k.sw (at_ + 128 * l))) ∧
      ∀ x, ¬ written k.sw dual t0 x → u.tile x = k.sw.tile x) ∧
    (k.act ≠ 0 → ¬ room s k → ∃ t w, exec i s = .next t ∧ t.weft? k.sid k.wid = some w ∧
      w.frontier = k.e :: k.w.frontier.tail ∧ w.flights = k.w.flights ∧ w.flags = k.w.flags ∧
      t.clusters = s.clusters ∧ ∃ u, t.swatch? k.sid = some u ∧ u.tiles = k.sw.tiles)) ∧
  (∀ s a b f0 dual k neg bad, Issues s (.cexpo a b f0 dual) k → k.sw.descFaults = [] →
    let i : Instr := .cexpo a b f0 dual
    let v := k.scalar a
    let at_ := (k.scalar b).toNat
    let t0 := tileOf v
    selOk v true true false → negOf v < k.sw.negMap.length → t0 % 2 = 0 → tileFree k.sw t0 → tileFree k.sw (t0 + 1) →
    (k.sw.tile t0).dual = dual → (k.sw.tile (t0 + 1)).dual = dual → (dual = true → t0 + 1 < k.sw.accMap.length / 2) →
    k.sw.slot (negOf v) = .complex neg bad → rangeOk k 128 8192 at_ →
    (k.act ≠ 0 → room s k → ∃ t w f u, Enlarges s t k i w f u ∧ OnlyFlight k w ∧ f.kind = .exposure (negOf v) ∧ f.fst = 0 ∧
      { u with wefts := [], tiles := [] } = { k.sw with wefts := [], tiles := [] } ∧
      (∀ h, h < 2 → ∀ x, written k.sw dual (t0 + h) x → Exposed (k.sw.tile x) (u.tile x) k.act
        (fun l n => complexWord k.sw neg (k.sw.tile x) at_ (16 * h) l n)
        ((lanesOf k.act).any fun l => (List.range 16).any fun n => (List.range 4).any fun j =>
          (complexBlock k.sw neg at_ l (16 * h + n) j false).2 || (complexBlock k.sw neg at_ l (16 * h + n) j true).2)
        (bad || (lanesOf k.act).any fun l => badIn k.sw (at_ + 256 * l) 256)) ∧
      ∀ x, ¬ written k.sw dual t0 x → ¬ written k.sw dual (t0 + 1) x → u.tile x = k.sw.tile x))

/-- The traps of the enlarger's checks (R212, R213, R218, R221): a tile at or above acc, a slot at or above negs or a check
copy raises the protection trap with the selector; a slot of the wrong kind or a .dual that does not match the tile the
illegal-instruction trap. -/
def EnlargerChecksTrap : Prop :=
  ∀ s i k a tile slot grp wr, Issues s i k →
    (∃ b f0 u, i = .expo a b f0 u ∧ (tile, slot, grp, wr) = (true, true, false, true)) ∨
    (∃ f0 u, i = .accz a f0 u ∧ (tile, slot, grp, wr) = (true, false, false, true)) ∨
    (∃ b f0 u m, i = .accld a b f0 u m ∧ (tile, slot, grp, wr) = (true, false, false, true)) ∨
    (∃ d f0, i = .accrdReg d a f0 ∧ (tile, slot, grp, wr) = (true, false, true, false)) ∨
    (∃ d f0, i = .accrdStat d a f0 ∧ (tile, slot, grp, wr) = (true, false, false, false)) ∨
    (∃ f0, i = .negrel a f0 ∧ (tile, slot, grp, wr) = (false, true, false, true)) →
    let v := k.scalar a
    let protect := fun (b : Bool) => Traps s i k ⟨0x09, k.act, v.setWidth 64, if b then 1 else 0, 0⟩
    let illegal := Traps s i k ⟨0x01, k.act, 0, BitVec.ofNat 32 i.wordNat, 0⟩
    (¬ selOk v tile slot grp → illegal) ∧
    (selOk v tile slot grp →
      (tile = true → k.sw.accMap.length ≤ tileOf v → protect wr) ∧
      (slot = true → (tile = true → tileOf v < k.sw.accMap.length) → k.sw.negMap.length ≤ negOf v → protect (!tile)) ∧
      (tile = true → tileOf v < k.sw.accMap.length → (slot = true → negOf v < k.sw.negMap.length) →
        (¬ tileFree k.sw (tileOf v) → protect wr) ∧
        ∀ b f0 u, i = .expo a b f0 u → tileFree k.sw (tileOf v) → (u = true → tileOf v < k.sw.accMap.length / 2) →
          ((k.sw.tile (tileOf v)).dual ≠ u → illegal) ∧
          ((k.sw.tile (tileOf v)).dual = u → (∀ x y z, k.sw.slot (negOf v) ≠ .narrow x y z) → illegal)))

/-- ACCZ and ACCLD (R212, R223, R224): the tile is +0, or its active rows hold the loaded words, status bits 0 to 5 are
clear and dual is as encoded; under .dual the check copy holds the same; every other tile stands. -/
def TilesAreClearedAndLoaded : Prop :=
  (∀ s a f0 dual k, Issues s (.accz a f0 dual) k →
    let t0 := tileOf (k.scalar a)
    selOk (k.scalar a) true false false → tileFree k.sw t0 → (dual = true → t0 < k.sw.accMap.length / 2) →
    ∃ t w f u, Enlarges s t k (.accz a f0 dual) w f u ∧ OnlyFlight k w ∧ f.kind = .enlarger ∧ f.fst = 0 ∧
      { u with wefts := [], tiles := [] } = { k.sw with wefts := [], tiles := [] } ∧ (u.tile t0).dual = dual ∧
      (∀ x, written k.sw dual t0 x → (u.tile x).status.toNat % 64 = 0 ∧ ∀ l n, l < 32 → n < 64 → (u.tile x).word l n = 0) ∧
      ∀ x, ¬ written k.sw dual t0 x → u.tile x = k.sw.tile x) ∧
  ∀ s a b f0 dual m k, Issues s (.accld a b f0 dual m) k → k.sw.descFaults = [] →
    let t0 := tileOf (k.scalar a)
    let at_ := (k.scalar b).toNat
    let stride := match m with | .f32 => 256 | .bf16 => 128 | .desc => 64
    let new := fun (l n : Nat) => match m with
      | .f32 => leSum (memBytes k.sw.spad (at_ + 256 * l + 4 * n) 4)
      | .bf16 => (fp32.convertFp .rn false (bf16.unpack (leSum (memBytes k.sw.spad (at_ + 128 * l + 2 * n) 2)))).1
      | .desc => (fp32.convertFp .rn false
          (elementOf (descAt k.sw (at_ + 64 * l)) (memByte k.sw.spad (at_ + 64 * l + n)).toNat)).1
    selOk (k.scalar a) true false false → tileFree k.sw t0 → (dual = true → t0 < k.sw.accMap.length / 2) →
    rangeOk k 128 (32 * stride) at_ →
    (m = .desc → ∀ l ∈ lanesOf k.act, descNumeric (descAt k.sw (at_ + 64 * l)) = true ∧
      narrowFmt (descAt k.sw (at_ + 64 * l)) = false) →
    ∃ t w f u, Enlarges s t k (.accld a b f0 dual m) w f u ∧ OnlyFlight k w ∧ f.kind = .enlarger ∧ f.fst = 0 ∧
      { u with wefts := [], tiles := [] } = { k.sw with wefts := [], tiles := [] } ∧ (u.tile t0).dual = dual ∧
      (∀ x, written k.sw dual t0 x → (u.tile x).status.toNat % 32 = 0 ∧
        (u.tile x).poison = ((lanesOf k.act).any fun l => badIn k.sw (at_ + stride * l) stride) ∧
        ∀ l n, l < 32 → n < 64 → (u.tile x).word l n =
          if k.act.getLsbD l then new l n else (k.sw.tile t0).word l n) ∧
      ∀ x, ¬ written k.sw dual t0 x → u.tile x = k.sw.tile x

/-- DLSET, DLSTEP, DLEND and DLQ (R284, R296, R298) act on the record of the weft's context in its cluster: n rises when a
step opens, T, W, I and the owner are set, risk is clear in a newly opened step; DLQ reads slack and remaining work. -/
def DeadlineSteps : Prop :=
  (∀ s i k d, Issues s i k → (chargedCluster s k i).deadlines.get? k.sw.ctx.toNat = some d →
    ∀ f : Deadline → Deadline → Prop,
      ((∃ a b, i = .dlset a b ∧ f = fun d e => e.opened = true ∧ e.n = (if d.opened then d.n else d.n + 1) ∧
          e.due = (s.tim + (k.scalar a).toNat) % 2 ^ 64 ∧ e.work = (k.scalar b).toNat ∧ e.issues = 0 ∧
          e.owner = some (k.sid, k.wid) ∧ e.risk = (d.opened && d.risk)) ∨
        (∃ a b, i = .dlstep a b ∧ f = fun d e => e.opened = true ∧ e.n = d.n + 1 ∧
          e.due = (s.tim + (k.scalar a).toNat) % 2 ^ 64 ∧ e.work = (k.scalar b).toNat ∧ e.issues = 0 ∧
          e.owner = some (k.sid, k.wid) ∧ e.risk = false) ∨
        (i = .dlend ∧ f = fun d e => e = { d with opened := false })) →
    ∃ t w e, exec i s = .next t ∧ OnlyWeft s t k w ∧ w.rest = k.w.rest ∧ RegsKept k i w ∧ w.preds = k.w.preds ∧
      w.fstat = k.w.fstat ∧ Advanced k i w ∧ (t.cluster k.clu).deadlines.get? k.sw.ctx.toNat = some e ∧ f d e ∧
      e.rho = d.rho ∧ ∀ c, c ≠ k.sw.ctx.toNat → (t.cluster k.clu).deadlines.get? c = (s.cluster k.clu).deadlines.get? c) ∧
  ∀ s d k e, Issues s (.dlq d) k → (chargedCluster s k (.dlq d)).deadlines.get? k.sw.ctx.toNat = some e →
    let left := (e.due : Int) - s.tim
    let rest := e.work - e.issues
    let fcur := (s.cluster k.clu).fcur
    (e.opened = false → Completes s (.dlq d) k ⟨d, 2, fun _ => [0x7FFFFFFF, 0], fun _ => 0⟩) ∧
    (e.opened = true → e.rho = none →
      Completes s (.dlq d) k ⟨d, 2, fun _ => [clamp32 left, BitVec.ofNat 32 (min rest (2 ^ 32 - 1))], fun _ => 0⟩) ∧
    (∀ i c q, e.opened = true → e.rho = some (i, c) → 0 < i * fcur → q * (i * fcur) < rest * c * 1000 + i * fcur →
      rest * c * 1000 ≤ q * (i * fcur) →
      Completes s (.dlq d) k ⟨d, 2, fun _ => [clamp32 (left - q), BitVec.ofNat 32 (min rest (2 ^ 32 - 1))], fun _ => 0⟩)

/-- ENRD, ENSAVE and ENLOAD (R287, R288, R294, R297, R299): ENRD carries the saturating sum of the context's entries and its
saved sum; ENSAVE carries the cluster's entry, clears it and adds it to the saved sum, or 0 with no entry bound; ENLOAD
sets the entry, binding a free one, and clears the saved sum; 1 when none is free. -/
def EnergyAccounts : Prop :=
  (∀ s d f0 k c, Issues s (.enrd d f0) k → s.ctx? k.sw.ctx = some c → c.savedSum < 2 ^ 48 →
    let s1 := s.chargeIssue k (Instr.enrd d f0).op false false
    let mine := s1.clusters.flatMap fun p => p.2.accounts.filter fun a => a.ctx == k.sw.ctx
    let sum := c.savedSum + (mine.map fun a => a.count).sum
    ∃ t w f, exec (.enrd d f0) s = .next t ∧ OnlyWeft s t k w ∧ OnlyFlight k w ∧ Begins k (.enrd d f0) w f ∧ f.kind = .plain ∧
      w.preds = k.w.preds ∧ Carries k w f d 2 fun _ =>
        accountPair (min sum (2 ^ 48 - 1)) (c.savedSat || mine.any (fun a => a.sat) || decide (2 ^ 48 ≤ sum))) ∧
  (∀ s d a f0 k, Issues s (.ensave d a f0) k →
    let i : Instr := .ensave d a f0
    let accs := (chargedCluster s k i).accounts
    let ctx := k.scalar a
    (accs.all (fun e => e.ctx != ctx) = true → ∃ t w f, exec i s = .next t ∧ OnlyWeft s t k w ∧ Begins k i w f ∧
      w.preds = k.w.preds ∧ Carries k w f d 2 fun _ => [0, 0]) ∧
    (∀ e c, accs.find? (fun e => e.ctx == ctx) = some e → s.ctx? ctx = some c →
      ∃ t w f c', exec i s = .next t ∧ t.weft? k.sid k.wid = some w ∧ Begins k i w f ∧ w.preds = k.w.preds ∧ t.mem = s.mem ∧
        (Carries k w f d 2 fun _ => accountPair e.count e.sat) ∧
        (∀ x ∈ (t.cluster k.clu).accounts, x.ctx = ctx → x.count = 0 ∧ x.sat = false ∧ x.read = true) ∧
        t.ctx? ctx = some c' ∧ c'.savedSum = min (c.savedSum + e.count) (2 ^ 48 - 1) ∧
        c'.savedSat = (c.savedSat || e.sat || decide (2 ^ 48 ≤ c.savedSum + e.count)) ∧
        ∀ x, x.ctx ≠ ctx → x.read = false → (x ∈ (t.cluster k.clu).accounts ↔ x ∈ accs))) ∧
  ∀ s d a b f0 k, Issues s (.enload d a b f0) k →
    let i : Instr := .enload d a b f0
    let accs := (chargedCluster s k i).accounts
    let ctx := k.scalar a
    let v := (k.dword b false 0).toNat
    let bound := accs.any fun e => e.ctx == ctx
    (v / 2 ^ 48 % 2 ^ 15 ≠ 0 → Traps s i k ⟨0x01, k.act, 0, BitVec.ofNat 32 i.wordNat, 0⟩) ∧
    (v / 2 ^ 48 % 2 ^ 15 = 0 → bound = false → Config.accounts ≤ accs.length →
      ∃ t w f, exec i s = .next t ∧ OnlyWeft s t k w ∧ Begins k i w f ∧ w.preds = k.w.preds ∧ Carries k w f d 1 fun _ => [1]) ∧
    (v / 2 ^ 48 % 2 ^ 15 = 0 → (bound = true ∨ accs.length < Config.accounts) →
      ∃ t w f, exec i s = .next t ∧ t.weft? k.sid k.wid = some w ∧ Begins k i w f ∧ w.preds = k.w.preds ∧ t.mem = s.mem ∧
        (Carries k w f d 1 fun _ => [0]) ∧ (∃ x ∈ (t.cluster k.clu).accounts, x.ctx = ctx) ∧
        (∀ x ∈ (t.cluster k.clu).accounts, x.ctx = ctx → x.count = v % 2 ^ 48 ∧ x.sat = v.testBit 63 ∧ x.read = false) ∧
        (∀ c, s.ctx? ctx = some c → t.ctx? ctx = some { c with savedSum := 0, savedSat := false }) ∧
        ∀ x, x.ctx ≠ ctx → (x ∈ (t.cluster k.clu).accounts ↔ x ∈ accs))

/-- XPERM, XRED, XBC and XAG (R399 to R401): with the descriptor, the member list and every page of the ranges reached and
a place free, one operation joins the die's collective engine with its issue number, and the flight lasts until it
completes; an invalid descriptor fails it with 1, a list without this package or with one twice with 2, an
unreachable member with 3, before any byte is written. Other packages have acknowledged the weft's earlier writes first
(R249, R400). -/
def CollectivesIssue : Prop :=
  ∀ (s : State) i k form d a b x (p : Nat → Trans) key, collForm i = some (form, d, a, b) → Issues s i k → k.act ≠ 0 →
    Quiet s → (s.die k.die).notices = [] → (s.pkg.acked = true →
    let va := k.addr a 0
    let ver := (b.map fun y => (k.scalar y).toNat).getD 0
    let bs := (s.loadBytes k.core k.die k.w.away x.pa 64 false).2.1
    let f := fun (off n : Nat) => leSum ((bs.drop off).take n)
    let nmem := min (f 0x20 2) 4096
    let dst := if form = 3 then f 0x20 2 * f 0x10 4 else f 0x10 4
    let members := (List.range nmem).map fun j => leSum (s.loadBytes k.core k.die k.w.away (p (f 0x18 8 + 2 * j)).pa 2 false).2.1
    let slot := (4 * s.partOfCtx k.sw.ctx + form) * 65536 + f 0x14 2
    let reach := fun (acc : Acc) (y : Nat) => broken 1 (BitVec.ofNat 64 y) = none ∧ Mapped s k acc (BitVec.ofNat 64 y) (p y) ∧
      (form = 0 → (s.regionAt (s.partOfCtx k.sw.ctx) (y % 2 ^ 57)).map (fun r => r.1) = some key)
    broken 64 va = none → Mapped s k .load va x → (s.loadBytes k.core k.die k.w.away x.pa 64 false).2.2 = none →
    pkgOf x.pa = s.pkg.fpkg → (∀ j, j < nmem → pkgOf (p (f 0x18 8 + 2 * j)).pa = s.pkg.fpkg) →
    (∀ j, j < nmem → broken 1 (BitVec.ofNat 64 (f 0x18 8 + 2 * j)) = none ∧
      Mapped s k .load (BitVec.ofNat 64 (f 0x18 8 + 2 * j)) (p (f 0x18 8 + 2 * j))) →
    (∀ y, f 0 8 ≤ y → y < f 0 8 + f 0x10 4 → reach (if form = 0 then .vload else .load) y) →
    (∀ y, f 8 8 ≤ y → y < f 8 8 + dst → reach (if form = 0 then .vstore else .store) y) →
    ((s.die k.die).colls.filter fun c => (s.swatch? c.sid).any fun sw => sw.onCore).length < Config.collectives → (∀ c ∈ (s.die k.die).colls, c.id ≠ (s.die k.die).collSeq) →
    ∃ t w f0 c, exec i s = .next t ∧ t.weft? k.sid k.wid = some w ∧ Begins k i w f0 ∧ w.preds = k.w.preds ∧ t.mem = s.mem ∧
      f0.kind = .collective k.die c.id ∧ f0.vwr = [] ∧ (t.die k.die).colls = (s.die k.die).colls ++ [c] ∧
      c.id = (s.die k.die).collSeq ∧ c.form = form ∧ c.sid = k.sid ∧ c.wid = k.wid ∧ c.ctx = k.sw.ctx ∧ c.ver = ver ∧
      c.desc = bs ∧ c.members = members ∧ c.issue = s.pkg.collIssues.getD slot 0 ∧
      t.pkg.collIssues.getD slot 0 = c.issue + 1 ∧
      (form ≠ 0 →
        let own := members.contains s.pkg.fpkg && decide (members.Nodup)
        let lost := members.any fun m => m != s.pkg.fpkg && !s.pkg.reaches (s.pkg.forward m)
        let ok := plainDescOk form bs && members.all fun m => decide (m < 4096)
        (ok = false → c.phase = .done ∧ c.status = 1) ∧ (ok = true → own = false → c.phase = .done ∧ c.status = 2) ∧
        (ok = true → own = true → lost = true → c.phase = .done ∧ c.status = 3) ∧
        (ok = true → own = true → lost = false → c.phase = .prepare ∧ c.status = 0)))

/-- COLLECTIVE_PREPARE_DONE and COLLECTIVE_COMPLETION (R401 to R404): the others hear a member's verdict once its own
prepare has ended; a sound member goes on when all are; an unreachable member, another's abort or a different digest ends
it with 3, 6 or 7; an XPERM reserves version n + 1 or fails with 4 or 5; at completion the destination holds the
combination, the root's or every rank's bytes, marked where uncorrectable data enters, the status is in d, the flag falls,
and the forwarding entries that no other operation uses are gone (R408). What another package holds of the destination is
acknowledged first. That of a swatch off its core does not go on (R404). The messages are the model's (log 119). -/
def CollectivesPrepareAndComplete : Prop :=
  (∀ s die op v c, s.coll? die op = some c → c.phase ≠ .prepare ∨ ¬ InEngine s c → exec (.collectivePrepareDone die op v) s = .next s) ∧
  (∀ s die op v c, s.coll? die op = some c → c.phase = .prepare → InEngine s c → c.region = none → c.form ≠ 0 →
    let i : Instr := .collectivePrepareDone die op v
    let goes := fun (n : Nat) (f : Coll → Coll) => ∃ t d, exec i s = .next t ∧ Tells s t die c n ∧
      OneDie { s with pkg := t.pkg } t die d ∧ ∀ x, x ∈ d.colls ↔ ∃ y ∈ (s.die die).colls, x = if y.id = op then f y else y
    let ends := fun (told n : Nat) => goes told fun y => { y with phase := .done, status := n, reserved := 0, told := true }
    (s.collStatus c ≠ 0 → ends (s.collStatus c) (s.collStatus c)) ∧ (s.collStatus c = 0 → (v = .unreachable → ends c.status 3) ∧
      (v = .aborted → ends c.status 6) ∧ (v = .digestsDiffer → ends c.status 7) ∧
      (v = .waiting → goes c.status fun y => { y with told := true }) ∧
      (v = .sound → ∃ t c', exec i s = .next t ∧ t.coll? die op = some c' ∧
        { c' with away := c.away, shared := c.shared } = { c with phase := .data, told := true } ∧
        (s.collNeeds c = [] → c'.away = c.away ∧ (c'.shared = true ↔ c.shared = true ∨ ∀ a ∈ c.away, a.answer ≠ none) ∧
          OneDie { s with pkg := t.pkg } t die (t.die die))))) ∧
  (∀ s die op c key r, s.coll? die op = some c → c.phase = .prepare → InEngine s c → c.form = 0 → c.region = some key →
    s.regions.get? key = some r → s.collStatus c = 0 → (collDesc c.desc).sectors = 1 → c.reserved = 0 →
    let i : Instr := .collectivePrepareDone die op .sound
    let x := s.collSector c r 0
    let has := fun (n : Nat) => ∃ v ∈ x.2.vers, v.n = n
    let phase := fun (t : State) (p : CollPhase) (n : Nat) => exec i s = .next t ∧ t.mem = s.mem ∧
      ∃ c', t.coll? die op = some c' ∧ c'.phase = p ∧ c'.status = n
    (c.ver < r.floor → ∃ t, phase t .done 4) ∧
    (r.floor ≤ c.ver → ¬ has c.ver → exec i s = .next s) ∧
    (r.floor ≤ c.ver → has c.ver → x.2.taken (c.ver + 1) = true → ∃ t, phase t .done 5) ∧
    (r.floor ≤ c.ver → has c.ver → x.2.taken (c.ver + 1) = false → x.2.live < r.depth → r.slotFree = true → c.status = 0 →
      ∃ t r' y, phase t .data 0 ∧ t.regions.get? key = some r' ∧ r'.sectors.get? x.1 = some y ∧ y.vers = x.2.vers ∧
        y.reserved = x.2.reserved ++ [c.ver + 1] ∧ { r' with sectors := [] } = { r with sectors := [] })) ∧
  (∀ s die op c, s.coll? die op = some c → c.phase = .prepare → (c.form = 0 ∨ c.members ≠ [s.pkg.fpkg]) →
    exec (.collectiveCompletion die op) s = .next s) ∧
  ∀ s die op c w f fx, s.coll? die op = some c → s.weft? c.sid c.wid = some w → w.flights[fx]? = some f →
    f.kind = .collective die op → (∀ g ∈ w.flights.take fx, g.kind ≠ .collective die op) → f.poison = none → f.vwr = [] →
    (f.swr.map fun x => x.1).Nodup →
    let i : Instr := .collectiveCompletion die op
    let finished := fun (t : State) => exec i s = .next t ∧ (∀ x, x ∈ (t.die die).colls ↔ x ∈ (s.die die).colls ∧ x.id ≠ op) ∧
      ∃ w', t.weft? c.sid c.wid = some w' ∧ Landed w w' { f with swr := f.swr.map fun x => (x.1, BitVec.ofNat 32 c.status) } fx ∧
      ∀ n, (n ∉ c.members → t.pkg.forward n = s.pkg.forward n) ∧
        (n ∈ c.members → (∀ p ∈ t.dies, ∀ y ∈ p.2.colls, n ∉ y.members) → t.pkg.forward n = n)
    (c.phase = .done ∨ (c.phase = .written ∧ s.pkg.acked = true) → ∃ t, finished t ∧ t.mem = s.mem) ∧
    (c.phase = .written → s.pkg.acked = false → exec i s = .next s) ∧
    (c.phase = .data ∨ (c.phase = .prepare ∧ c.members = [s.pkg.fpkg]) → c.region = none → c.form ≠ 0 → c.form < 4 →
      let d := collDesc c.desc
      let total := if c.form = 3 then d.nmem * d.len else d.len
      let out := (List.range total).map fun n => (c.pa (d.dst + n / 32 * 32) + n % 32, (collByte s c n).1)
      d.len % 32 = 0 → d.len ≠ 0 → d.src % 32 = 0 → d.dst % 32 = 0 → (∀ p ∈ c.pins, p.pa % 65536 = 0) → (d.nmem ≤ 4096 ∧ d.root < d.nmem) → d.op < 4 →
      let own := c.members.findIdx (fun m => m == s.pkg.fpkg)
      (∀ a ∈ c.away, a.answer ≠ none) → (own < d.nmem → (c.form = 2 → own = d.root) → SourceRead s c) →
      (∀ r, r < d.nmem → (c.form = 2 → r = d.root) → r ≠ own → ∃ x, s.collMail? c r = some x ∧ d.len + d.len / 32 ≤ x.data.length) →
      (out.map fun p => p.1).Nodup →
      ((∀ p ∈ out, Writable s p.1) → ∃ t, finished t ∧ Wrote s t out ∧
        ∀ n, n < total → n % 32 = 0 → (c.pa (d.dst + n) ∈ t.bad ↔ (collByte s c n).2 = true)) ∧
      ((∃ p ∈ out, pkgOf p.1 ≠ s.pkg.fpkg) → ∃ t c', exec i s = .next t ∧ t.coll? die op = some c' ∧ c'.phase = .written))

/-- HALT, QUIESCE and their forms (R364, R367 to R369): HALT stops a context, and completes when its wefts have stopped;
.resume ends that; an unknown id has no effect. QUIESCE answers 1, 2 or 3, or stops the partition's highest cores and
holds its weft until they are done, then answers 0. -/
def HaltAndQuiesce : Prop :=
  (∀ s a k, Issues s (.halt a) k →
    let c := k.scalar a
    let finished := fun (w : Weft) => RegsKept k (.halt a) w ∧ Advanced k (.halt a) w
    ∃ t w, exec (.halt a) s = .next t ∧ t.weft? k.sid k.wid = some w ∧ t.mem = s.mem ∧ w.preds = k.w.preds ∧
      (s.ctx? c = none → OnlyWeft s t k w ∧ w.wait = none ∧ finished w) ∧
      (∀ x, s.ctx? c = some x → t.ctx? c = some { x with halted := true } ∧ (∀ y, y ≠ c → t.ctx? y = s.ctx? y) ∧
        (w.wait = none → finished w) ∧ ∀ y, w.wait = some y → y.instr = .halt a ∧ y.form = .halt c) ∧
      ((∀ p ∈ s.swatches, p.2.ctx ≠ c) → w.wait = none)) ∧
  (∀ s a k x, Resumes s (.halt a) k x → s.allStopped (k.scalar a) = true →
    ∃ t w, exec (.halt a) s = .next t ∧ t.weft? k.sid k.wid = some w ∧ w.wait = none ∧ RegsKept k (.halt a) w ∧
      Advanced k (.halt a) w) ∧
  (∀ s a k, Issues s (.haltResume a) k → ∃ t w, exec (.haltResume a) s = .next t ∧ t.weft? k.sid k.wid = some w ∧
    w.rest = k.w.rest ∧ RegsKept k (.haltResume a) w ∧ Advanced k (.haltResume a) w ∧ t.mem = s.mem ∧
    (∀ x, s.ctx? (k.scalar a) = some x → t.ctx? (k.scalar a) = some { x with halted := false }) ∧
    ∀ y, y ≠ k.scalar a → t.ctx? y = s.ctx? y) ∧
  ∀ s i d a k stop, (i = if stop then .quiesceStop d a else .quiesce d a) →
    (Issues s i k → k.act ≠ 0 →
      let part := (k.word a 0 0).toNat
      let n := (k.word a 1 0).toNat
      let answers := fun (x : Word) => ∃ t w, exec i s = .next t ∧ OnlyWeft s t k w ∧ w.rest = k.w.rest ∧ Writes k i w d [x]
      (s.parts.get? part = none → answers 1) ∧
      ∀ p, s.parts.get? part = some p →
        let cores := s.partCores p
        let bad := n = 0 ∨ cores.length < n ∨ (stop = false ∧ n = cores.length)
        let took := cores.drop (cores.length - n)
        (bad → answers 2) ∧ (¬ bad → p.quiesce ≠ none → answers 3) ∧
        (¬ bad → p.quiesce = none → ∃ t w y, exec i s = .next t ∧ t.weft? k.sid k.wid = some w ∧ w.wait = some y ∧
          y.instr = i ∧ y.form = .quiesce part ∧ w.vregs = k.w.vregs ∧ w.sregs = k.w.sregs ∧ t.mem = s.mem ∧
          t.parts.get? part = some { p with quiesce := some ⟨took, took.map fun c => (c, (s.core c).fwJobs), stop, []⟩ } ∧
          (∀ c ∈ took, (t.core c).stopped = true) ∧ ∀ c, c ∉ took → t.core c = s.core c)) ∧
    (∀ x, Resumes s i k x → k.act ≠ 0 → x.woken = true → ∃ t w, exec i s = .next t ∧ OnlyWeft s t k w ∧ w.wait = none ∧
      Writes k i w d [0])

/-- CTXSWAP (R366, R370): 1, 2 or 3 as its conditions say; otherwise what the partition's cores hold and what their shadow
stores hold change places, the cores go on, and the partition serves the incoming context, or none; a context that comes
back waits for an account entry in its clusters (R287). -/
def ContextSwapExchangesCoresAndShadows : Prop :=
  ∀ s d a k, Issues s (.ctxswap d a) k → k.act ≠ 0 →
    let i : Instr := .ctxswap d a
    let part := (k.word a 0 0).toNat
    let inc := k.word a 1 0
    let answers := fun (x : Word) => ∃ t w, exec i s = .next t ∧ OnlyWeft s t k w ∧ w.rest = k.w.rest ∧ Writes k i w d [x]
    (s.parts.get? part = none → answers 1) ∧
    ∀ p, s.parts.get? part = some p →
      let cores := s.partCores p
      let stopped := p.quiesce = none ∧ ∀ c ∈ cores, (s.core c).stopped = true
      let fresh := (∀ c ∈ cores, (s.core c).shadow = none) ∧ (inc = 0xFFFFFFFF ∨
        (∃ x, s.ctx? inc = some x ∧ x.part = part) ∧ ∀ q ∈ s.cores, q.2.shadow ≠ some inc)
      let back := cores ≠ [] ∧ ∀ c ∈ cores, (s.core c).shadow = some inc
      (¬ stopped → answers 2) ∧
      (stopped → ¬ fresh → (∀ c ∈ cores, (s.core c).shadow ≠ some inc) → answers 3) ∧
      let mine := ∀ sid u c r, s.swatch? sid = some u → u.place = .shadow c r → c ∈ cores → u.ctx = inc
      (stopped → back → mine → (∃ sid u c r, s.swatch? sid = some u ∧ u.control = none ∧ u.place = .shadow c r ∧ c ∈ cores ∧
        ¬ entryFor s (clusterOfCore c) inc) → HeldBack s i k) ∧
      (stopped → fresh ∨ (back ∧ mine ∧ ∀ c ∈ cores, entryFor s (clusterOfCore c) inc) → ∃ t w, exec i s = .next t ∧ t.weft? k.sid k.wid = some w ∧ t.mem = s.mem ∧ Writes k i w d [0] ∧
        t.parts.get? part = some { p with active := if inc = 0xFFFFFFFF then none else some inc, noCtx := inc == 0xFFFFFFFF } ∧
        (∀ o, p.active = some o → ∀ c ∈ cores, (t.core c).shadow = some o) ∧ (∀ c ∈ cores, (t.core c).stopped = false) ∧
        (∀ c, c ∉ cores → t.core c = s.core c) ∧
        ∀ sid u, s.swatch? sid = some u → u.control = none → ∃ v, t.swatch? sid = some v ∧ v.spad = u.spad ∧ v.tiles = u.tiles ∧
          v.negs = u.negs ∧
          (∀ c r, u.place = .placed c r → v.place = if c ∈ cores then .shadow c r else .placed c r) ∧
          (∀ c r, u.place = .shadow c r → v.place = if c ∈ cores then .placed c r else .shadow c r))

/-- CLAUSE_SELECT (R15, R19, R22, R101, R261): at a clause boundary the entry with the highest prio, then the lowest pc,
begins its clause when its header passes; a bad header address, a zero word or a malformed clause traps; a clause whose
lines are missing does not begin; nor does one of a context that `griudb` holds, or at a breakpoint not passed (R155).
BOUNDARY_TRAP (R114, R120): the first pending trap is taken, at a boundary or at a waiting instruction, whose lanes
already performed stand in tdone. -/
def ClauseSelectionAndBoundaryTraps : Prop :=
  (∀ s sid wid sw w e, Resident s sid wid sw w → Top w e → w.clause = none → w.wait = none →
    sw.ctx ∉ s.pkg.stoppedCtx → (w.passed = true ∨ (sw.ctx, e.pc) ∉ s.pkg.breaks) →
    let hdr := e.hdr.toNat
    let bad := hdr % 8 ≠ 0 ∨ s.codeSize sw.ctx ≤ hdr
    let cached := fun (a : Nat) => s.cachedWord sw.clu sw.ctx a
    let n := clauseLen ((cached hdr).getD 0)
    let all := ∃ h0 h1 ws, cached hdr = some h0 ∧ cached (hdr + 4) = some h1 ∧
      ws = (List.range n).map (fun j => (cached (hdr + 8 + 4 * j)).getD 0) ∧ s.missingLine sw.clu sw.ctx hdr = none
    let traps := fun (c : Nat) (pc : Word) (addr : DWord) (info : Word) => w.trapMode = false → ∃ t w',
      exec (.clauseSelect sid wid) s = .next t ∧ OneWeft s t sid wid w' ∧ InHandler w w' c pc e.mask addr info
    (bad → traps 0x04 e.pc (e.hdr.setWidth 64) 0) ∧
    (¬ bad → all → cached hdr = some 0 → traps 0x02 e.hdr 0 0) ∧
    (∀ h0 h1, ¬ bad → all → cached hdr = some h0 → cached (hdr + 4) = some h1 → h0 ≠ 0 →
      let ok := clauseOk h0 h1 ((List.range n).map fun j => (cached (hdr + 8 + 4 * j)).getD 0)
      (ok = false → traps 0x1A e.hdr 0 h0) ∧
      (ok = true → ∃ t w', exec (.clauseSelect sid wid) s = .next t ∧ OneWeft s t sid wid w' ∧
        w'.clause = some ⟨h0, h1, false⟩ ∧ w'.frontier.head? = some e ∧ (∀ x, x ∈ w'.frontier ↔ x ∈ w.frontier) ∧
        w'.latch = [] ∧ w'.vregs = w.vregs ∧ w'.sregs = w.sregs ∧ w'.preds = w.preds ∧ w'.flags = w.flags))) ∧
  (∀ s sid wid sw w e, Resident s sid wid sw w → Top w e → w.clause = none → w.wait = none → w.trapMode = false →
    e.pc = e.hdr →
    (∀ c m a i, firstPending w.pend e = some (c, m, a, i) → ∃ t w', exec (.boundaryTrap sid wid) s = .next t ∧
      t.weft? sid wid = some w' ∧ InHandler w w' (0x100 + c) e.pc m a i ∧ t.mem = s.mem ∧ w'.trec.tdone = 0 ∧
      (c = 0x10 → w'.pend = { w.pend with copyError := w.pend.copyError.tail }) ∧
      (c = 0x11 → w'.pend = { w.pend with arrayMismatch := w.pend.arrayMismatch.tail }) ∧
      (c = 0x12 → w'.pend = { w.pend with deadlineRisk := w.pend.deadlineRisk.tail }) ∧ (c = 0x19 → w'.pend = { w.pend with hang := false })) ∧
    (firstPending w.pend e = none → exec (.boundaryTrap sid wid) s = .next s)) ∧
  ∀ s sid wid sw w e es x, Resident s sid wid sw w → w.clause ≠ none → w.frontier = e :: es → w.wait = some x →
    x.woken = false → x.item = none → w.trapMode = false → leavesOff x.form = true → ∀ c m a i,
    firstPending w.pend e = some (c, m, a, i) → ∃ t w', exec (.boundaryTrap sid wid) s = .next t ∧
      t.weft? sid wid = some w' ∧ InHandler w w' (0x100 + c) e.pc m a i ∧ t.mem = s.mem ∧ w'.wait = none ∧
      w'.trec.tdone = x.done ||| (w.replay.getD e.pc.toNat 0 &&& e.mask)

/-- LONG_LATENCY_COMPLETION, EXPOSURE_COMPLETION and WEFT_SLOT_RELEASE (R48, R103, R215, R221): the flight's registers, fstat
bits and scratchpad writes come to hold and its flag falls by one; an ended weft whose flags are zero leaves its slot. -/
def CompletionsLandTheirResults : Prop :=
  (∀ s sid wid sw w f ix, s.swatch? sid = some sw → s.weft? sid wid = some w → w.flights[ix]? = some f → f.poison = none →
    (f.vwr.map fun x => x.1).Nodup → (f.swr.map fun x => x.1).Nodup →
    ((f.kind = .plain ∨ f.kind = .enlarger) → ∃ t w', exec (.longLatencyCompletion sid wid ix) s = .next t ∧
      OneWeft s t sid wid w' ∧ Landed w w' f ix) ∧
    (f.kind = .acks → s.pkg.acked = true → ∃ t w', exec (.longLatencyCompletion sid wid ix) s = .next t ∧
      OneWeft s t sid wid w' ∧ Landed w w' f ix) ∧
    (f.kind = .acks → s.pkg.acked = false → exec (.longLatencyCompletion sid wid ix) s = .next s) ∧
    ((∃ n, f.kind = .exposure n) → ∃ t w', exec (.exposureCompletion sid wid ix) s = .next t ∧ OneWeft s t sid wid w' ∧ Landed w w' f ix) ∧
    (∀ bytes descs, f.kind = .spadWrite bytes descs → (bytes.map fun x => x.1).Nodup → (descs.map fun x => x.1).Nodup →
      ∃ t w' u, exec (.longLatencyCompletion sid wid ix) s = .next t ∧ t.weft? sid wid = some w' ∧
        w'.flag f.flag = w.flag f.flag - 1 ∧ w'.fstat = w.fstat ||| f.fst ∧ t.swatch? sid = some u ∧ t.mem = s.mem ∧
        (∀ a, memByte u.spad a = (bytes.get? a).getD (memByte sw.spad a)) ∧
        (∀ n, u.descs.getD n 0 = (descs.get? n).getD (sw.descs.getD n 0)) ∧ u.full = sw.full ∧ u.tiles = sw.tiles) ∧
    (∀ r, f.kind = .unshape r → s.recordBusy sid r = false → ∃ t w' u, exec (.longLatencyCompletion sid wid ix) s = .next t ∧
      t.weft? sid wid = some w' ∧ Landed w w' f ix ∧ t.swatch? sid = some u ∧ u.shapes.get? r = none ∧
      (∀ j, j ≠ r → u.shapes.get? j = sw.shapes.get? j) ∧ t.mem = s.mem)) ∧
  ∀ s sid wid w, s.weft? sid wid = some w →
    (w.ended = true → (∀ p ∈ w.flags, p.2 = 0) → w.flights = [] → ∃ t w', exec (.weftSlotRelease sid wid) s = .next t ∧
      OneWeft s t sid wid w' ∧ w' = { w with place := .absent, leaving := none }) ∧
    (w.ended = false → ∃ t, exec (.weftSlotRelease sid wid) s = .next t ∧ OneWeft s t sid wid w)

/-- The watchers of a weft (R124, R125, R132, R155, R166, R237, R238, R259, R261, R280, R340): ICACHE_FILL brings a line in;
POLLING_CLASSIFICATION needs eight counted iterations; HANG_RECORD posts R125's record once and sets hng; GRIUDB stops
and resumes a context; FULL_EMPTY_RETEST, WATCH_FIRE and VERSION_WAITER_WAKE tell resident waiters to test again;
STAGGER_EXPIRY ends a deferral whose cycle has come. -/
def WatchersWakeAndRecord : Prop :=
  (∀ (s : State) cl ctx line s1 x, s.fetchAccess cl ctx line = (s1, .ok x) → pkgOf x.pa = s.pkg.fpkg → ∃ t, exec (.icacheFill cl ctx line) s = .next t ∧ t.mem = s.mem ∧
      (⟨ctx, line, (List.range 16).map fun j => BitVec.ofNat 32 (leSum (((s1.loadBytes none (dieOfCluster cl) (s.cluster cl).away x.pa 64 false).2.1.drop
        (4 * j)).take 4))⟩ : ILine) ∈ (t.cluster cl).icache) ∧
  (∀ s sid wid w, s.weft? sid wid = some w →
    (w.loupe.tracking = true → w.loupe.polling = false → 8 ≤ w.loupe.count → ∃ t w', exec (.pollingClassification sid wid) s = .next t ∧
      OneWeft s t sid wid w' ∧ w'.loupe.polling = true ∧
      ∀ p, p ∈ w'.loupe.watch ↔ ∃ l ∈ w.loupe.lastLoads.getD [], p ∈ l.sectors) ∧
    (w.loupe.count < 8 → ∃ t, exec (.pollingClassification sid wid) s = .next t ∧ OneWeft s t sid wid w)) ∧
  (∀ s sid wid sw w e, s.swatch? sid = some sw → s.weft? sid wid = some w → Top w e →
    (Config.safelightLimit ≤ w.safelight → w.hangPosted = false → ∃ u w', OneWeft s u sid wid w' ∧ w'.hng = true ∧
      w'.hangPosted = true ∧ w'.pend.hang = (w.pend.hang || w.hangen) ∧ w'.frontier = w.frontier ∧
      exec (.hangRecord sid wid) s = .next (u.post ⟨sw.ctx, [BitVec.ofNat 32 (0x19 + 256 * w.frontier.length), sw.ctx,
        BitVec.ofNat 32 sw.swi, BitVec.ofNat 32 wid, e.pc, e.mask, BitVec.ofNat 32 s.tim, 0], none⟩)) ∧
    ((w.safelight < Config.safelightLimit ∨ w.hangPosted = true) → exec (.hangRecord sid wid) s = .next s)) ∧
  (∀ s sid wid sw w e, Resident s sid wid sw w → Top w e → w.clause = none → w.wait = none →
    (sw.ctx, e.pc) ∈ s.pkg.breaks → sw.ctx ∉ s.pkg.stoppedCtx → w.passed = false →
    ∃ t, exec (.griudbBreakpoint sid wid) s = .next t ∧
      OneWeft { s with pkg := { s.pkg with stoppedCtx := s.pkg.stoppedCtx ++ [sw.ctx] } } t sid wid { w with passed := true }) ∧
  (∀ s c, ∃ t p, exec (.griudbResume c) s = .next t ∧ OnlyPkg s t p ∧ p = { s.pkg with stoppedCtx := p.stoppedCtx } ∧
    ∀ x, x ∈ p.stoppedCtx ↔ x ∈ s.pkg.stoppedCtx ∧ x ≠ c) ∧
  (∀ s sid sw, s.swatch? sid = some sw → (∀ q ∈ sw.wefts, q.2.place ≠ .absent) → (sw.wefts.map fun q => q.1).Nodup →
    (∀ c r, r ∈ (s.core c).wakeQ → r.kind ≠ 5) →
    ∃ t u, exec (.fullEmptyRetest sid) s = .next t ∧ OneSwatch s t sid u ∧ { u with wefts := [] } = { sw with wefts := [] } ∧
    ∀ wid w, (wid, w) ∈ sw.wefts →
      (∀ x lines want, w.wait = some x → x.form = .fullEmpty lines want → (∀ n ∈ lines, (n ∈ sw.full ↔ want = true)) →
        ∃ w', t.weft? sid wid = some w' ∧ Woken w w') ∧
      (w.wait = none → t.weft? sid wid = some w)) ∧
  (∀ s sec, ∃ t, exec (.watchFire sec) s = .next t ∧ t.mem = s.mem ∧ ∀ sid wid w, s.weft? sid wid = some w →
    ∃ w', t.weft? sid wid = some w' ∧ w'.watch = w.watch.map (fun e => if e.sector = sec ∨ (e.hashed = true ∧ Config.sectorHash e.sector = Config.sectorHash sec)
        then { e with fired := true } else e) ∧
      w'.vregs = w.vregs ∧ w'.sregs = w.sregs ∧
      (w.place ≠ .absent → (∃ x, w.wait = some x ∧ x.form = .watch) → (∃ e ∈ w.watch, e.sector = sec) → Woken w w')) ∧
  (∀ s key sec, ∃ t, exec (.versionWaiterWake key sec) s = .next t ∧ t.mem = s.mem ∧ t.regions = s.regions ∧
    ∀ sid wid w, s.weft? sid wid = some w → w.place ≠ .absent → w.versionWaits key (some sec) = true →
      ∃ w', t.weft? sid wid = some w' ∧ Woken w w') ∧
  ∀ s sid sw c, s.swatch? sid = some sw → sw.deferTo = some c →
    let clk := (s.cluster sw.clu).clk
    ((clk + 2 ^ 64 - c) % 2 ^ 64 < 2 ^ 63 → ∃ t, exec (.staggerExpiry sid) s = .next t ∧ OneSwatch s t sid { sw with deferTo := none }) ∧
    (2 ^ 63 ≤ (clk + 2 ^ 64 - c) % 2 ^ 64 → ∃ t, exec (.staggerExpiry sid) s = .next t ∧ OneSwatch s t sid sw)

/-- UNIT_ARRIVAL, WAKE_MESSAGE and WAKE_RECORD (R198, R228, R229, R236): a unit whose last missing member has ended
arrives at the record; a message completes the resident waiters of its phase, and a barrier's record the absent ones
in their images; another record tells its weft to test again and lets a sleeping loop go on. TASK_GATHER and its
timeout form a task weft of the first tasks of one entry (R362). -/
def ArrivalsWakesAndTaskWefts : Prop :=
  (∀ s sid sw n l x, s.swatch? sid = some sw → s.launches.get? sw.launch = some l →
    let p := sw.parts.getD (32 + n) ⟨[], 0, false, none⟩
    p.due = some x → ∀ r', arriveAt (s.barRec sid sw .bo n) sw.swi l.swatches (s.unitsLive sid sw .bo) p.carried = .ok r' →
    ∃ t u, exec (.unitArrival sid .bo n) s = .next t ∧ t.mem = s.mem ∧ t.swatch? sid = some u ∧ t.barRec sid u .bo n = r' ∧
      u.spad = sw.spad ∧ u.bars = sw.bars) ∧
  (∀ s sid sw n sc, s.swatch? sid = some sw → (∀ lv, (s.part sid sw lv sc n).due = none) → exec (.unitArrival sid sc n) s = .next s) ∧
  (∀ s core, (s.core core).wakeMsgs = [] → exec (.wakeMessage core) s = .next s) ∧
  (∀ s core m ms, (s.core core).wakeMsgs = m :: ms → ∃ t, exec (.wakeMessage core) s = .next t ∧ t.mem = s.mem ∧
    (t.core core).wakeMsgs = ms ∧ ∀ sid wid sw w x p, Resident s sid wid sw w → sw.core? = some core →
      s.inGroup m.launch m.sc m.group sid sw = true → w.wait = some x → x.form = .bar m.sc m.n p → w.flights = [] →
      p ≠ (s.barRec sid sw m.sc m.n).phase →
      ∃ w', t.weft? sid wid = some w' ∧ w'.wait = none ∧ w'.flag x.flag = w.flag x.flag - 1 ∧ w'.preds = w.preds) ∧
  (∀ s core, (s.core core).wakeQ = [] → exec (.wakeRecord core) s = .next s) ∧
  (∀ s core r rs, (s.core core).wakeQ = r :: rs → ∃ t, exec (.wakeRecord core) s = .next t ∧ t.mem = s.mem ∧
    (t.core core).wakeQ = rs ∧ ∀ wid w, r.wid = some wid → s.weft? r.sid wid = some w → ∃ w', t.weft? r.sid wid = some w' ∧
      w'.vregs = w.vregs ∧ w'.sregs = w.sregs ∧ w'.preds = w.preds ∧ (w.wait ≠ none → Woken w w') ∧
      (w.wait = none → w'.wait = none) ∧ w'.loupe.polling = false) ∧
  (∀ s core r rs sc n sw wid w x p, (s.core core).wakeQ = r :: rs → r.wid = none → r.arg = 64 * sc.ix + n → n < 32 →
    s.swatch? r.sid = some sw → s.weft? r.sid wid = some w → w.place = .absent → w.halted = none → w.flights = [] →
    w.wait = some x → x.form = .bar sc n p → p ≠ (s.barRec r.sid sw sc n).phase →
    ∃ t w', exec (.wakeRecord core) s = .next t ∧ t.mem = s.mem ∧ (t.core core).wakeQ = rs ∧
      t.weft? r.sid wid = some w' ∧ w'.wait = none ∧ w'.flag x.flag = w.flag x.flag - 1 ∧ w'.preds = w.preds ∧
      w'.place = .absent) ∧
  ∀ s lid l x xs sw i, s.launches.get? lid = some l → l.pool = x :: xs → s.swatch? x.sid = some sw →
    let group := (l.pool.filter fun y => y.sid == x.sid && y.entry == x.entry).take 32
    let age := ((s.cluster sw.clu).clk + 2 ^ 32 - x.since) % 2 ^ 32
    (i = .taskGather lid ∧ group.length = 32) ∨ (i = .taskGatherTimeout lid ∧ 256 ≤ age ∧ age < 2 ^ 31) →
    ∃ t wid w m l', exec i s = .next t ∧ t.mem = s.mem ∧ s.weft? x.sid wid = none ∧ t.weft? x.sid wid = some w ∧
      w.role = .general ∧ w.place = .absent ∧ w.ended = false ∧ w.frontier = [m] ∧ m.pc = x.entry ∧ m.hdr = x.entry ∧
      (∀ j, j < 32 → m.mask.getLsbD j = decide (j < group.length)) ∧ (∃ args, w.task = some args ∧
        ∀ j y, group[j]? = some y → args.getD j 0 = y.arg) ∧
      t.launches.get? lid = some l' ∧ l' = { l with pool := l'.pool } ∧ l'.pool.length + group.length = l.pool.length ∧
      ∀ a w0, s.weft? x.sid a = some w0 → t.weft? x.sid a = some w0

/-- The changing bag (R230 to R235): BAG_CHOICE names the weft that has been runnable longest, and the candidate that
makes room; WEFT_SAVE puts a quiet weft into its image, a poller at its loop's target, and counts the rotation;
WEFT_LOAD gives the chosen weft a free slot; every register, predicate and byte of memory stands. -/
def TheBagRotatesWefts : Prop :=
  (∀ s core x o, s.bagFree core = true → s.bagRow core = some (x, o) →
    (∃ sw w, s.swatch? x.sid = some sw ∧ s.weft? x.sid x.wid = some w ∧ sw.core? = some core) →
    (∀ y, o = some y → ∃ w, s.weft? y.sid y.wid = some w) →
    ∃ t, exec (.bagChoice core) s = .next t ∧ t.mem = s.mem ∧ (t.core core).incoming = some (x.sid, x.wid) ∧
      (∀ p ∈ s.swatches, p.2.core? = some core → s.bagMay p.2 = true → ∀ q ∈ p.2.wefts, s.runnable p.2 q.2 = true →
        x.since ≤ q.2.runSince) ∧
      ∀ y, o = some y → ∃ w w', s.weft? y.sid y.wid = some w ∧ t.weft? y.sid y.wid = some w' ∧ w' = { w with leaving := some false }) ∧
  (∀ s core, (s.bagFree core = false ∨ s.bagRow core = none) → exec (.bagChoice core) s = .next s) ∧
  (∀ s core x y w, s.bagFree core = true → s.bagRow core = none → s.bagRow4 core = some (x, y) → s.weft? y.sid y.wid = some w →
    ∃ t w', exec (.bagTimeslice core) s = .next t ∧ t.mem = s.mem ∧ (t.core core).incoming = some (x.sid, x.wid) ∧
      t.weft? y.sid y.wid = some w' ∧ w' = { w with leaving := some true }) ∧
  (∀ s core, (s.bagFree core = false ∨ s.bagRow core ≠ none ∨ s.bagRow4 core = none) → exec (.bagTimeslice core) s = .next s) ∧
  (∀ s sid wid sw w core four, s.swatch? sid = some sw → s.weft? sid wid = some w → sw.core? = some core →
    w.leaving = some four →
    (w.ended = true ∨ w.halted ≠ none → ∃ t, exec (.weftSave sid wid) s = .next t ∧ OneWeft s t sid wid { w with leaving := none }) ∧
    (w.ended = false → w.halted = none → (four = true ∨ s.candidate sw w = true) → w.flights = [] →
      (w.clause = none ∨ w.wait ≠ none) → s.bagUsed core + w.imageBytes ≤ 2 ^ 21 → ∃ t w', exec (.weftSave sid wid) s = .next t ∧
      OneWeft s t sid wid w' ∧ w'.place = .absent ∧ w'.leaving = none ∧ w'.rot = (w.rot + 1) % 2 ^ 64 ∧ w'.vregs = w.vregs ∧
      w'.sregs = w.sregs ∧ w'.preds = w.preds ∧ w'.flags = w.flags ∧ w'.wait = w.wait ∧ w'.trec = w.trec ∧
      (w.loupe.polling = false → w'.frontier = w.frontier) ∧
      ∀ e, w.loupe.polling = true → w.wait = none → Top w e →
        ∃ x ∈ w'.frontier, x.pc = w.loupe.target ∧ ∀ l, e.mask.getLsbD l = true → x.mask.getLsbD l = true)) ∧
  ∀ s sid wid sw w core, s.swatch? sid = some sw → s.weft? sid wid = some w → sw.core? = some core →
    (s.core core).incoming = some (sid, wid) → s.incomingFits core = true → w.late = none →
    ∃ t w' q i, exec (.weftLoad sid wid) s = .next t ∧ t.weft? sid wid = some w' ∧ t.mem = s.mem ∧ w'.place = .slot q i ∧
      quadChoice (s.slotsUsed core) w.vbud = some (q, i) ∧ (t.core core).incoming = none ∧ w'.vregs = w.vregs ∧
      w'.sregs = w.sregs ∧ w'.preds = w.preds ∧ w'.flags = w.flags ∧ w'.wait = w.wait ∧
      w'.frontier = if w.started then w.frontier else w.frontier.map fun e => { e with prio := s.prioAt sw.clu sw.ctx e.hdr }

/-- Placement, rotation and release of swatches (R157 to R160, R240, R278, R280): the distributor's choice is placed
with what R157 gives it, a swatch that has not run with its resources clear; a releasable one gives everything back
once other packages have acknowledged its writes; a rotated one is saved, and no byte moves outside its context's
spill area; a dispatch to a gated cluster wakes it. -/
def SwatchesArePlacedSavedAndReleased : Prop :=
  (∀ s sid core sw r, (s.cluster (clusterOfCore core)).gating = .on → s.dispatch? (clusterOfCore core) = some (sid, core) →
    s.swatch? sid = some sw → s.roomFor core sw = some r → (∀ p ∈ sw.wefts, p.2.late = none) →
    ∃ t u, exec (.swatchPlacement sid core) s = .next t ∧ t.swatch? sid = some u ∧ t.mem = s.mem ∧ u.place = .placed core r.slot ∧
      u.spline = r.line ∧ u.accMap = r.acc ∧ u.negMap = r.neg ∧ u.firstPlaced = true ∧
      (sw.place = .waiting → u.spad = [] ∧ u.full = [] ∧ u.descs = [] ∧ u.bars = [] ∧ u.parts = [] ∧ u.hwq = [] ∧ u.tags = [] ∧
        u.shapes = [] ∧ u.tiles = [] ∧ u.negs = []) ∧
      (sw.place ≠ .waiting → u.spad = sw.spad ∧ u.full = sw.full ∧ u.bars = sw.bars ∧ u.tiles = sw.tiles ∧ u.shapes = sw.shapes) ∧
      ∀ sid', sid' ≠ sid → t.swatch? sid' = s.swatch? sid') ∧
  (∀ s sid core, ((s.cluster (clusterOfCore core)).gating ≠ .on ∨ s.dispatch? (clusterOfCore core) ≠ some (sid, core)) →
    exec (.swatchPlacement sid core) s = .next s) ∧
  (∀ s sid sw core l, s.swatch? sid = some sw → sw.core? = some core → s.launches.get? sw.launch = some l →
    (sw.wefts.all fun p => p.2.ended && p.2.place == .absent && p.2.flights.isEmpty) = true →
    (∀ j ∈ (s.core core).jobs, j.kind = .firmware ∨ j.sid ≠ sid) → (∀ x ∈ l.pool, x.sid ≠ sid) →
    ((s.drainCore core).pkg.acked = false → ∃ t, exec (.swatchRelease sid) s = .next t ∧ t.swatch? sid = some sw ∧
      t.launches = s.launches ∧ (t.core core).wbuf = []) ∧
    ((s.drainCore core).pkg.acked = true →
    ∃ t u, exec (.swatchRelease sid) s = .next t ∧ t.swatch? sid = some u ∧ u.place = .released ∧ u.accMap = [] ∧ u.negMap = [] ∧
      u.spad = [] ∧ u.wefts = [] ∧ t.launches.get? sw.launch = some { l with left := l.left - 1 } ∧ (t.core core).wbuf = [] ∧
      ((s.core core).wbuf = [] → (s.die (dieOfCore core)).out = [] → t.mem = s.mem))) ∧
  (∀ s sid sw, s.swatch? sid = some sw → (∃ p ∈ sw.wefts, p.2.ended = false) → exec (.swatchRelease sid) s = .next s) ∧
  (∀ s sid sw core, s.swatch? sid = some sw → s.rotation? sw.clu = some sid → sw.core? = some core →
    (s.core core).wbuf = [] → (s.die (dieOfCore core)).out = [] →
    ∃ t u, exec (.swatchRotation sid) s = .next t ∧ t.swatch? sid = some u ∧ u.place = .saved false ∧
      (∀ c a, s.ctx? sw.ctx = some c → (a < c.spBase ∨ c.spBase + 65536 * c.spPages ≤ a) → Untracked s →
        memByte t.mem a = memByte s.mem a) ∧
      u.spad = sw.spad ∧ u.full = sw.full ∧ u.bars = sw.bars ∧ u.tiles = sw.tiles ∧ u.negs = sw.negs ∧ u.shapes = sw.shapes ∧
      ∀ wid w, u.wefts.get? wid = some w → w.place = .absent) ∧
  (∀ s sid sw, s.swatch? sid = some sw → s.rotation? sw.clu ≠ some sid → exec (.swatchRotation sid) s = .next s) ∧
  ∀ s cl sid, ∃ t c, exec (.clusterWake cl sid) s = .next t ∧ OneCluster s t cl c ∧
    ((s.cluster cl).gating = .off → c = { s.cluster cl with gating := .waking sid s.tim }) ∧
    ((s.cluster cl).gating ≠ .off → c = s.cluster cl)

/-- COPY_JOB_BEGIN, COPY_LINE_FULL (R171 to R173, R181, R265): a job begins when no earlier job of its core conflicts; an
inbound line's bytes and descriptors arrive and the line is full; an outbound line's bytes and descriptors reach their
homes, and under ring the line is empty after it; a firmware job moves 128 bytes; uncorrectable data gives error 1. -/
def CopyJobsMoveTheirLines : Prop :=
  (∀ s core ix j, (s.core core).jobs[ix]? = some j →
    let first := ∀ e ∈ (s.core core).jobs.take ix, e.conflicts j = false
    (j.begun = false → first → ∃ t c, exec (.copyJobBegin core ix) s = .next t ∧ OneCore s t core c ∧
      c = { s.core core with jobs := (s.core core).jobs.set ix { j with begun := true } }) ∧
    ((j.begun = true ∨ ¬ first) → exec (.copyJobBegin core ix) s = .next s)) ∧
  ∀ s core ix j sw, (s.core core).jobs[ix]? = some j → s.swatch? j.sid = some sw →
    let i : Instr := .copyLineFull core ix
    let die := dieOfCore core
    let at_ := j.spad + 128 * j.lines
    let span := rangeFrom (128 * j.lines) (min (128 * (j.lines + 1)) j.bytes - 128 * j.lines)
    let pas := span.map fun o => j.shape.pa (j.byteVa o)
    let line := j.spad / 128 + j.lines
    let units := (j.bytes + 127) / 128
    let inward := j.kind = .cpyin ∨ j.kind = .gather
    let blocks := if j.shape.described then span.filter fun o => o % 64 == 0 else []
    let side := fun (o : Nat) => s.sidecarAddr (j.shape.pa (j.byteVa o))
    let tagged := fun (o : Nat) => (j.shape.pin (j.byteVa o)).desc
    ((j.begun = false ∨ j.err ≠ 0 ∨ units ≤ j.lines ∨ (j.ring = true ∧ inward ∧ line ∈ sw.full) ∨
      (j.ring = true ∧ j.kind = .cpyout ∧ line ∉ sw.full)) → exec i s = .next s) ∧
    (j.begun = true → j.err = 0 → j.lines < units → j.away = [] → (s.core core).wbuf = [] → (s.die die).out = [] →
      (inward → (j.ring = true → line ∉ sw.full) → ¬ (j.kind = .cpyin ∧ j.shape.coded = true) →
        ((∀ a ∈ pas, Readable s die a) → (∀ o ∈ blocks, tagged o = true → ∀ n, n < 4 → Readable s die (side o + n)) →
          ∃ t u, exec i s = .next t ∧ t.mem = s.mem ∧ t.swatch? j.sid = some u ∧ JobMoved s t core ix { j with lines := j.lines + 1 } ∧
            (∀ n a, pas[n]? = some a → memByte u.spad (at_ + n) = memByte s.mem a) ∧
            (∀ b, (b < at_ ∨ at_ + span.length ≤ b) → memByte u.spad b = memByte sw.spad b) ∧
            (∀ n, n ∈ u.full ↔ n ∈ sw.full ∨ n = line) ∧
            (∀ o ∈ blocks, u.descs.getD ((j.spad + o) / 64) 0 =
              if tagged o then BitVec.ofNat 32 (leSum (memBytes s.mem (side o) 4)) else 0) ∧
            (j.shape.described = false → u.descs = sw.descs)) ∧
        ((∀ a ∈ pas, pkgOf a = s.pkg.fpkg ∧ dieOf a = die) → (∃ a ∈ pas, sectorOf a ∈ s.bad) →
          ∃ t, exec i s = .next t ∧ t.mem = s.mem ∧ t.swatch? j.sid = some sw ∧ JobMoved s t core ix { j with err := 1 })) ∧
      (j.kind = .cpyin → j.shape.coded = true → (j.ring = true → line ∉ sw.full) → s.lineNeeds j = [] →
        (∀ s1 pos bs ds, s.decodeLine core j (span.length / 64) (128 * j.lines) j.pos [] [] = (s1, .ok (pos, bs, ds)) →
          ∃ t u, exec i s = .next t ∧ t.mem = s.mem ∧ t.swatch? j.sid = some u ∧
            JobMoved s t core ix { j with lines := j.lines + 1, pos := pos } ∧
            (∀ n b, bs[n]? = some b → memByte u.spad (at_ + n) = b) ∧ (∀ n d, ds.get? n = some d → u.descs.getD n 0 = d) ∧
            ∀ n, n ∈ u.full ↔ n ∈ sw.full ∨ n = line) ∧
        (∀ s1 e a d, s.decodeLine core j (span.length / 64) (128 * j.lines) j.pos [] [] = (s1, .error (e, a, d)) →
          ∃ t, exec i s = .next t ∧ t.mem = s.mem ∧ t.swatch? j.sid = some sw ∧
            JobMoved s t core ix { j with err := e, badDesc := (a, d) })) ∧
      (j.kind = .cpyout → (j.ring = true → line ∈ sw.full) →
        (∀ a, at_ / 32 * 32 ≤ a → a < at_ + span.length → sectorOf a ∉ sw.spadBad) →
        let out := pas.zip (memBytes sw.spad at_ span.length) ++ blocks.flatMap fun o => if tagged o then
          (List.range 4).map fun n => (side o + n, (sw.descs.getD ((j.spad + o) / 64) 0 >>> (8 * n)).setWidth 8) else []
        (out.map fun p => p.1).Nodup → (∀ p ∈ out, Writable s p.1) →
          ∃ t u, exec i s = .next t ∧ Wrote s t out ∧ t.swatch? j.sid = some u ∧ JobMoved s t core ix { j with lines := j.lines + 1 } ∧
            u.spad = sw.spad ∧ u.descs = sw.descs ∧ ∀ n, n ∈ u.full ↔ n ∈ sw.full ∧ (j.ring = true → n ≠ line)) ∧
      (j.kind = .firmware → (∀ n, n < span.length → Readable s die (j.src + 128 * j.lines + n) ∧
          Writable s (j.dst + 128 * j.lines + n)) →
        ∃ t, exec i s = .next t ∧ JobMoved s t core ix { j with lines := j.lines + 1 } ∧
          Wrote s t ((List.range span.length).map fun n => (j.dst + 128 * j.lines + n, memByte s.mem (j.src + 128 * j.lines + n)))))

/-- COPY_JOB_COMPLETION, COPY_JOB_ABORT, FIRMWARE_COPY_COMPLETION (R173, R175, R177, R190, R194, R263, R265): a job
whose lines are done, at other packages' homes too, leaves its place and its flag falls; an aborted one reports its
error to every weft of the swatch, or leaves the lines it did not write under the descriptor trap; a firmware job
ends with the kind-1 record. -/
def CopyJobsEnd : Prop :=
  (∀ s core ix j sw, (s.core core).jobs[ix]? = some j → s.swatch? j.sid = some sw → j.kind ≠ .firmware →
    let units := (j.bytes + 127) / 128
    let line := j.spad / 128 + j.lines
    let left := rangeFrom line (units - j.lines)
    (j.begun = true → j.err = 0 → units ≤ j.lines → (j.kind = .cpyout → s.pkg.acked = true) → ∃ t u, exec (.copyJobCompletion core ix) s = .next t ∧
      JobEnded s t core ix j sw u 0 ∧ u.descFaults = sw.descFaults) ∧
    ((j.begun = false ∨ j.err ≠ 0 ∨ j.lines < units ∨ (j.kind = .cpyout ∧ s.pkg.acked = false)) → exec (.copyJobCompletion core ix) s = .next s) ∧
    (j.err = 0 → exec (.copyJobAbort core ix) s = .next s) ∧
    (j.err = 3 → ∃ t u, exec (.copyJobAbort core ix) s = .next t ∧ JobEnded s t core ix j sw u 3 ∧
      u.descFaults = sw.descFaults ++ [⟨j.num, left, j.badDesc.1, j.badDesc.2⟩] ∧
      ∀ wid w x lines want n, s.weft? j.sid wid = some w → w.wait = some x → x.form = .fullEmpty lines want →
        n ∈ lines → n ∈ left → n ∉ sw.full → ∃ w', t.weft? j.sid wid = some w' ∧ Woken w w') ∧
    (j.err ≠ 0 → j.err ≠ 3 → ∃ t u, exec (.copyJobAbort core ix) s = .next t ∧ JobEnded s t core ix j sw u 3 ∧
      u.descFaults = sw.descFaults ∧ ∀ wid w, s.weft? j.sid wid = some w → w.ended = false → ∃ w', t.weft? j.sid wid = some w' ∧
        w'.pend = { w.pend with copyError := w.pend.copyError ++ [(BitVec.ofNat 64 (128 * line), BitVec.ofNat 32 j.num)] })) ∧
  ∀ s core ix j, (s.core core).jobs[ix]? = some j → j.kind = .firmware →
    let c := s.cluster (clusterOfCore core)
    let finished := j.err ≠ 0 ∨ (j.begun = true ∧ (j.bytes + 127) / 128 ≤ j.lines ∧ s.pkg.acked = true)
    (finished → c.evq.length < Config.eventQueue → ∃ t, exec (.firmwareCopyCompletion core ix) s = .next t ∧ t.mem = s.mem ∧
      (t.core core).jobs = (s.core core).jobs.eraseIdx ix ∧ t.cluster (clusterOfCore core) = { c with evq := c.evq ++
        [⟨1, core % 6, ((s.swatch? j.sid).map fun sw => sw.ctx).getD 0, BitVec.ofNat 32 j.num,
          BitVec.ofNat 32 (j.lines % 65536 * 256 + j.err * 4 + if j.err = 0 then 0 else 3)⟩] }) ∧
    ((¬ finished ∨ Config.eventQueue ≤ c.evq.length) → exec (.firmwareCopyCompletion core ix) s = .next s)

/-- WRITE_BUFFER_DRAIN, REMOTE_WRITE, UPDATE_APPLY (R248, R318, R319): an entry of the buffer takes its place at a home on
the core's die, or is sent; a write that arrives takes its place, its die is stamped and every other die gets a notice,
with the bytes where it holds a copy; a notice is applied when its causes have been. -/
def WritesReachTheirHomes : Prop :=
  (∀ s core sec, (s.core core).wbuf.find? (fun e => e.sector == sec) = none → exec (.writeBufferDrain core sec) s = .next s) ∧
  (∀ s core sec e, (s.core core).wbuf.find? (fun e => e.sector == sec) = some e →
    ∃ t, exec (.writeBufferDrain core sec) s = .next t ∧ (t.core core).wbuf = (s.core core).wbuf.filter (fun x => x.sector != sec) ∧
      ((pkgOf sec ≠ s.pkg.fpkg ∨ dieOf sec ≠ dieOfCore core) → t.mem = s.mem ∧
        (t.die (dieOfCore core)).out = (s.die (dieOfCore core)).out ++ [⟨core, sec, e.bytes⟩]) ∧
      (dieOf sec = dieOfCore core → Writable s sec → sec % 32 = 0 → e.bytes ≠ [] → (e.bytes.map fun p => p.1).Nodup →
        (∀ p ∈ e.bytes, p.1 < 32) → PlacedWrite s t sec e.bytes)) ∧
  (∀ s d, (s.die d).out = [] → exec (.remoteWrite d) s = .next s) ∧
  (∀ s d r rs, (s.die d).out = r :: rs → d < 4 → dieOf r.sector ≠ d → Writable s r.sector → r.sector % 32 = 0 → r.bytes ≠ [] →
    (r.bytes.map fun p => p.1).Nodup → (∀ p ∈ r.bytes, p.1 < 32) →
    (∀ x, x < 4 → ((s.die d).clock.getD d 0 + 1 + 2 ^ 48 - (s.die x).clock.getD d 0) % 2 ^ 48 < 2 ^ 47) →
    let stamp := (s.die d).clock.set d (((s.die d).clock.getD d 0 + 1) % 2 ^ 48)
    ∃ t, exec (.remoteWrite d) s = .next t ∧ PlacedWrite s t r.sector r.bytes ∧ (t.die d).out = rs ∧ (t.die d).clock = stamp ∧
      (t.die d).notices = (s.die d).notices ∧ ∀ x, x < 4 → x ≠ d → (t.die x).clock = (s.die x).clock ∧
        (t.die x).notices = (s.die x).notices ++ [⟨d, stamp, r.sector, if ((s.die x).copies.get? r.sector).isSome then
          some ⟨memBytes t.mem r.sector 32, (t.die (dieOf r.sector)).seqs.getD r.sector 0⟩ else none⟩]) ∧
  ∀ s die ix n, (s.die die).notices[ix]? = some n →
    let d := s.die die
    let may := ∀ k, k < 4 → if k = n.writer then n.stamp.getD k 0 = (d.clock.getD k 0 + 1) % 2 ^ 48
      else (d.clock.getD k 0 + 2 ^ 48 - n.stamp.getD k 0) % 2 ^ 48 < 2 ^ 47
    (may → ∃ t d', exec (.updateApply die ix) s = .next t ∧ OneDie s t die d' ∧ d'.notices = d.notices.eraseIdx ix ∧
      d'.clock = d.clock.set n.writer (n.stamp.getD n.writer 0) ∧ { d' with notices := [], clock := [], copies := [] } =
        { d with notices := [], clock := [], copies := [] } ∧ ∀ q, d'.copies.get? q = (d.copies.get? q).map fun c =>
          match n.update with
          | some u => if q = n.sector ∧ c.seq < u.seq then u else c
          | none => c) ∧
    (¬ may → exec (.updateApply die ix) s = .next s)

/-- FLOOR_MESSAGE and FLOOR_POINT (R335): a die sets its copy and acknowledges; at the last acknowledgement the floor rises,
every version below it but the base goes, waiters are woken and the VFLOOR completes. -/
def FloorsRiseAtOnePoint : Prop :=
  (∀ s key die r, s.regions.get? key = some r → (∀ p ∈ r.pendFloors, die ∉ p.await) →
    ∃ t, exec (.floorMessage key die) s = .next t ∧ t = { s with regions := t.regions } ∧ ∀ q, t.regions.get? q = s.regions.get? q) ∧
  (∀ s key die r ix p, s.regions.get? key = some r → r.pendFloors[ix]? = some p → die ∈ p.await →
    (∀ q ∈ r.pendFloors.take ix, die ∉ q.await) →
    ∃ t r', exec (.floorMessage key die) s = .next t ∧ t = { s with regions := t.regions } ∧ t.regions.get? key = some r' ∧
      (∀ q, q ≠ key → t.regions.get? q = s.regions.get? q) ∧
      { r' with floorCopy := [], pendFloors := [] } = { r with floorCopy := [], pendFloors := [] } ∧
      r'.floorCopy.getD die 0 = max p.floor (r.floorCopy.getD die 0) ∧
      (∀ d, d ≠ die → r'.floorCopy.get? d = r.floorCopy.get? d) ∧
      r'.pendFloors = r.pendFloors.set ix { p with await := p.await.filter fun d => d != die }) ∧
  (∀ s key r, s.regions.get? key = some r → (∀ p ∈ r.pendFloors, p.await ≠ []) → exec (.floorPoint key) s = .next s) ∧
  ∀ s key r ix p, s.regions.get? key = some r → r.pendFloors[ix]? = some p → p.await = [] →
    (∀ q ∈ r.pendFloors.take ix, q.await ≠ []) →
    ∃ t r', exec (.floorPoint key) s = .next t ∧ t.mem = s.mem ∧ t.regions.get? key = some r' ∧
      (∀ q, q ≠ key → t.regions.get? q = s.regions.get? q) ∧ r'.pendFloors = r.pendFloors.eraseIdx ix ∧
      { r' with floor := 0, sectors := [], pendFloors := [] } = { r with floor := 0, sectors := [], pendFloors := [] } ∧
      r'.floor = max r.floor p.floor ∧ (p.floor ≤ r.floor → r'.sectors = r.sectors) ∧
      (r.floor < p.floor → (∀ q y, r.sectors.get? q = some y → ∃ z, r'.sectors.get? q = some z ∧ z.reserved = y.reserved ∧
          ∀ v, v ∈ z.vers ↔ v ∈ y.vers ∧ (p.floor ≤ v.n ∨ ∃ b, y.newest (fun m => decide (m < p.floor)) = some b ∧ v.n = b.n)) ∧
        ∀ sid wid w, s.weft? sid wid = some w → w.place ≠ .absent → w.versionWaits key none = true →
          ∃ w', t.weft? sid wid = some w' ∧ Woken w w') ∧
      ∀ w f fx, s.weft? p.sid p.wid = some w → w.flights[fx]? = some f → f.kind = .floor key →
        (∀ g ∈ w.flights.take fx, g.kind ≠ .floor key) → f.poison = none → (f.vwr.map fun x => x.1).Nodup →
        (f.swr.map fun x => x.1).Nodup → ∃ w', t.weft? p.sid p.wid = some w' ∧ Landed w w' f fx

/-- LAUNCH and GRAPH packets (R42, R348, R349, R353, R356, R357, R360, R396): a packet that breaks a rule stops its
queue; else head advances and the launch takes its number and its swatches, by bale, bolt and swatch, or the graph is
under way. A roll launch waits for the other members of its group: a refusal gives queue error 3, and accepted it has
the swatches of the bales whose die rank is its own (log 108). -/
def LaunchesAndGraphsStart : Prop :=
  (∀ s ctx q x c p d bs, PacketAt s ctx q x c p d bs → fieldAt bs 0 1 = 1 → fieldAt bs 0 4 / 512 = 0 →
    let i : Instr := .launchPacket ctx q
    let f := fieldAt bs
    let cs := withCores s (coreSet p (f 0x10 8))
    let ok := zeroOutside bs [(0, 4), (8, 32)] = true ∧ f 8 8 % 256 = 0 ∧ f 0x18 8 % 8 = 0 ∧ cs ≠ []
    (¬ ok → QueueStops s i ctx q d 2) ∧
    (∀ e, ok → s.fetchDadr ctx (f 0x18 8) = .error e → QueueStops s i ctx q d e) ∧
    (∀ a e, ok → s.fetchDadr ctx (f 0x18 8) = .ok a → s.fetchLRec ctx (f 8 8) = .error e → QueueStops s i ctx q d e) ∧
    (∀ a r, ok → s.fetchDadr ctx (f 0x18 8) = .ok a → s.fetchLRec ctx (f 8 8) = .ok r → InRoll s c.part p →
      ∃ t, exec i s = .next t ∧ t.mem = s.mem ∧ t.finishes = s.finishes ∧ t.launches = s.launches ∧
        t.queue? ctx q = some { x with aged := false, waited := 0, held := some (d.head, .members) }) ∧
    ∀ a r, ok → s.fetchDadr ctx (f 0x18 8) = .ok a → s.fetchLRec ctx (f 8 8) = .ok r → ¬ InRoll s c.part p →
      let nx := r.dims.1
      let ny := r.dims.2.1
      let dies := [0, 1, 2, 3].filter fun m => cs.any fun k => dieOfCluster k == m
      ∃ t l pg, PinsDadr s ctx (f 0x18 8) a pg ∧ exec i s = .next t ∧ Wrote s t (wordAt (d.at_ + 0x14) (d.head + 1)) ∧
        t.finishes = s.finishes ++ [⟨ctx, q, d.head, 1, (f 0 4).testBit 8, a, BitVec.ofNat 64 (f 0x20 8), pg⟩] ∧
        t.queue? ctx q = some { x with aged := false, waited := 0 } ∧ t.launches.get? s.nextLaunch = some l ∧ l.ctx = ctx ∧ l.part = c.part ∧
        l.num = BitVec.ofNat 32 p.launches ∧ l.lrec = f 8 8 ∧ l.origin = some (q, d.head) ∧ l.node = none ∧ l.coreset = cs ∧
        l.swatches = nx ∧ l.bolts = ny ∧ l.bales = r.dims.2.2 ∧ l.trapvec = BitVec.ofNat 32 r.trapvec ∧
        l.args = BitVec.ofNat 64 r.args ∧ l.left = nx * ny * r.dims.2.2 ∧ l.roll = none ∧ l.pool = [] ∧ l.bars = [] ∧ l.done = false ∧
        t.parts.get? c.part = some { p with launches := (p.launches + 1) % 2 ^ 32 } ∧ t.nextLaunch = s.nextLaunch + 1 ∧
        ∀ n, n < nx * ny * r.dims.2.2 → ∃ sw, t.swatch? (s.nextSid + n) = some sw ∧ sw.ctx = ctx ∧ sw.launch = s.nextLaunch ∧
          sw.place = .waiting ∧ sw.linear = n ∧ sw.swi = n % nx ∧ sw.boi = n / nx % ny ∧ sw.bai = n / nx / ny ∧
          (let on := cs.filter fun k => dieOfCluster k == dies.getD (sw.bai % dies.length) 0;
            sw.cluster = on.getD ((sw.bai / dies.length * ny + sw.boi) % on.length) 0) ∧
          sw.spsize = r.spad ∧ sw.accMap.length = r.acc ∧ sw.negMap.length = r.negs ∧ sw.barriers = r.barriers ∧
          sw.queues = r.queues ∧ sw.heavy = r.heavy ∧ sw.wefts.length = (r.declared.map fun y => y.2.2.2.2).sum ∧
          ∀ y ∈ sw.wefts, y.2.place = .absent ∧ y.2.started = false ∧ y.2.vregs = [] ∧ y.2.sregs = [] ∧ y.2.preds = []) ∧
  (∀ s ctx q num yes x c p d bs a r, s.agenda = [.rollVerdict ctx q num yes] → s.pkg.catches = [] → s.queue? ctx q = some x →
    x.held = some (d.head, .members) → s.ctx? ctx = some c → s.parts.get? c.part = some p → d = s.queueDesc c q → InMemory s d →
    s.readPacket ctx d d.head = .ok bs →
    let f := fieldAt bs
    let cs := withCores s (coreSet p (f 0x10 8))
    zeroOutside bs [(0, 4), (8, 32)] = true → f 8 8 % 256 = 0 → f 0x18 8 % 8 = 0 → cs ≠ [] →
    s.fetchDadr ctx (f 0x18 8) = .ok a → s.fetchLRec ctx (f 8 8) = .ok r →
    (yes = false → ∃ u, Wrote s u (wordAt (d.at_ + 0x20) (3 * 2 ^ 24) ++ wordAt (d.at_ + 0x24) d.head) ∧ u.launches = s.launches ∧
      u.queue? ctx q = some { x with held := none } ∧
      step s = .next (u.post { u.record 0x20 3 ctx (BitVec.ofNat 32 q) (BitVec.ofNat 32 d.head) 0 0 0 with queue := some q })) ∧
    ∀ roll, yes = true → s.rollOf c.part p (f 0x10 8) num r.dims.2.2 true = some roll →
      let nx := r.dims.1
      let ny := r.dims.2.1
      let dies := [0, 1, 2, 3].filter fun m => cs.any fun k => dieOfCluster k == m
      let own := fun (b : Nat) => roll.first ≤ b % roll.dies ∧ b % roll.dies < roll.first + dies.length
      ∃ t l, step s = .next t ∧ t.launches.get? s.nextLaunch = some l ∧ l.roll = some roll ∧ l.coreset = cs ∧ l.bales = r.dims.2.2 ∧
        roll.waits = p.ngrp - 1 ∧ t.queue? ctx q = some { x with held := none } ∧
        (∀ b, b < r.dims.2.2 → (b ∈ roll.away ↔ ¬ own b)) ∧
        ∀ n, n < nx * ny * r.dims.2.2 →
          (own (n / nx / ny) → ∃ sw, t.swatch? (s.nextSid + n) = some sw ∧ sw.linear = n ∧ sw.bai = n / nx / ny ∧ sw.launch = s.nextLaunch ∧
            (let on := cs.filter fun k => dieOfCluster k == dies.getD (sw.bai % roll.dies - roll.first) 0;
              sw.cluster = on.getD ((sw.bai / roll.dies * ny + n / nx % ny) % on.length) 0)) ∧
          (¬ own (n / nx / ny) → (t.swatch? (s.nextSid + n)).isSome = (s.swatch? (s.nextSid + n)).isSome)) ∧
  ∀ s ctx q x c p d bs, PacketAt s ctx q x c p d bs → fieldAt bs 0 1 = 2 → fieldAt bs 0 4 / 512 = 0 →
    let i : Instr := .graphPacket ctx q
    let f := fieldAt bs
    let n := f 0x20 1
    let starts := (List.range n).map fun j => f (0x10 + 2 * j) 2
    let ok := zeroOutside bs [(0, 4), (8, 8), (0x10, 17), (0x28, 24)] = true ∧ 1 ≤ n ∧ n ≤ 8 ∧ f 8 8 % 64 = 0 ∧
      f 0x30 8 % 8 = 0 ∧ coreSet p (f 0x28 8) ≠ []
    (¬ ok → QueueStops s i ctx q d 2) ∧
    (∀ e, ok → s.fetchDadr ctx (f 0x30 8) = .error e → QueueStops s i ctx q d e) ∧
    (∀ a e, ok → s.fetchDadr ctx (f 0x30 8) = .ok a → s.reach ctx .atomic (f 8 8) = .error e → QueueStops s i ctx q d 5) ∧
    ∀ a pa, ok → s.fetchDadr ctx (f 0x30 8) = .ok a → s.reach ctx .atomic (f 8 8) = .ok pa →
      let nodes := (s.graphTable ctx (f 8 8) 40000000 starts []).1
      let whole := (s.graphTable ctx (f 8 8) 40000000 starts []).2 = true
      let ws := nodes.flatMap fun y => (List.range 2).map fun o => (y.2.pa + 10 + o, BitVec.ofNat 8 (y.2.npred / 2 ^ (8 * o)))
      Apart d.at_ ws → (∀ y ∈ ws, Writable s y.1) → ∃ v, Wrote s v ws ∧ v.finishes = s.finishes ∧ v.launches = s.launches ∧
        ((∃ j ∈ starts, 4096 ≤ j) → ¬ whole) ∧
        (¬ whole ∨ v.graphOk ctx nodes = false → QueueStopsAfter s i ctx q d 4 ws) ∧
        (whole → v.graphOk ctx nodes = true → (∀ j ∈ starts, ∀ y, nodes.get? j = some y → ∃ r, v.fetchLRec ctx y.lrec = .ok r) →
          ∃ t g pg, PinsDadr v ctx (f 0x30 8) a pg ∧ exec i s = .next t ∧ t.graphs.get? s.nextLaunch = some g ∧ g.ctx = ctx ∧ g.q = q ∧ g.idx = d.head ∧
            g.gtab = f 8 8 ∧ g.cmask = f 0x28 8 ∧ g.finished = [] ∧
            t.finishes = s.finishes ++ [⟨ctx, q, d.head, 2, (f 0 4).testBit 8, a, BitVec.ofNat 64 (f 0x38 8), pg⟩] ∧
            ∀ j ∈ g.started, ∃ lid l, t.launches.get? lid = some l ∧ l.node = some (s.nextLaunch, j))

/-- WAIT, SIGNAL, COPY, QBARRIER and FENCE packets (R348 to R350, R352): a condition that holds, a write or a copy
completes at once, or when another package's home has acknowledged what was written there; one that does not holds
the queue; a page that is not present parks it. -/
def PacketsWaitSignalCopyAndFence : Prop :=
  ∀ s ctx q x c p d bs, PacketAt s ctx q x c p d bs → fieldAt bs 0 4 / 512 = 0 →
    let f := fieldAt bs
    let evt := (f 0 4).testBit 8
    let addr := f 8 8
    (f 0 1 = 3 →
      let i : Instr := .waitPacket ctx q
      let ok := zeroOutside bs [(0, 4), (8, 16)] = true ∧ addr % 8 = 0
      (¬ ok → QueueStops s i ctx q d 2) ∧
      (ok → s.reach ctx .load addr = .error 0x08 → QueueParks s i ctx q x d addr) ∧
      (∀ e, ok → e ≠ 0x08 → s.reach ctx .load addr = .error e → QueueStops s i ctx q d 5) ∧
      ∀ pa, ok → s.reach ctx .load addr = .ok pa →
        (f 0x10 8 ≤ s.homeDword pa → PacketPasses s i ctx q x d 3 evt []) ∧
        (s.homeDword pa < f 0x10 8 → PacketHolds s i ctx q x d 3 evt (.word pa (f 0x10 8)))) ∧
    (f 0 1 = 4 →
      let i : Instr := .signalPacket ctx q
      let ok := zeroOutside bs [(0, 4), (8, 17)] = true ∧ addr % 8 = 0 ∧ f 0x18 1 < 2
      let acc : Acc := if f 0x18 1 = 1 then .atomic else .store
      (¬ ok → QueueStops s i ctx q d 2) ∧
      (ok → s.reach ctx acc addr = .error 0x08 → QueueParks s i ctx q x d addr) ∧
      (∀ e, ok → e ≠ 0x08 → s.reach ctx acc addr = .error e → QueueStops s i ctx q d 5) ∧
      (∀ pa, ok → s.reach ctx acc addr = .ok pa →
        let ws := dwordAt pa (if f 0x18 1 = 1 then s.homeDword pa + f 0x10 8 else f 0x10 8)
        Apart d.at_ ws → (∀ y ∈ ws, Writable s y.1) → PacketPasses s i ctx q x d 4 evt ws) ∧
      (∀ pa, ok → s.reach ctx acc addr = .ok pa → pkgOf pa ≠ s.pkg.fpkg → s.present (sectorOf pa) = true →
        (f 0x18 1 = 1 → PacketHolds s i ctx q x d 4 evt .acks) ∧
        (f 0x18 1 = 0 → Apart d.at_ (dwordAt pa (f 0x10 8)) → PacketHoldsAfter s i ctx q x d 4 evt .acks (dwordAt pa (f 0x10 8))))) ∧
    (f 0 1 = 5 →
      let i : Instr := .copyPacket ctx q
      let dst := f 0x10 8
      let len := f 0x18 8
      let ok := zeroOutside bs [(0, 4), (8, 24)] = true ∧ addr % 32 = 0 ∧ dst % 32 = 0 ∧ len % 32 = 0
      (¬ ok → QueueStops s i ctx q d 2) ∧
      (ok → (∃ n, n < len / 32 ∧ ((∃ e, s.reach ctx .load ((addr + 32 * n) % 2 ^ 64) = .error e) ∨
        ∃ e, s.reach ctx .store ((dst + 32 * n) % 2 ^ 64) = .error e)) → QueueStops s i ctx q d 5) ∧
      ∀ ps : List (Nat × Nat), ok → ps.length = len / 32 → (∀ n y, ps[n]? = some y →
          s.reach ctx .load ((addr + 32 * n) % 2 ^ 64) = .ok y.1 ∧ s.reach ctx .store ((dst + 32 * n) % 2 ^ 64) = .ok y.2) →
        let ws := ps.flatMap fun y => (List.range 32).map fun o => (y.2 + o, memByte s.mem (y.1 + o))
        Apart d.at_ ws → (∀ y ∈ ws, Writable s y.1) → (∀ y ∈ ps, ∀ o, o < 32 → ∀ z ∈ ws, z.1 ≠ y.1 + o) →
          PacketPasses s i ctx q x d 5 evt ws) ∧
    (f 0 1 = 6 →
      let i : Instr := .qbarrierPacket ctx q
      let n := f 0x28 1
      let ok := zeroOutside bs [(0, 4), (8, 8 * n), (0x28, 1)] = true ∧ 1 ≤ n ∧ n ≤ 4
      let pairs := (List.range n).map fun j => (f (8 + 8 * j) 4, f (12 + 8 * j) 4)
      let met := ∀ y ∈ pairs, ((s.queueDesc c y.1).done + 2 ^ 32 - y.2) % 2 ^ 32 < 2 ^ 31
      (¬ ok → QueueStops s i ctx q d 2) ∧ (ok → met → PacketPasses s i ctx q x d 6 evt []) ∧
      (ok → ¬ met → PacketHolds s i ctx q x d 6 evt (.counts pairs))) ∧
    (f 0 1 = 7 →
      let i : Instr := .fencePacket ctx q
      let ok := zeroOutside bs [(0, 4), (8, 1)] = true ∧ 4 ≤ f 8 1 ∧ f 8 1 ≤ 6
      let earlier := ∃ y ∈ s.finishes, y.ctx = ctx ∧ y.q = q
      (¬ ok → QueueStops s i ctx q d 2) ∧ (ok → earlier → PacketHolds s i ctx q x d 7 evt .earlier) ∧
      (ok → ¬ earlier → f 8 1 = 4 ∨ s.pkg.acked = true → PacketPasses s i ctx q x d 7 evt []) ∧
      (ok → ¬ earlier → f 8 1 ≠ 4 → s.pkg.acked = false → PacketHolds s i ctx q x d 7 evt .acks))

/-- A queue in error (R348, R351, R353): a queue that is not eligible starts nothing; reserved header bits, a bad type, a
tail too far ahead and a ring page that is not reached stop it; a write of zero to ecode clears the error. QUEUE_AGING
and TAIL_WRITE (R347, R351, R352). -/
def QueuesStopAndResume : Prop :=
  (∀ s ctx q x, s.queue? ctx q = some x → s.eligible x = false → ∀ i ∈ [Instr.launchPacket ctx q, .graphPacket ctx q,
    .waitPacket ctx q, .signalPacket ctx q, .copyPacket ctx q, .qbarrierPacket ctx q, .fencePacket ctx q], exec i s = .next s) ∧
  (∀ s ctx q x c p d bs n i, PacketAt s ctx q x c p d bs → (n, i) ∈ packetEvents ctx q →
    (fieldAt bs 0 1 = n → fieldAt bs 0 4 / 512 ≠ 0 → QueueStops s i ctx q d 2) ∧
    ((fieldAt bs 0 1 = 0 ∨ 7 < fieldAt bs 0 1) → n = 1 → QueueStops s i ctx q d 1)) ∧
  (∀ s ctx q x c d, s.queue? ctx q = some x → s.ctx? ctx = some c → d = s.queueDesc c q → s.eligible x = true → InMemory s d →
    (d.ring < (d.tail + 2 ^ 32 - d.head) % 2 ^ 32 → QueueStops s (.launchPacket ctx q) ctx q d 6) ∧
    (∀ e, (d.tail + 2 ^ 32 - d.head) % 2 ^ 32 ≤ d.ring → s.readPacket ctx d d.head = .error e →
      QueueStops s (.launchPacket ctx q) ctx q d 5) ∧
    ∀ p bs n i, (n, i) ∈ packetEvents ctx q → s.parts.get? c.part = some p → (d.tail + 2 ^ 32 - d.head) % 2 ^ 32 ≤ d.ring →
      s.readPacket ctx d d.head = .ok bs → s.packetNeeds x ⟨ctx, q, d, c.part, p, bs⟩ ≠ [] → (s.die (s.frontDie ctx)).notices = [] →
      s.pkg.nextTxn < 2 ^ 20 → ∃ t, exec i s = .next t ∧ Reads s t ctx q x d.head (s.packetNeeds x ⟨ctx, q, d, c.part, p, bs⟩)) ∧
  ∀ s ctx q x c d, s.queue? ctx q = some x → s.ctx? ctx = some c → d = s.queueDesc c q → InMemory s d →
    (∃ t, exec (.ecodeClear ctx q) s = .next t ∧ Wrote s t (wordAt (d.at_ + 0x20) 0)) ∧
    (∀ n, ∃ t, exec (.tailWrite ctx q n) s = .next t ∧ Wrote s t (wordAt (d.at_ + 0x10) n.toNat) ∧
      t.queue? ctx q = some { x with parked := false }) ∧
    ∃ t, exec (.queueAging ctx q) s = .next t ∧ t = { s with queues := t.queues } ∧
      t.queue? ctx q = some { x with aged := x.aged || (s.eligible x && decide (d.prio < 3 ∧ 1000000 ≤ x.waited)) }

/-- LAUNCH_COMPLETION, GRAPH_NODE_COMPLETION and WAIT_RETEST (R348 to R350, R352, R358, R360, R361): a launch whose
swatches and tasks are over completes its packet with dval's write and the done count; a node's end lowers its
successors' counts and launches what may start; a held packet completes once its condition holds. -/
def PacketsComplete : Prop :=
  (∀ s ctx q x c d i h f, s.queue? ctx q = some x → s.ctx? ctx = some c → d = s.queueDesc c q → InMemory s d → x.held = some (i, h) →
    s.finishes.find? (fun y => y.ctx == ctx && y.q == q && y.idx == i) = some f → f.dadr = none →
    (s.heldMet ctx h = true → ∃ u, Wrote s u (wordAt (d.at_ + 0x18) (d.done + 1)) ∧ u.queue? ctx q = some { x with held := none } ∧
      u.finishes = s.finishes.filter (fun y => !(y.ctx == ctx && y.q == q && y.idx == i)) ∧
      exec (.waitRetest ctx q) s = .next (withDone u f.evt f.kind ctx q i)) ∧
    (s.heldMet ctx h = false → (∀ pa v, h = .word pa v → pkgOf pa = s.pkg.fpkg ∨ s.readsOver x = false) →
      exec (.waitRetest ctx q) s = .next s) ∧
    ∀ pa v, s.heldMet ctx h = false → h = .word pa v → pkgOf pa ≠ s.pkg.fpkg → s.present (sectorOf pa) = true → s.readsOver x = true →
      s.pkg.nextTxn < 2 ^ 20 →
      ∃ t, exec (.waitRetest ctx q) s = .next t ∧ Reads s t ctx q x i [sectorOf pa]) ∧
  (∀ s lid l, s.launches.get? lid = some l →
    let finished := l.done = false ∧ l.left = 0 ∧ l.pool = [] ∧ l.liveTasks = 0 ∧ ∀ r, l.roll = some r → r.waits = 0
    (¬ finished → exec (.launchCompletion lid) s = .next s) ∧
    (finished → l.origin = none → l.node = none → l.roll ≠ none → ∃ u : State, u.mem = s.mem ∧ u.launches = s.launches.del lid ∧
      (∀ y ∈ u.swatches, y.2.launch ≠ lid) ∧ exec (.launchCompletion lid) s = .next u.startLaunches) ∧
    (finished → l.origin = none → l.node ≠ none ∨ l.roll = none → ∃ t, exec (.launchCompletion lid) s = .next t ∧ t = { s with launches := t.launches } ∧
      t.launches.get? lid = some { l with done := true } ∧ ∀ y, y ≠ lid → t.launches.get? y = s.launches.get? y) ∧
    ∀ q i x c d f, finished → l.origin = some (q, i) → s.queue? l.ctx q = some x → s.ctx? l.ctx = some c → d = s.queueDesc c q →
      InMemory s d → s.finishes.find? (fun y => y.ctx == l.ctx && y.q == q && y.idx == i) = some f →
      (∀ j h, x.held = some (j, h) → h ≠ .earlier ∧ j ≠ i) →
      let ws := (f.dadr.map fun a => dwordAt a f.dval.toNat).getD []
      Apart d.at_ ws → (∀ y ∈ ws, Writable s y.1) →
      ∃ u, Wrote s u (ws ++ wordAt (d.at_ + 0x18) (d.done + 1)) ∧ u.launches = s.launches.del lid ∧
        (∀ y ∈ u.swatches, y.2.launch ≠ lid) ∧
        u.finishes = s.finishes.filter (fun y => !(y.ctx == l.ctx && y.q == q && y.idx == i)) ∧ u.queue? l.ctx q = some x ∧
        exec (.launchCompletion lid) s = .next (withDone u f.evt f.kind l.ctx q i).startLaunches) ∧
  ∀ s run node g lid l, s.graphs.get? run = some g →
    s.launches.find? (fun y => y.2.node == some (run, node) && y.2.done) = some (lid, l) →
    let succ := ((s.graphNode g.ctx g.gtab node).map fun y => y.succ).getD []
    let last := ∀ j ∈ g.started, j ∈ g.finished ∨ j = node
    (succ = [] → ¬ last → ∃ t, exec (.graphNodeCompletion run node) s = .next t ∧ t.mem = s.mem ∧ t.launches.get? lid = none ∧
      t.graphs.get? run = some { g with finished := g.finished ++ [node] } ∧ ∀ y ∈ t.swatches, y.2.launch ≠ lid) ∧
    (∀ x c d f, succ = [] → last → s.queue? g.ctx g.q = some x → s.ctx? g.ctx = some c → d = s.queueDesc c g.q → InMemory s d →
      s.finishes.find? (fun y => y.ctx == g.ctx && y.q == g.q && y.idx == g.idx) = some f →
      (∀ j h, x.held = some (j, h) → h ≠ .earlier ∧ j ≠ g.idx) →
      let ws := (f.dadr.map fun a => dwordAt a f.dval.toNat).getD []
      Apart d.at_ ws → (∀ y ∈ ws, Writable s y.1) →
      ∃ u, Wrote s u (ws ++ wordAt (d.at_ + 0x18) (d.done + 1)) ∧ u.graphs.get? run = none ∧ u.launches.get? lid = none ∧
        u.finishes = s.finishes.filter (fun y => !(y.ctx == g.ctx && y.q == g.q && y.idx == g.idx)) ∧
        exec (.graphNodeCompletion run node) s = .next (withDone u f.evt f.kind g.ctx g.q g.idx)) ∧
    ∀ j n c p, succ = [(false, j)] → s.graphNode g.ctx g.gtab j = some n → s.ctx? g.ctx = some c → s.parts.get? c.part = some p →
      Writable s (n.pa + 10) → Writable s (n.pa + 11) → j ∉ g.started → g.edgeMet j = true → lid < s.nextLaunch →
      ∃ t u, exec (.graphNodeCompletion run node) s = .next t ∧ t.launches.get? lid = none ∧
        Wrote s u ((List.range 2).map fun o => (n.pa + 10 + o, BitVec.ofNat 8 ((s.nodeCount n - 1) / 2 ^ (8 * o)))) ∧
        ∀ n' r, u.graphNode g.ctx g.gtab j = some n' → u.nodeCount n' = 0 → u.fetchLRec g.ctx n'.lrec = .ok r →
          ∃ k, t.launches.get? u.nextLaunch = some k ∧ k.node = some (run, j) ∧ k.lrec = n'.lrec ∧
            k.coreset = withCores u (coreSet p g.cmask) ∧ k.left = r.dims.1 * r.dims.2.1 * r.dims.2.2

/-- GOVERNOR_EVALUATION and CAP_EVALUATION (R285, R286, R378): the windows move on, a step that cannot end in time is a
risk, once, with the trap pending in its owner and the kind-2 record; the cluster relocks to the highest wanted step when
it is above the current one, two steps or more below it, or the cap is. -/
def GovernorAndCap : Prop :=
  (∀ s cl, (s.cluster cl).clock ≠ .running → exec (.governorEvaluation cl) s = .next s) ∧
  (∀ s cl, (s.cluster cl).clock = .running →
    let c := s.cluster cl
    let cap := min c.fsw s.pkg.fctl
    (∃ i, i < 87 ∧ cap = 300 + 25 * i) → (c.deadlines.map fun d => d.1).Nodup → (∀ d ∈ c.deadlines, d.1 < 2 ^ 32) →
    let opens := c.deadlines.filter fun d => d.2.opened
    let fresh := c.deadlines.filter fun d => newRisk d.2 s.tim cap
    let target := if opens.isEmpty then min c.fdefault cap else (opens.map fun d => wanted d.2 s.tim cap).foldl max 0
    let moves := c.fcur < target ∨ target + 50 ≤ c.fcur ∨ cap < c.fcur
    let f := min target cap
    ∃ t c', exec (.governorEvaluation cl) s = .next t ∧ t.cluster cl = c' ∧ t.mem = s.mem ∧
      (moves → c'.clock = .relock f ∧ c'.stopAt = s.tim ∧
        c'.volt = if c.fcur < f then (c.vf.getD ((f - 300) / 25) 0).toNat else c.volt) ∧
      (¬ moves → c'.clock = .running ∧ c'.volt = c.volt) ∧ c'.fcur = c.fcur ∧ c'.accounts = c.accounts ∧
      (∀ n d, c.deadlines.get? n = some d → ∃ e, c'.deadlines.get? n = some e ∧ e.log = (d.log.filter fun x => decide (s.tim < x.stop + 10000)) ∧
        e.risk = (d.risk || newRisk d s.tim cap) ∧ e.rho = (if d.opened = false then d.rho
          else if 1024 ≤ (windowOf d s.tim).1 ∧ 0 < (windowOf d s.tim).2 then some (windowOf d s.tim) else none) ∧
        { e with log := [], risk := false, rho := none } = { d with log := [], risk := false, rho := none }) ∧
      (c.evq.length + fresh.length ≤ 512 → c'.evq = c.evq ++ fresh.map fun d => ⟨2, 0, BitVec.ofNat 32 d.1, d.2.n,
        BitVec.ofNat 32 (((d.2.owner.bind fun o => s.swatch? o.1).map fun sw => sw.swi).getD 0)⟩) ∧
      ∀ x ∈ fresh, ∀ sid wid w, x.2.owner = some (sid, wid) → s.weft? sid wid = some w → w.ended = false →
        (∀ y ∈ fresh, y.2.owner = some (sid, wid) → y = x) →
        ∃ w', t.weft? sid wid = some w' ∧ w'.pend = { w.pend with deadlineRisk := w.pend.deadlineRisk ++ [x.2.n] }) ∧
  ∀ s watts, ∃ t, exec (.capEvaluation watts) s = .next t ∧ OnlyPkg s t { s.pkg with
    ppower := watts % 65536
    fctl := if s.pkg.plimit < watts then
        max 300 (s.pkg.fctl - 25 * max 1 (100 * (watts - s.pkg.plimit) / s.pkg.plimit / 2))
      else if 100 * watts < 95 * s.pkg.plimit then min 2450 (s.pkg.fctl + 25) else s.pkg.fctl }

/-- The clock's stops and the energy period (R276, R277, R292, R293): a droop stops the clock; at the restart a
relock's step and voltage hold, what fell due is taken and nothing that counts cluster cycles has moved; a period's
static estimate is shared by residency with no charge lost. BALLAST_INTERVAL (R281, R282, R294): a fall of the
estimated current by more than 4 A is made up by fillers, charged to the departing context (log 104). -/
def ClockStopsAndEnergyPeriods : Prop :=
  (∀ s cl, let c := s.cluster cl
    ∃ t, exec (.droopThrottle cl) s = .next t ∧
      OneCluster s t cl (if c.clock = .running then { c with clock := .throttle, stopAt := s.tim } else c)) ∧
  (∀ s cl ticks, (s.cluster cl).clock = .running → exec (.clockRestart cl ticks) s = .next s) ∧
  (∀ s cl ticks, (s.cluster cl).clock ≠ .running →
    let c := s.cluster cl
    let now := s.tim / 10
    let periods := now / 100 - (now - ticks) / 100
    ∃ u c', OneCluster s u cl c' ∧
      exec (.clockRestart cl ticks) s = (if now / 200 = (now - ticks) / 200 then .next u else exec (.governorEvaluation cl) u) ∧
      c'.clock = .running ∧ c'.clk = c.clk ∧ c'.deadlines = c.deadlines ∧ c'.evq = c.evq ∧ c'.gating = c.gating ∧
      c'.idleTicks = (if s.clusterIdle cl then c.idleTicks + ticks else 0) ∧ (c.clock = .throttle → c'.fcur = c.fcur ∧ c'.volt = c.volt) ∧
      (∀ f, c.clock = .relock f → c'.fcur = f ∧ c'.volt = (c.vf.getD ((f - 300) / 25) 0).toNat) ∧
      (periods = 0 → c'.accounts = c.accounts ∧ c'.unattr = c.unattr ∧ c'.resid = c.resid) ∧
      (0 < periods → s.residents cl = [] → c.resid = [] → c'.accounts = c.accounts ∧ c'.resid = [] ∧
        c'.unattr = (c.unattr + periods * c.enstatic.toNat) % 2 ^ 64)) ∧
  (∀ s cl, (s.cluster cl).clock ≠ .running → ∃ t, exec (.energyPeriodEnd cl) s = .next t ∧ OneCluster s t cl (s.cluster cl)) ∧
  (∀ s cl, (s.cluster cl).clock = .running →
    let c := s.cluster cl
    let est := c.enstatic.toNat
    let total := (c.resid.map fun x => x.2).sum
    let share := fun (n : Nat) => est * n / total
    let bound := c.resid.filter fun x => c.accounts.any fun a => a.ctx.toNat == x.1
    (c.resid.map fun x => x.1).Nodup → (∀ x ∈ c.resid, x.1 < 2 ^ 32) →
    (∀ a ∈ c.accounts, a.count + est < 2 ^ 48) →
    ∃ t c', exec (.energyPeriodEnd cl) s = .next t ∧ OneCluster s t cl c' ∧ c'.resid = [] ∧
      { c' with resid := [], accounts := [], unattr := 0 } = { c with resid := [], accounts := [], unattr := 0 } ∧
      (total = 0 → c'.accounts = c.accounts ∧ c'.unattr = (c.unattr + est) % 2 ^ 64) ∧
      (0 < total → c'.accounts.map (fun a => (a.ctx, a.count, a.sat)) =
          c.accounts.map (fun a => (a.ctx, a.count + share (ticksOf c.resid a.ctx), a.sat)) ∧
        c'.unattr = (c.unattr + (est - (bound.map fun x => share x.2).sum)) % 2 ^ 64)) ∧
  ∀ s cl exposures,
    let c := s.cluster cl
    let b := c.ballast
    let real := (b.cur.map fun x => x.2).sum
    let falls := c.volt ≠ 0 ∧ b.mv ≠ 0 ∧ 4096 * c.volt * b.mv + 10 * real * b.mv < 10 * b.total * c.volt
    ∃ t c', exec (.ballastInterval cl exposures) s = .next t ∧ OneCluster s t cl c' ∧
      { c' with accounts := [], unattr := 0, ballast := b } = { c with accounts := [], unattr := 0 } ∧
      (¬ falls → c'.ballast = ⟨b.cur, [], real, c.volt, none⟩ ∧ c'.unattr = c.unattr ∧ ∀ a, a ∈ c'.accounts ↔
        ∃ b ∈ c.accounts, a = { b with ballast := false } ∧ ¬ (b.read = true ∧ s.ctxPlaced cl b.ctx = false)) ∧
      ∀ ctx, falls → b.departing = some ctx ∨ b.departing = none ∧ Departs b.prev b.cur ctx →
        ∃ x v q, x ≤ exposures ∧ q = x * c.weight 6 + v * c.weight 2 ∧ c'.ballast = ⟨b.cur, [], real + q, c.volt, some ctx⟩ ∧
          (c.weight 2 ≠ 0 → 10 * b.total * c.volt ≤ 4096 * c.volt * b.mv + 10 * (real + q) * b.mv) ∧
          c'.accounts.map (fun a => (a.ctx, a.ballast)) = c.accounts.map (fun a => (a.ctx, a.ctx == ctx)) ∧
          (∀ (n : Nat) (a b : Account), c.accounts[n]? = some a → c'.accounts[n]? = some b → b.count =
            if a.ctx ≠ ctx then a.count else if a.count + q < 2 ^ 48 then a.count + q else 2 ^ 48 - 1) ∧
          c'.unattr = if c.accounts.any fun a => a.ctx == ctx then c.unattr else (c.unattr + q) % 2 ^ 64

/-- GATING_START, GATING_COMPLETE and WAKE_COMPLETE (R278, R279): a cluster idle for 50 µs with no dispatch begins
gating, is off once it is complete, and wakes for a dispatch, whose swatch is placed 3 µs later. -/
def GatingStartsAndWakes : Prop :=
  (∀ s cl,
    let c := s.cluster cl
    let idle := (∀ p ∈ s.cores, clusterOfCore p.1 = cl → p.2.jobs = []) ∧
      ∀ p ∈ s.swatches, ∀ core, p.2.core? = some core → clusterOfCore core ≠ cl
    let due := c.gating = .on ∧ c.gateEn = true ∧ idle ∧ 5000 ≤ c.idleTicks ∧ s.dispatch? cl = none
    (due → ∃ t, exec (.gatingStart cl) s = .next t ∧ OneCluster s t cl { c with gating := .starting }) ∧
    (¬ due → exec (.gatingStart cl) s = .next s)) ∧
  (∀ s cl, let c := s.cluster cl
    ∃ t, exec (.gatingComplete cl) s = .next t ∧ OneCluster s t cl (if c.gating = .starting then { c with gating := .off } else c)) ∧
  ∀ s cl, let c := s.cluster cl
    ((∀ sid since, c.gating = .waking sid since → (s.tim + 2 ^ 64 - since) % 2 ^ 64 < 3000) → exec (.wakeComplete cl) s = .next s) ∧
    ∀ sid since, c.gating = .waking sid since → 3000 ≤ (s.tim + 2 ^ 64 - since) % 2 ^ 64 → ∃ u, OneCluster s u cl { c with gating := .on, idleTicks := 0 } ∧
      (u.dispatch? cl = none → exec (.wakeComplete cl) s = .next u) ∧
      ∀ x core, u.dispatch? cl = some (x, core) → exec (.wakeComplete cl) s = exec (.swatchPlacement x core) u

/-- EVPOP, EVQ_STATUS_CLEAR, CPGO and SPSIZE (R235, R264, R265): the head record leaves; ovf and lost are cleared; a
firmware job that passes every check of R265 takes its core's next place and number; spsize commits the setting that
spctx names. -/
def ControlCoreRegistersAct : Prop :=
  (∀ s cl, ∃ t, exec (.evpop cl) s = .next t ∧ OneCluster s t cl { s.cluster cl with evq := (s.cluster cl).evq.drop 1 }) ∧
  (∀ s cl, ∃ t, exec (.evqStatusClear cl) s = .next t ∧ OneCluster s t cl { s.cluster cl with evOvf := false, evLost := 0 }) ∧
  (∀ s cl,
    let c := s.cluster cl
    let n := c.cpLen.toNat
    let src := c.cpSrc.toNat
    let dst := c.cpDst.toNat
    let core := 6 * cl + c.cpCore.toNat
    let k := s.core core
    let ok := src % 32 = 0 ∧ dst % 32 = 0 ∧ src < 2 ^ 60 ∧ dst < 2 ^ 60 ∧ n ≠ 0 ∧ n % 32 = 0 ∧ c.cpCore.toNat ≤ 5 ∧
      s.pkg.fclus.testBit cl = false ∧ (s.pkg.fcore.getD cl 0).testBit c.cpCore.toNat = false ∧ (src + n ≤ dst ∨ dst + n ≤ src)
    (ok → k.jobs.length < 32 → ∃ t j, exec (.cpgo cl) s = .next t ∧ t.core core = { k with
        jobs := k.jobs ++ [j], fwJobs := (k.fwJobs + 1) % 2 ^ 32 } ∧ j.kind = .firmware ∧ j.num = k.fwJobs ∧ j.src = src ∧
      j.dst = dst ∧ j.bytes = n ∧ j.begun = false ∧ j.lines = 0 ∧ j.err = 0 ∧
      t.cluster cl = { c with cpJob := BitVec.ofNat 32 k.fwJobs, idleTicks := 0 } ∧ { t with cores := s.cores, clusters := s.clusters } = s) ∧
    ((¬ ok ∨ 32 ≤ k.jobs.length) → exec (.cpgo cl) s = .next s)) ∧
  ∀ s die pages, let ctx := (s.die die).spctx
    ((s.ctx? ctx = none ∨ s.frontDie ctx ≠ die) → exec (.spsize die pages) s = .next s) ∧
    ∀ c, s.ctx? ctx = some c → s.frontDie ctx = die → ∃ t, exec (.spsize die pages) s = .next t ∧
      t.ctx? ctx = some { c with
        spBase := (c.spHi.getD (BitVec.ofNat 32 (c.spBase / 2 ^ 32))).toNat * 2 ^ 32 + (c.spLo.getD (BitVec.ofNat 32 c.spBase)).toNat
        spPages := pages.toNat, spLo := none, spHi := none } ∧
      (∀ y, y ≠ ctx → t.ctx? y = s.ctx? y) ∧ t.mem = s.mem ∧ ∀ n, (t.core n).spillBlocked = false

/-- RESET_RELEASE, START_COMPLETE, WATCHDOG_EXPIRY, RAIL_FAULT (R379, R381 to R383): the counter rises at release;
what reason0 names is fenced; the first stage or unit that fails resets the package with its reason; three failed
starts bring up minimal mode; a full start that completes clears the counter and records 0x00, and the control cores
run. -/
def StartsAndTheirReasons : Prop :=
  (∀ s rep,
    let n := min (s.pkg.fsc + 1) 7
    let i : Instr := .resetRelease rep
    let r0 := lastReason s.pkg
    (∀ c k, stageReason s.pkg rep = some (c, k) → ∃ t, exec i s = .next t ∧ ResetWith s t (c + 256 * k) n) ∧
    (stageReason s.pkg rep = none → n < 3 →
      (∀ d, rep.dieFail = some d → d < 4 → (r0.1 = 4 → r0.2 % 4 ≠ d) → ∃ t, exec i s = .next t ∧ ResetWith s t (0x04 + 256 * d) n) ∧
      (∀ k, rep.dieFail = none → rep.d2dFail = some k → k < 6 → r0 ≠ (5, k) →
        ∃ t, exec i s = .next t ∧ ResetWith s t (0x05 + 256 * k) n) ∧
      (∀ d l, rep.dieFail = none → rep.d2dFail = none → rep.linkFail = some (d, l) → d < 4 → l < 24 → r0.1 ≠ 3 → r0.1 ≠ 4 →
        ∃ t, exec i s = .next t ∧ ResetWith s t (0x03 + 256 * (32 * d + l)) n) ∧
      (∀ k, rep.dieFail = none → rep.d2dFail = none → rep.linkFail = none → rep.portFail = some k → k < 48 → r0 ≠ (6, k) →
        ∃ t, exec i s = .next t ∧ ResetWith s t (0x06 + 256 * k) n)) ∧
    (stageReason s.pkg rep = none → rep.dieFail = none → rep.d2dFail = none → rep.linkFail = none → rep.portFail = none →
      ∃ t, exec i s = .next t ∧ t.pkg.boot = (if n < 3 then .starting else .startingMinimal) ∧ t.pkg.fsc = n ∧ t.pkg.reasons = s.pkg.reasons ∧
        t.pkg.fpkg = rep.pkg % 4096 ∧ t.pkg.routes = rep.routes ∧ t.swatches = [] ∧ t.ctxs = [] ∧ t.parts = [] ∧
        (∀ k, k < 4 → t.pkg.mrs.getD k [] =
          Config.shake256 (List.replicate 64 0 ++ Config.shake256 (s.pkg.flash.getD k []) 64) 64) ∧
        (n < 3 → r0.1 < 3 → t.pkg.fclus = 0 ∧ t.pkg.fport = 0 ∧ t.pkg.fd2d = 0 ∧
          (∀ p, rep.ports = [p] → p.1 < 48 → p.2 = 1 ∨ p.2 = 2 → (t.pkg.port p.1).up = true ∧ (t.pkg.port p.1).gen = p.2) ∧
          ∀ d l g, rep.links = [(d, l, g)] → d < 4 → l < 24 → 1 ≤ g → g ≤ 256 → (t.die d).links.get? l = some g) ∧
        (3 ≤ n → t.pkg.repl = true ∧ t.pkg.alerts = 1 ∧ t.pkg.fclus = 2 ^ 32 - 2 ∧ t.pkg.flink = [2 ^ 24 - 2, 2 ^ 24 - 1, 2 ^ 24 - 1, 2 ^ 24 - 1] ∧
          t.pkg.fport = 2 ^ 48 - 2 ∧ t.pkg.fd2d = 63)) ∧
    (stageReason s.pkg rep = none → 3 ≤ n → (rep.dieFail = some 0 ∨ rep.linkFail = some (0, 0) ∨ rep.portFail = some 0) →
      ∃ t, exec i s = .next t ∧ t.pkg.boot = .failed ∧ t.pkg.reasons = s.pkg.reasons ∧ t.pkg.fsc = n)) ∧
  (∀ s, s.pkg.boot ≠ .starting → s.pkg.boot ≠ .startingMinimal → exec .startComplete s = .next s) ∧
  (∀ s, s.pkg.boot = .starting ∨ s.pkg.boot = .startingMinimal → ∃ t, exec .startComplete s = .next t ∧ t.mem = s.mem ∧
    (s.pkg.boot = .starting → t.pkg.boot = .full ∧ t.pkg.minimal = false ∧ t.pkg.fsc = 0 ∧ t.pkg.reasons = 0 :: s.pkg.reasons.take 7 ∧
      t.pkg.repl = (s.pkg.repl && (s.pkg.fclus != 0 || s.pkg.fport != 0 || s.pkg.fd2d != 0 || s.pkg.flink.any (fun m => m != 0) ||
        s.pkg.fcore.any fun m => m != 0))) ∧
    (s.pkg.boot = .startingMinimal → t.pkg.boot = .minimal ∧ t.pkg.minimal = true ∧ t.pkg.repl = true ∧ t.pkg.fsc = s.pkg.fsc ∧
      t.pkg.reasons = s.pkg.reasons) ∧
    ∀ c, c < 32 → s.pkg.fclus.testBit c = false → ∃ sid sw w, t.swatch? sid = some sw ∧ sw.control = some c ∧
      t.weft? sid 0 = some w ∧ w.frontier = [⟨(s.cluster c).fwEntry, (s.cluster c).fwEntry, 0, 1, false⟩] ∧ w.vbud = 256 ∧
      w.sbud = 192 ∧ w.trapMode = false ∧ ∃ d, (t.cluster c).deadlines.get? 0 = some d ∧ d.opened = false) ∧
  (∀ s stage, (s.pkg.boot = .starting ∨ s.pkg.boot = .startingMinimal → 1 ≤ stage → stage ≤ 3 → ∃ t, exec (.watchdogExpiry stage) s = .next t ∧
      ResetWith s t (0x07 + 256 * stage) s.pkg.fsc) ∧
    (((s.pkg.boot ≠ .starting ∧ s.pkg.boot ≠ .startingMinimal) ∨ stage = 0 ∨ 3 < stage) → exec (.watchdogExpiry stage) s = .next s)) ∧
  ∀ s, ∃ t, exec .railFault s = .next t ∧ ResetWith s t 0x08 s.pkg.fsc

/-- UNIT_FENCE, CORRECTED_ERROR, CECNT_CLEAR, FSC_CLEAR, ATTESTATION_REPORT, STANDBY_POWER_LOSS (R375 to R377, R381,
R384 to R388): a fenced unit's mask bit is set, its swatches are saved first and replacement is asked for; a die that
two fenced links cut off goes with them; a count that passes cethr tells the control core; a report is signed over
the registers, the nonce and pkstat. -/
def FencesErrorsAndManagement : Prop :=
  (∀ s u, s.pkg.fencedAlready u = true → exec (.unitFence u) s = .next s) ∧
  (∀ s u, s.pkg.fencedAlready u = false → s.pkg.fcore.length = 32 → s.pkg.flink.length = 4 →
    (∀ k, u = .d2d k → ∀ d, d < 4 → dieCut (s.pkg.fd2d ||| 2 ^ k) d = false) →
    ∃ t, exec (.unitFence u) s = .next t ∧ FencedOne s.pkg t.pkg u ∧ t.pkg.repl = true ∧ t.pkg.alerts = s.pkg.alerts + 1 ∧
      (∃ w, t.pkg.sent = s.pkg.sent ++ w ++ [⟨(s.die (s.frontDie 0)).fhost.toNat, 0, true, s.pkg.fpkg, s.frontDie 0, false, 9, 0, 0,
        natBytes 4 2 ++ natBytes 4 0 ++ natBytes 8 s.tim⟩] ∧
        ((∀ sid sw core, s.swatch? sid = some sw → sw.core? = some core → ¬ takes u core) → w = [] ∧ t.mem = s.mem)) ∧
      (∀ sid sw core, s.swatch? sid = some sw → sw.core? = some core → takes u core → ∃ w, t.swatch? sid = some w ∧
        w.place = .saved true ∧ w.spad = sw.spad ∧ w.full = sw.full ∧ w.tiles = sw.tiles) ∧
      (∀ n, u = .port n → (t.pkg.port n).up = false ∧ (t.pkg.port n).fenced = true)) ∧
  (∀ s k d, s.pkg.fencedAlready (.d2d k) = false → d < 4 → dieCut (s.pkg.fd2d ||| 2 ^ k) d = true → s.pkg.flink.length = 4 →
    ∃ t, exec (.unitFence (.d2d k)) s = .next t ∧ t.pkg.fd2d = s.pkg.fd2d ||| 2 ^ k ∧
      (∀ i, i < 8 → t.pkg.fclus.testBit (8 * d + i) = true) ∧ ∀ l, l < 24 → (t.pkg.flink.getD d 0).testBit l = true) ∧
  (∀ s unit cl, 1 ≤ unit → unit ≤ 8 → s.pkg.cecnt.length = 8 →
    let old := s.pkg.cecnt.getD (unit - 1) 0
    let new := min (old + 1) (2 ^ 32 - 1)
    ∃ t, exec (.correctedError unit cl) s = .next t ∧ t.pkg = { s.pkg with cecnt := s.pkg.cecnt.set (unit - 1) new } ∧
      (s.pkg.cethr = 0 ∨ s.pkg.cethr < old ∨ new ≤ s.pkg.cethr → t = { s with pkg := t.pkg }) ∧
      (s.pkg.cethr ≠ 0 → old ≤ s.pkg.cethr → s.pkg.cethr < new → (s.cluster cl).evq.length < Config.eventQueue →
        ∃ c, t.cluster cl = c ∧ c = { s.cluster cl with evq := (s.cluster cl).evq ++ [⟨4, 0, 0, BitVec.ofNat 32 unit, BitVec.ofNat 32 new⟩] })) ∧
  (∀ s unit, (1 ≤ unit → unit ≤ 8 → ∃ t, exec (.cecntClear unit) s = .next t ∧
      OnlyPkg s t { s.pkg with cecnt := s.pkg.cecnt.set (unit - 1) 0 }) ∧
    ((unit = 0 ∨ 8 < unit) → exec (.cecntClear unit) s = .next s ∧ ∀ cl, exec (.correctedError unit cl) s = .next s)) ∧
  (∀ s, ∃ t, exec .fscClear s = .next t ∧ OnlyPkg s t { s.pkg with fsc := 0 }) ∧
  (∀ s, ∃ t, exec .standbyPowerLoss s = .next t ∧ OnlyPkg s t { s.pkg with fsc := 0, reasons := List.replicate 8 0 }) ∧
  ∀ s nonce, ∃ t, exec (.attestationReport nonce) s = .next t ∧
    let stat := (if s.pkg.repl then 2 ^ 31 else 0) + (if s.pkg.minimal then 2 ^ 30 else 0) + s.pkg.fsc % 8 * 2 ^ 27
    let body := s.pkg.mrs.flatten ++ nonce ++ natBytes 4 stat
    OnlyPkg s t { s.pkg with reports := s.pkg.reports ++ [body ++ Config.slhSign (Config.identityKey s.pkg.seed) body] }

/-- FLIT_RECEIVE, PORT_RETRAIN, PORT_TRAINED, FRETRY_CLEAR (R391 to R394): a port that carries no traffic takes
nothing; a flit of a wrong length, CRC or sequence number changes only the port, which counts and sends a nak with
the last good flit; an idle flit in order advances the port and frees what it acknowledges; a flit that holds one
whole message has that message's effect; retraining puts the port out of traffic and training puts it back at its
generation. -/
def FlitsArriveInOrder : Prop :=
  (∀ s i bs, (s.pkg.port i).carries = false → exec (.flitReceive i bs) s = .next s ∧ exec (.portRetrain i) s = .next s) ∧
  (∀ s i bs, (s.pkg.port i).carries = true → (s.pkg.port i).replay.length < 512 →
    (bs.length ≠ 128 ∨ (crc64 (bs.take 0x78)).toNat ≠ fieldAt bs 0x78 8 ∨ fieldAt bs 0 8 / 2 ^ 52 % 4096 ≠ (s.pkg.port i).expect) →
    let x := { s.pkg.port i with naks := min ((s.pkg.port i).naks + 1) (2 ^ 32 - 1) }
    ∃ t, exec (.flitReceive i bs) s = .next t ∧ OnlyPort s t i (sendsFlit x (flitOf x true 0 []))) ∧
  (∀ s i p nak, (s.pkg.port i).carries = true → p.sendSeq = (s.pkg.port i).expect → p.sendSeq < 4096 → s.pkg.sent = [] →
    let x := s.pkg.port i
    let ack := (p.expect + 4095) % 4096
    let after := fun (y : Port) => ∃ t, exec (.flitReceive i (flitOf p nak 0 [])) s = .next t ∧
      OnlyPort s t i (sendsFlit y (flitOf y false 0 []))
    (nak = false → (x.replay = [] ∧ x.nakRun = 0 ∨ ∃ f, x.replay = [f] ∧ fieldAt f 0 8 / 2 ^ 52 % 4096 = ack) →
      after { x with expect := (p.sendSeq + 1) % 4096, replay := [], nakRun := 0 }) ∧
    (nak = true → x.replay.length < 512 → (∀ f ∈ x.replay, fieldAt f 0 8 / 2 ^ 52 % 4096 ≠ ack) → x.nakRun < 15 →
      after { x with expect := (p.sendSeq + 1) % 4096, wire := x.wire ++ x.replay, nakRun := x.nakRun + 1 }) ∧
    (nak = true → (∀ f ∈ x.replay, fieldAt f 0 8 / 2 ^ 52 % 4096 ≠ ack) → 15 ≤ x.nakRun →
      ∃ t, exec (.flitReceive i (flitOf p nak 0 [])) s = .next t ∧ (t.pkg.port i).up = false ∧ (t.pkg.port i).nakRun = 0 ∧
        (t.pkg.port i).retrains = min (x.retrains + 1) 65535)) ∧
  (∀ s i p m, (s.pkg.port i).carries = true → p.sendSeq = (s.pkg.port i).expect → p.sendSeq < 4096 → FitsHeader m →
    m.body.length ≤ 96 → (s.pkg.port i).partial_ = [] → (s.pkg.port i).replay = [] → (s.pkg.port i).nakRun = 0 →
    (m.mkind = 4 ∨ m.mkind = 6) →
    ∃ t, exec (.flitReceive i (flitOf p false 1 (msgHeader m ++ m.body))) s = .next t ∧ Answered s t m ∧ t.mem = s.mem ∧
      (t.pkg.port i).expect = (p.sendSeq + 1) % 4096) ∧
  (∀ m, FitsHeader m → m.body.length ≤ 96 →
    parseMsgs 8 (msgHeader m ++ m.body ++ List.replicate (96 - m.body.length) 0) = ([m], [])) ∧
  (∀ s i, (s.pkg.port i).carries = true → (16 ≤ (s.pkg.port i).nakRun ∨ (s.pkg.port i).replay ≠ []) →
    ∃ t x, exec (.portRetrain i) s = .next t ∧ t.pkg.port i = x ∧ x.up = false ∧ x.gen = 0 ∧ x.nakRun = 0 ∧
      x.retrains = min ((s.pkg.port i).retrains + 1) 65535 ∧ x.expect = (s.pkg.port i).expect ∧ t.mem = s.mem ∧
      ((∀ d r, (d, r) ∈ s.pkg.routes → i ∉ r) → x.replay = (s.pkg.port i).replay)) ∧
  (∀ s i g, i < 48 → g = 1 ∨ g = 2 → (s.pkg.port i).fenced = false → ∃ t, exec (.portTrained i g) s = .next t ∧
    OnlyPort s t i { s.pkg.port i with up := true, gen := g, wire := (s.pkg.port i).wire ++ (s.pkg.port i).replay }) ∧
  (∀ s i g, (48 ≤ i ∨ g = 0 ∨ 2 < g ∨ (s.pkg.port i).fenced = true) → exec (.portTrained i g) s = .next s) ∧
  ∀ s die, ∃ t, exec (.fretryClear die) s = .next t ∧
    OnlyPort s t (s.die die).fpsel.toNat { s.pkg.port (s.die die).fpsel.toNat with naks := 0 }

/-- The messages at their destination (R249, R256, R258, R325, R338, R391, R395): a read and an atomic are answered under the
request's tag, a write and an atomic take effect at the home, a host's atomic only reads there at first where the page is no
system page (R255), an answer closes its request and reaches the access that waits for it; arrivals, wakes, collectives'
sources, floor acknowledgements and migrated state reach what they name. Their bodies are the model's (log 16). -/
def MessagesTakeEffectAtTheirDestination : Prop :=
  (∀ s m, pkgOf m.addr = s.pkg.fpkg → ∃ t, exec (.msgRead m) s = .next t ∧ OnlyPkg s t { s.pkg with sent := s.pkg.sent ++
    [replyTo s m 2 ((List.range 32).map (fun j => memByte s.mem (sectorOf m.addr + j)) ++
      [if s.bad.contains (sectorOf m.addr) || !s.present (sectorOf m.addr) then 1 else 0])] }) ∧
  (∀ s m, pkgOf m.addr ≠ s.pkg.fpkg → exec (.msgRead m) s = .next s ∧ exec (.msgWrite m) s = .next s ∧ exec (.msgAtomic m) s = .next s) ∧
  (∀ s m, ∃ t, exec (.msgReadData m) s = .next t ∧ Answered s t m ∧
    (pkgOf m.addr = s.pkg.fpkg ∨ ¬ Asked s m 1 → OnlyPkg s t { s.pkg with unacked := t.pkg.unacked }) ∧
    (pkgOf m.addr ≠ s.pkg.fpkg → 33 ≤ m.body.length → Asked s m 1 →
      Delivered s t m.txn (m.body.take 32, decide (fieldAt m.body 32 1 ≠ 0)) ∧
      Wrote s t ((List.range 32).map fun j => (sectorOf m.addr + j, m.body.getD j 0)) ∧
      (sectorOf m.addr ∈ t.bad ↔ fieldAt m.body 32 1 ≠ 0) ∧ ∀ x, x ≠ sectorOf m.addr → (x ∈ t.bad ↔ x ∈ s.bad))) ∧
  (∀ s m, pkgOf m.addr = s.pkg.fpkg → m.body ≠ [] →
    let out := (List.range m.body.length).map fun j => (m.addr + j, m.body.getD j 0)
    (∀ p ∈ out, Writable s p.1) →
    ∃ t, exec (.msgWrite m) s = .next t ∧ Wrote s t out ∧ t.pkg.sent = s.pkg.sent ++ [replyTo s m 4 []]) ∧
  (∀ s m, (∃ t, exec (.msgWriteAck m) s = .next t ∧ Answered s t m ∧ OnlyPkg s t { s.pkg with unacked := t.pkg.unacked }) ∧
    ∃ t, exec (.msgAtomicResult m) s = .next t ∧ Answered s t m ∧ t.mem = s.mem ∧
      (¬ Asked s m 5 → OnlyPkg s t { s.pkg with unacked := t.pkg.unacked }) ∧
      ∀ bs f, m.body = bs ++ [f] → Asked s m 5 → Delivered s t m.txn (bs, decide (f ≠ 0))) ∧
  (∀ s m n, pkgOf m.addr = s.pkg.fpkg → (n = 4 ∨ n = 8) → fieldAt m.body 1 1 = n → m.addr % n = 0 →
    (∀ j, j < n → Writable s (m.addr + j)) →
    let old := leSum ((List.range n).map fun j => memByte s.mem (m.addr + j))
    let x := fieldAt m.body 8 n
    let op := fieldAt m.body 0 1
    let new := if op = 0 then (old + x) % 2 ^ (8 * n) else if op = 5 then old &&& x else if op = 6 then old ||| x
      else if op = 7 then old ^^^ x else if op = 3 then min old x else if op = 4 then max old x else if op = 8 then x
      else if old = fieldAt m.body 16 n then x else old
    let bad := sectorOf m.addr ∈ s.bad
    op ∈ [0, 3, 4, 5, 6, 7, 8, 12] →
    (bad → ∃ t, exec (.msgAtomic m) s = .next t ∧
      OnlyPkg s t { s.pkg with sent := s.pkg.sent ++ [replyTo s m 6 (natBytes n old ++ [1])] }) ∧
    (¬ bad → m.sh = false ∨ s.systemPage m.addr = true →
      ∃ t, exec (.msgAtomic m) s = .next t ∧ Wrote s t ((List.range n).map fun j => (m.addr + j, (natBytes n new).getD j 0)) ∧
        t.pkg.sent = s.pkg.sent ++ [replyTo s m 6 (natBytes n old ++ [0])]) ∧
    (¬ bad → m.sh = true → s.systemPage m.addr = false → ∃ t v, exec (.msgAtomic m) s = .next t ∧
      OnlyPkg s t { s.pkg with hostRmw := s.pkg.hostRmw ++ [⟨m, old, v⟩] } ∧ (v = some new ∨ v = none ∧ op = 12 ∧ new = old))) ∧
  (∀ s m lid sid sw, s.launchOf (fieldAt m.body 0 4) (fieldAt m.body 4 4) = some (lid, sid, sw) → sw.launch = lid →
    s.swatch? sid = some sw →
    let n := fieldAt m.body 8 4 % 32
    (∀ r', arriveAt (s.barRec sid sw .rl n) (fieldAt m.body 12 4) (s.unitsDeclared sw .rl) (s.unitsLive sid sw .rl)
        (fieldAt m.body 16 4) = .ok r' →
      ∃ t u, exec (.msgBarrierArrival m) s = .next t ∧ t.mem = s.mem ∧ t.swatch? sid = some u ∧ t.barRec sid u .rl n = r') ∧
    ∀ core, sw.core? = some core → ∃ t u, exec (.msgWake m) s = .next t ∧ t.mem = s.mem ∧ t.swatch? sid = some u ∧
      (t.barRec sid u .rl n).phase = fieldAt m.body 12 4 ∧ (t.barRec sid u .rl n).arrived = 0 ∧
      (t.core core).wakeMsgs = (s.core core).wakeMsgs ++ [⟨.rl, n, fieldAt m.body 12 4, lid, 0⟩]) ∧
  (∀ s m, s.launchOf (fieldAt m.body 0 4) (fieldAt m.body 4 4) = none →
    exec (.msgBarrierArrival m) s = .next s ∧ exec (.msgWake m) s = .next s) ∧
  (∀ s m, let mine := fun (x : CollMail) => x.key == fieldAt m.body 0 4 && x.issue == fieldAt m.body 4 4 && x.pkg == m.spkg
    let old := s.pkg.collMail.find? mine
    let data := (old.map fun x => x.data).getD []
    ∃ t x, exec (.msgCollective m) s = .next t ∧ OnlyPkg s t { s.pkg with collMail := t.pkg.collMail } ∧
      t.pkg.collMail.find? mine = some x ∧ (∀ y, mine y = false → (y ∈ t.pkg.collMail ↔ y ∈ s.pkg.collMail)) ∧
      (fieldAt m.body 8 1 = 0 → x.verdict = some (fieldAt m.body 9 1, BitVec.ofNat 32 (fieldAt m.body 10 4)) ∧ x.data = data) ∧
      (fieldAt m.body 8 1 ≠ 0 → x.verdict = (old.bind fun y => y.verdict) ∧ x.data = data ++ m.body.drop 9)) ∧
  (∀ s m r, s.regions.get? (fieldAt m.body 0 4) = some r →
    let from_ := if m.spkg = s.pkg.fpkg then m.sdie else 4 * (m.spkg + 1) + m.sdie
    (fieldAt m.body 4 1 = 0 → exec (.msgVersionControl m) s = exec (.floorMessage (fieldAt m.body 0 4) from_) s) ∧
    (fieldAt m.body 4 1 = 1 → ∃ t r', exec (.msgVersionControl m) s = .next t ∧ t = { s with regions := t.regions } ∧
      t.regions.get? (fieldAt m.body 0 4) = some r' ∧ (r.die = from_ ∨ from_ ∈ r.sharers → r' = r) ∧
      (r.die ≠ from_ → from_ ∉ r.sharers → (∀ d, d ∈ r'.sharers ↔ d ∈ r.sharers ∨ d = from_) ∧ r'.floorCopy.get? from_ = some r.floor ∧
        (r'.broadcast = true ↔ r.broadcast = true ∨ 64 ≤ r.sharers.length) ∧
        r'.pendFloors.map (fun p => p.floor) = r.pendFloors.map (fun p => p.floor) ∧ (∀ p ∈ r'.pendFloors, from_ ∈ p.await) ∧
        { r' with sharers := [], broadcast := false, floorCopy := [], pendFloors := [] } =
          { r with sharers := [], broadcast := false, floorCopy := [], pendFloors := [] })) ∧
    (1 < fieldAt m.body 4 1 → ∃ t r', exec (.msgVersionControl m) s = .next t ∧ t.mem = s.mem ∧
      t.pkg.sent = s.pkg.sent ++ [replyTo s m 11 (natBytes 4 (fieldAt m.body 0 4) ++ [0])] ∧
      t.regions.get? (fieldAt m.body 0 4) = some r' ∧ { r' with floorCopy := [] } = { r with floorCopy := [] } ∧
      (4 ≤ r.die → r.die / 4 - 1 = m.spkg →
        r'.floorCopy.get? m.ddie = some (max (fieldAt m.body 5 4) (r.floorCopy.getD m.ddie 0))))) ∧
  ∀ s m, (fieldAt m.body 0 1 ≠ 1 → ∃ t, exec (.msgMigration m) s = .next t ∧ OnlyPkg s t { s.pkg with arrived := s.pkg.arrived ++ [m] }) ∧
    (fieldAt m.body 0 1 = 1 → s.pkg.fwd.length < 64 → ∃ t, exec (.msgMigration m) s = .next t ∧
      t.pkg.forward m.spkg = fieldAt m.body 1 2 ∧ ∀ n, n ≠ m.spkg → t.pkg.forward n = s.pkg.forward n) ∧
    (fieldAt m.body 0 1 = 1 → 64 ≤ s.pkg.fwd.length → exec (.msgMigration m) s = .next s)

/-- MXFER, MCTL and MIGRATION_DONE (R394, R405 to R407): reserved bits change nothing; go starts the final transfer of the
partition that the die serves, with status 1 while a core of it runs and 2 for a destination that no route reaches; track
follows bit 0; at the destination every context gets a record of kind 0x27 and the host an interrupt of cause 3, and with
status 0 what has arrived stands there, cores by index in their shadow stores, physical addresses of the source package
rebased; a partition that does not suit it gives status 3. Members of collectives in prepare are told where the source's
number leads (R408). -/
def MigrationTransfersAPartition : Prop :=
  (∀ s die v, nbits v.toNat 30 29 ≠ 0 ∨ nbits v.toNat 23 12 ≠ 0 → exec (.mxfer die v) s = .next s) ∧
  (∀ s die (v : Word), nbits v.toNat 30 29 = 0 → nbits v.toNat 23 12 = 0 → v.getLsbD 31 = false →
    ∃ t, exec (.mxfer die v) s = .next t ∧ OneDie s t die { s.die die with mig := { (s.die die).mig with xfer := v } }) ∧
  (∀ s die (v : Word) part p, nbits v.toNat 30 29 = 0 → nbits v.toNat 23 12 = 0 → v.getLsbD 31 = true →
    s.servedPart die = some (part, p) →
    let dest := v.toNat % 4096
    let running := ∃ c ∈ s.partCores p, (s.core c).stopped = false
    let away := dest ≠ s.pkg.fpkg ∧ s.pkg.reaches dest = false
    ∃ t x, exec (.mxfer die v) s = .next t ∧ t.pkg.transfers = s.pkg.transfers ++ [x] ∧ t.mem = s.mem ∧ t.swatches = s.swatches ∧
      (t.die die).mig.xfer = v &&& 0x7FFFFFFF ∧
      (∃ ms, t.pkg.sent = s.pkg.sent ++ ⟨dest, die, false, s.pkg.fpkg, die, false, 12, 0, 0, [0, BitVec.ofNat 8 x.status] ++ natBytes 4 x.dpart⟩ :: ms ∧
        ∀ n, (∃ y ∈ ms, y.dpkg = n) ↔ n ≠ s.pkg.fpkg ∧ ∃ d ∈ x.colls, ∃ c ∈ d.2, c.phase = .prepare ∧ n ∈ c.members) ∧ x.dpkg = dest ∧ x.dpart = nbits v.toNat 28 24 ∧ x.part = part ∧
      (running → x.status = 1 ∧ x.swatches = [] ∧ x.regions = []) ∧ (¬ running → away → x.status = 2 ∧ x.swatches = []) ∧
      (¬ running → ¬ away → x.status = 0 ∧ x.spill = (s.ctxsOf part).map (fun c => (c.1, (c.2.spBase, c.2.spPages))) ∧ (∀ y, y ∈ x.regions ↔ y ∈ s.regions ∧ y.2.part = part) ∧
        (∀ y, y ∈ x.launches ↔ y ∈ s.launches ∧ y.2.part = part) ∧ x.clusters = clustersOf p.clusters ∧ x.active = s.outgoing p (s.partCores p) ∧ ∀ y, y ∈ x.cores ↔ y ∈ s.cores ∧ y.1 ∈ s.partCores p)) ∧
  (∀ s die (v : Word), (v.toNat < 2 → ∃ t, exec (.mctl die v) s = .next t ∧
      OneDie s t die { s.die die with mig := { (s.die die).mig with track := v.getLsbD 0 } }) ∧
    (2 ≤ v.toNat → exec (.mctl die v) s = .next s)) ∧
  (∀ s die st, (∀ m ∈ s.pkg.arrived, m.ddie ≠ die) → exec (.migrationDone die st) s = .next s) ∧
  (∀ s die st m c, s.pkg.arrived = [m] → m.ddie = die → s.ctxsOf (fieldAt m.body 2 4) = [c] → s.pkg.landed.get? die = none →
    let u := { s with pkg := { s.pkg with arrived := [] } }
    let ctx : Word := BitVec.ofNat 32 c.1
    let rec_ := u.record 0x27 (st % 4) ctx (BitVec.ofNat 32 m.spkg) (BitVec.ofNat 32 (fieldAt m.body 2 4)) 0 0 0
    ∃ t, exec (.migrationDone die st) s = .next t ∧ t.pkg.arrived = [] ∧ t.mem = (u.post rec_).mem ∧ t.dies = (u.post rec_).dies ∧
      ∃ y, t.pkg.sent.getLast? = some y ∧ y.mkind = 9 ∧ y.dh = true ∧ y.body = natBytes 4 3 ++ natBytes 4 (c.1 % 2 ^ 32) ++ natBytes 8 s.tim) ∧
  ∀ s die m x, s.pkg.arrived = [m] → m.ddie = die → s.pkg.landed.get? die = some x → s.ctxsOf (fieldAt m.body 2 4) = [] →
    let part := fieldAt m.body 2 4
    let ends := fun (t : State) => exec (.migrationDone die 0) s = .next t ∧ t.pkg.arrived = [] ∧ t.pkg.landed.get? die = none
    (¬ Suits s part x → ∃ t, ends t ∧ t = { s with pkg := t.pkg }) ∧
    ∀ p, Suits s part x → s.parts.get? part = some p →
      (x.swatches.map fun y => y.1).Nodup → (x.launches.map fun y => y.1).Nodup → (∀ y ∈ x.regions, y.1 / 64 = x.part) →
      (x.regions.map fun y => y.1).Nodup →
      let core := fun (c : Nat) => 6 * (clustersOf p.clusters).getD (x.clusters.findIdx fun k => k == c / 6) 0 + c % 6
      let pa := fun (a : Nat) => if pkgOf a = x.spkg then a % 2 ^ 48 + s.pkg.fpkg * 2 ^ 48 else a
      ∃ t, ends t ∧ t.mem = s.mem ∧ (∀ c ∈ s.partCores p, (t.core c).shadow = x.active) ∧
        (∀ n sw, x.swatches.get? n = some sw → ∃ u, t.swatch? (s.nextSid + n) = some u ∧ u.ctx = sw.ctx ∧
          u.launch = s.nextLaunch + sw.launch ∧ u.spad = sw.spad ∧ u.full = sw.full ∧ u.bars = sw.bars ∧ u.tiles = sw.tiles ∧ u.negs = sw.negs ∧
          (∀ c r, sw.place = .placed c r → u.place = .shadow (core c) r) ∧
          ∀ wid w, sw.wefts.get? wid = some w → ∃ w', t.weft? (s.nextSid + n) wid = some w' ∧ w'.vregs = w.vregs ∧ w'.sregs = w.sregs ∧
            w'.preds = w.preds ∧ w'.flags = w.flags ∧ w'.frontier = w.frontier ∧ w'.trec = w.trec ∧ w'.wait.isSome = w.wait.isSome) ∧
        (∀ n l, x.launches.get? n = some l → ∃ k, t.launches.get? (s.nextLaunch + n) = some k ∧ k.part = part ∧ k.bars = l.bars ∧
          k.parts = l.parts ∧ k.left = l.left ∧ k.num = l.num ∧ k.origin = l.origin) ∧
        (∀ n r, x.regions.get? (64 * x.part + n) = some r → n < 64 → ∃ r', t.regions.get? (64 * part + n) = some r' ∧ r'.dir = pa r.dir ∧
          r'.pool = pa r.pool ∧ r'.sectors = r.sectors ∧ r'.floor = r.floor ∧ r'.vbase = r.vbase) ∧
        ∀ f ∈ x.finishes, ∃ y ∈ t.finishes, y.ctx = f.ctx ∧ y.q = f.q ∧ y.idx = f.idx ∧ y.dval = f.dval ∧ y.dadr = f.dadr.map pa

end Sys2Proof.Claim

open Sys2Proof.Claim

/-- Integer arithmetic, its unary operations and the moves: every form completes with the result of its rule, in the active lanes, and
nothing else moves. An operation without .sat wraps, one with .sat delivers the nearest end and sets sat, and no other fstat bit is set (R51). -/
def Obligations.IntegerResults : Prop :=
  IntegerArithmeticDeliversExactResultModuloOrSaturated ∧ UnaryIntegerResults ∧ SelectAddressAndMoveResults

/-- Logic, shifts, bit fields and the immediate forms: their results, with the frame (see its parts). -/
def Obligations.LogicShiftAndImmediateResults : Prop :=
  LogicAndShiftResults ∧ BitFieldResults ∧ ImmediateResults

/-- ICMP, ICMPI and the predicate logic set one predicate in the active lanes (R80, R84), and V2P all eight
(R85); no register, no fstat bit and nothing else moves. -/
def Obligations.PredicateResults : Prop :=
  (∀ s i k p f, Issues s i k → predRow k i = some (p, f) →
    ∃ t w, exec i s = .next t ∧ OnlyWeft s t k w ∧ w.rest = k.w.rest ∧ RegsKept k i w ∧
      w.fstat = k.w.fstat ∧ PredResult k w p f) ∧
  ∀ s a k, Issues s (.v2p a) k →
    ∃ t w, exec (.v2p a) s = .next t ∧ OnlyWeft s t k w ∧ w.rest = k.w.rest ∧ RegsKept k (.v2p a) w ∧
      w.fstat = k.w.fstat ∧ ∀ p, p < 8 → ∀ l, l < 32 → (w.pred p).getLsbD l =
        if k.act.getLsbD l then (k.val a l).getLsbD p else (k.w.pred p).getLsbD l

/-- Floating-point arithmetic, the special functions and the complex and compensated operations complete with the result of their rules and
nothing else moves; the cases of a NaN, an infinity and a zero; FMIN and FMAX as R59 says. -/
def Obligations.FloatResults : Prop :=
  FloatResultsElementByElement ∧ SpecialComplexAndCompensatedResults ∧ FloatSpecialCases

/-- FCVT: destination element i is the conversion of source element i, elements numbered across registers from the
low end; the lo and hi FP4 forms keep the other half of d (R91, R92). -/
def Obligations.ConversionKeepsElementOrder : Prop :=
  ∀ s d a x r sat k, Issues s (.fcvt d a x r sat) k →
    ∃ t w, exec (.fcvt d a x r sat) s = .next t ∧ OnlyWeft s t k w ∧ w.rest = k.w.rest ∧ w.preds = k.w.preds ∧
      RegsKept k (.fcvt d a x r sat) w ∧
      (∀ b, b < 6 → w.fstat.getLsbD b = (k.w.fstat.getLsbD b || (k.lanesFor d).any fun l =>
        (List.range (convShape x).2.2.1).any fun e => (convElement x r sat
          (((List.range x.shape.1).map fun j => (k.word a j l).toNat * 2 ^ (32 * j)).sum /
            2 ^ ((convShape x).1 * ((convShape x).2.2.2 + e)) % 2 ^ (convShape x).1)).2.getLsbD b)) ∧
      ∀ l, l ∈ k.lanesFor d →
        let group := fun (f : Nat → Word) (n : Nat) => ((List.range n).map fun j => (f j).toNat * 2 ^ (32 * j)).sum
        let src := group (fun j => k.word a j l) x.shape.1
        let dst := group (fun j => k.after w d j l) x.shape.2
        let sh := convShape x
        let up := if x = .e2m1x4hiF32x4 then 4 else 0
        (∀ e, e < sh.2.2.1 → dst / 2 ^ (sh.2.1 * (up + e)) % 2 ^ sh.2.1 =
          (convElement x r sat (src / 2 ^ (sh.1 * (sh.2.2.2 + e)) % 2 ^ sh.1)).1 % 2 ^ sh.2.1) ∧
        (x = .e2m1x4loF32x4 → dst / 65536 = (k.val d.toSrc l).toNat / 65536) ∧
        (x = .e2m1x4hiF32x4 → dst % 65536 = (k.val d.toSrc l).toNat % 65536)

/-- For every state and operands in which it issues, FCMP (constructor fcmp) completes (exec answers a next state)
with the truth of its condition in the active lanes of pN: the order of the real numbers with −0 equal to +0, a NaN
unordered; nv for a signalling NaN under every condition and for a quiet one under lt, le, gt and ge (R58, R90); no
other fstat bit, no other predicate, no register and nothing else moves. -/
def Obligations.FloatComparison : Prop :=
  ∀ s p a b w64 c k, Issues s (.fcmp p a b w64 c) k →
    let x := fun (o : Src) (l : Nat) => if w64 then fp64.unpack (k.f64 o l) else fp32.unpack (k.val o l).toNat
    ∃ t w, exec (.fcmp p a b w64 c) s = .next t ∧ OnlyWeft s t k w ∧ w.rest = k.w.rest ∧
      RegsKept k (.fcmp p a b w64 c) w ∧
      (∀ l, l < 32 → k.act.getLsbD l = true → ((w.pred p.val).getLsbD l = true ↔ Holds c (x a l) (x b l))) ∧
      (∀ l, l < 32 → k.act.getLsbD l = false → (w.pred p.val).getLsbD l = (k.w.pred p.val).getLsbD l) ∧
      (∀ q, q ≠ p.val → w.pred q = k.w.pred q) ∧
      (w.fstat.getLsbD 4 = true ↔ k.w.fstat.getLsbD 4 = true ∨ ∃ l ∈ lanesOf k.act, Invalid c (x a l) (x b l)) ∧
      ∀ n, n < 6 → n ≠ 4 → w.fstat.getLsbD n = k.w.fstat.getLsbD n

/-- Rounding a magnitude m·2^e to a multiple of 2^q, in each mode (R56): nearest with ties to even, toward zero,
down, up; inexact exactly where the delivered multiple differs. -/
def Obligations.RoundingModesRoundAsNamed : Prop :=
  ∀ rm neg (m sh : Nat) (e q : Int), q - e = sh →
    let r := roundAt rm neg m e q
    let n := r.1 * 2 ^ sh
    (r.2 = true ↔ n ≠ m) ∧ n < m + 2 ^ sh ∧ m < n + 2 ^ sh ∧
    (rm = .rz → n ≤ m) ∧ (rm = .rd → if neg then m ≤ n else n ≤ m) ∧ (rm = .ru → if neg then n ≤ m else m ≤ n) ∧
    (rm = .rn → 2 * n ≤ 2 * m + 2 ^ sh ∧ 2 * m ≤ 2 * n + 2 ^ sh ∧
      ((2 * n = 2 * m + 2 ^ sh ∨ 2 * m = 2 * n + 2 ^ sh) → 0 < sh → r.1 % 2 = 0))

/-- Operands (R23, R26, R27, R46, R50, R112): a register through the window, the lane's own word of a vector and the
one word of a scalar; 0 where nothing is allocated; a literal in every lane, sign-extended as a 64-bit operand or
zero-extended under .u; the odd register high; and each special source. -/
def Obligations.OperandForms : Prop :=
  ∀ (s : State) (k : Site), s.site? = some k → ∀ l j,
    (∀ (n : VReg) x, k.w.vregs.get? (16 * k.w.vwin + n.val + j) = some (.live x) → k.word (.v n) j l = laneAt x l) ∧
    (∀ (n : Fin 48) x, k.w.sregs.get? (16 * k.w.swin + n.val + j) = some (.live x) → k.word (.s n) j l = x) ∧
    (∀ (n : VReg), k.w.allocated (.v (16 * k.w.vwin + n.val + j)) = false → l < 32 → k.word (.v n) j l = 0) ∧
    (∀ (n : Fin 48), k.w.allocated (.s (16 * k.w.swin + n.val + j)) = false → k.word (.s n) j l = 0) ∧
    (∀ x, k.word (.lit x) j l = x ∧ k.dword (.lit x) false l = x.signExtend 64 ∧
      k.dword (.lit x) true l = x.setWidth 64) ∧
    (∀ (a : Src) u, a.isLit = false → k.dword a u l = k.word a 1 l ++ k.word a 0 l) ∧
    k.val (.sp .z) l = 0 ∧ k.val (.sp .lid) l = BitVec.ofNat 32 l ∧
    k.val (.sp .wid) l = (if k.w.task.isSome then BitVec.allOnes 32 else BitVec.ofNat 32 k.wid) ∧
    k.val (.sp .nwf) l = BitVec.ofNat 32 k.sw.nwf ∧ k.val (.sp .swi) l = BitVec.ofNat 32 k.sw.swi ∧
    k.val (.sp .boi) l = BitVec.ofNat 32 k.sw.boi ∧ k.val (.sp .bai) l = BitVec.ofNat 32 k.sw.bai ∧
    k.val (.sp .amask) l = k.e.mask ∧ k.val (.sp .clk) l = BitVec.ofNat 32 (s.cluster k.clu).clk ∧
    k.val (.sp .tim) l = BitVec.ofNat 32 s.tim ∧ k.val (.sp .ctx) l = k.sw.ctx ∧
    (∀ x, s.launches.get? k.sw.launch = some x → k.sw.control = none →
      k.dword (.sp .lrec) false l = BitVec.ofNat 64 x.lrec ∧
      k.dword (.sp .targ) false l = match k.w.task with
        | some args => args.getD l 0
        | none => x.args)

/-- SHFL, SCAN, REDW, MATCH, LGET, PRMT, VOTE, ELECT and LSET: results over the active lanes, with the frame (see its parts). -/
def Obligations.LaneExchangeAndVotes : Prop :=
  LaneExchangeResults ∧ VoteAndElectPredicates ∧ LsetWritesOneActiveLane

/-- Branches, CALL and JMPI move every lane to its target and regroup, or trap before any lane moves (see its parts). -/
def Obligations.BranchesAndBadTargets : Prop :=
  BranchesMoveEveryLaneToItsTarget ∧ BadTargetTrapsBeforeAnyLaneMoves

/-- YIELD, EXIT, NOP, WINB, IPREF, and where an entry goes after its word (see its parts). -/
def Obligations.EndsOfWordsAndClauses : Prop :=
  YieldFallsThroughAndGivesUpItsClaim ∧ ExitRemovesLanes ∧ EntryGoesToTheNextWord ∧ WindowsAndPrefetch

/-- TRAP enters the handler with its record; a second precise trap in trap mode halts the weft (see its parts). -/
def Obligations.SoftwareTrapsAndSecondTraps : Prop :=
  TrapTakesTheSoftwareTrap ∧ SecondTrapHaltsTheWeft

/-- The traps that a word meets at its own issue, in the order of R35 (R15, R19, R21, R31 to R35, R161): zero word, set
slot, illegal instruction, privileged, role; and then a freed or poisoned source (R112, R122), but of PREF and CCTL
(R153, R274). -/
def Obligations.TrapOrderOfOneWord : Prop :=
  ∀ s i k, Stands s k →
    let word := BitVec.ofNat 32 i.wordNat
    let slotBad := ∃ b, i.use.slot = some b ∧ slotFlag k.cl.h0 b = none
    (∀ w, i = .illegalInstruction w → (w = 0 → Traps s i k ⟨0x02, k.act, 0, w, 0⟩) ∧
      (w ≠ 0 → (∃ b, wordSlot w.toNat = some b ∧ slotFlag k.cl.h0 b = none) → Traps s i k ⟨0x1A, k.act, 0, k.cl.h0, 0⟩) ∧
      (w ≠ 0 → (∀ b, wordSlot w.toNat = some b → slotFlag k.cl.h0 b ≠ none) → Traps s i k ⟨0x01, k.act, 0, w, 0⟩)) ∧
    (i.hasEncoding = true →
      (slotBad → Traps s i k ⟨0x1A, k.act, 0, k.cl.h0, 0⟩) ∧
      (¬ slotBad → i.wellFormed = false → Traps s i k ⟨0x01, k.act, 0, word, 0⟩) ∧
      (¬ slotBad → i.wellFormed = true → k.stateIllegal i = true → Traps s i k ⟨0x01, k.act, 0, word, 0⟩) ∧
      (¬ slotBad → i.wellFormed = true → k.stateIllegal i = false →
        (i.privileged = true → k.sys = false → Traps s i k ⟨0x03, k.act, 0, word, 0⟩) ∧
        (i.trapOnly = true → Traps s i k ⟨0x03, k.act, 0, word, 0⟩) ∧
        (k.privilegeFault i = false → k.sw.control = none → rolePermits k.w.role i.op = false →
          Traps s i k ⟨0x07, k.act, 0, word, 0⟩)) ∧
      (i.op ≠ 0x5C → i.op ≠ 0x5D → k.staticTrap i = none → k.interlocked i = false →
        (∀ r, k.w.ctlfrt = true → (k.w.reads i.use).find? (fun r => k.w.isFreed r) = some r →
          Traps s i k ⟨0x05, k.act, 0, r.info, 0⟩) ∧
        (∀ p, (k.w.reads i.use).all (fun r => !k.w.isFreed r) = true →
          (k.w.reads i.use).findSome? (fun r => k.w.poisoned r) = some p →
          Traps s i k ⟨0x15, k.act &&& p.lanes, p.addr, p.pc, 0⟩)))

/-- ERET, FRENT, FRENT.lanes, FRSET.pc, .park and .unpark complete: they restore the interrupted code, read the snapshot, edit it (see its parts). -/
def Obligations.HandlersReadEditAndReturn : Prop :=
  EretRestoresTheInterruptedCode ∧ FrentReadsTheSnapshot ∧ FrsetEditsTheSnapshot

/-- CSRR writes the register's value, sampled at issue, to d (R32, R47, R107, R113, R115, R135): the trap record, the
weft's control registers and counters, and the registers of the cluster, the die and the package that hold what was
written. -/
def Obligations.CsrrReadsTheRegister : Prop :=
  ∀ s d c k, Issues s (.csrr d c) k →
    ∃ x, (∀ v, weftRegister k c.toNat = some v → x = v) ∧ (∀ v, unitRegister s k c.toNat = some v → x = v) ∧
      Completes s (.csrr d c) k ⟨d, 1, fun _ => [x], fun _ => 0⟩

/-- CSRW replaces the writable fields; unassigned, read-only and privileged numbers trap (see its parts). -/
def Obligations.CsrwAndAccessByRange : Prop :=
  CsrwReplacesTheRegister ∧ CsrAccessByRange

/-- LD, LDQ and LDACQ (R148, R151, R250, R267): where every address is canonical, aligned and mapped, the instruction
begins as a flight that carries, to each active lane, the bytes its core sees at its physical address, extended or
split into registers; the destination is poisoned exactly when a lane meets uncorrectable data (R122, R152); no byte
of memory and nothing but caches moves. While another package has not answered for a sector the word is held (R395). -/
def Obligations.LoadsCarryTheBytesTheirCoreSees : Prop :=
  ∀ (s : State) (i : Instr) (k : Site) x (p : Nat → Trans), Issues s i k → loadRow k i = some x →
    (∀ y ∈ k.accessLanes x.scalar x.addr, broken x.n y.2 = none ∧ Mapped s k .load y.2 (p y.1)) →
    let view := fun l => s.loadBytes k.core k.die k.w.away (p l).pa x.n x.atHome
    let waits := fun (l : Nat) => s.unanswered k.w.away (p l).pa x.n
    ((∃ y ∈ k.accessLanes x.scalar x.addr, waits y.1 ≠ []) → HeldBack s i k) ∧
    ((∀ y ∈ k.accessLanes x.scalar x.addr, waits y.1 = []) →
    ∃ t w f, exec i s = .next t ∧ CachesOnly s t k w ∧ OnlyFlight k w ∧ w.preds = k.w.preds ∧ w.fstat = k.w.fstat ∧
      Begins k i w f ∧ f.kind = .plain ∧ f.fst = 0 ∧
      (f.poison = none ↔ ∀ y ∈ k.accessLanes x.scalar x.addr, (view y.1).2.2 = none) ∧
      ((s.die k.die).notices = [] → Carries k w f x.d x.g fun l => x.words (view l).2.1))

/-- What a load's core sees (R248, R250, R318): the latest bytes of its write buffer, finished what it sent towards the home,
over the home's bytes, over its die's copy of a sector homed on another die, or over what another package's home has
answered (R395). -/
def Obligations.CoreSeesItsBufferThenTheHome : Prop :=
  ∀ (s : State) (core : Option Nat) die ans sec, sec % 32 = 0 →
    let r := (s.loadSector core die ans sec false).2.1
    let base := match (if pkgOf sec = s.pkg.fpkg ∧ dieOf sec ≠ die ∧ (s.homeRead sec).2 = false then
        (s.die die).copies.get? sec else none) with
      | some c => c.bytes
      | none => if pkgOf sec = s.pkg.fpkg then memBytes s.mem sec 32
        else ((readAnswer ans sec).map fun y => y.1).getD (List.replicate 32 0)
    (core = none → r = base) ∧
    (∀ c, core = some c → (∀ e ∈ (s.core c).wbuf, e.sector ≠ sec) → (∀ y ∈ (s.die die).out, ¬ (y.core = c ∧ y.sector = sec)) →
      r = base) ∧
    (∀ c e o b, core = some c → (s.core c).wbuf.find? (fun e => e.sector == sec) = some e → Tab.sorted e.bytes = true →
      base.length = 32 → o < 32 → e.bytes.get? o = some b → (∀ y ∈ (s.die die).out, y.core ≠ c) → r[o]? = some b)

/-- ST, STQ and STREL (R148, R151, R248, R267): where every address is canonical, aligned, mapped for writing and its
sector good, and a release has nothing to drain: each stored byte, the highest lane's where lanes overlap, stands in
the core's write buffer, or for STREL beyond swatch scope at the home; every other byte, in the buffer or in memory,
stands as it did; the flight only counts. STREL at .rl or .sy is held until
other packages have acknowledged earlier writes, and its flight stays until they have acknowledged its own (R249). -/
def Obligations.StoresWriteExactlyTheirBytes : Prop :=
  ∀ (s : State) (i : Instr) (k : Site) x (p : Nat → Trans), Issues s i k → storeRow k i = some x →
    let ls := k.accessLanes x.scalar x.addr
    let at_ := ls.map fun y => (y.1, (p y.1).pa)
    (∀ y ∈ ls, broken x.n y.2 = none ∧ Mapped s k .store y.2 (p y.1) ∧ s.bad.contains (sectorOf (p y.1).pa) = false) →
    OnePage ls p → (x.wide = true → Clear s k) →
    (x.far = true → s.pkg.acked = false → HeldBack s i k) ∧
    ((x.far = true → s.pkg.acked = true) →
    ∃ t w f, exec i s = .next t ∧ t.weft? k.sid k.wid = some w ∧ w.preds = k.w.preds ∧ w.fstat = k.w.fstat ∧
      Begins k i w f ∧ Plain { f with kind := .plain } ∧ f.kind = (if x.far then .acks else .plain) ∧
      (x.wide = false → ∀ c, k.core = some c → (s.core c).wbuf.length + 32 ≤ 64 → CachesOnly s t k w ∧ OnlyFlight k w ∧
        ∀ a, t.buffered k a = (storedByte k x.d x.n at_ a).or (s.buffered k a)) ∧
      (x.wide = true → ∀ c, k.core = some c → (s.core c).wbuf = [] → Settled s k (at_.map fun y => y.2) → s.mem.wf = true →
        (∀ a, memByte t.mem a = (storedByte k x.d x.n at_ a).getD (memByte s.mem a)) ∧ (t.core c).wbuf = []) ∧
      (k.core = none → Settled s k (at_.map fun y => y.2) → s.mem.wf = true →
        ∀ a, memByte t.mem a = (storedByte k x.d x.n at_ a).getD (memByte s.mem a)))

/-- ATOM, CAS and RED read, modify and write in lane order; .any touches only its words (how it combines is free, log 10) (see its parts). -/
def Obligations.AtomicsAndCombining : Prop :=
  AtomicsReadModifyWriteInLaneOrder ∧ CombiningReductionsTouchOnlyTheirWords

/-- The checks of R149 and R266 before any lane accesses: the lowest lane with a non-canonical or a misaligned address
fixes the cause; tlanes holds the active lanes that meet that cause, taddr that lane's address (R116, R117); nothing
is performed. So does a page that is not mapped or forbids the access, at the first group (R149, R314). -/
def Obligations.AddressFaultsPrecedeEveryAccess : Prop :=
  ∀ s i k x, Issues s i k → accessRow k i = some x → x.scalar = false →
    let ls := k.accessLanes false x.addr
    (∀ l a c, ls.find? (fun y => (broken x.n y.2).isSome) = some (l, a) → broken x.n a = some c →
      Traps s i k ⟨c, maskOf fun j => ls.any fun y => y.1 == j && meets x.n c y.2, a,
        if x.write then 1 else 0, 0⟩) ∧
    ((∀ y ∈ ls, broken x.n y.2 = none) → (∀ y, storeRow k i = some y → y.wide = false) →
      (∀ y, atomRow k i = some y → y.rel = false) →
      ∀ l a c, ls.head? = some (l, a) →
        (∀ e ∈ (s.cluster k.clu).tlb, e.covers k.sw.ctx (a.toNat % 2 ^ 57) = false) →
        (∀ n e, k.core = some n → e ∈ (s.core n).tlb → e.covers k.sw.ctx (a.toNat % 2 ^ 57) = false) →
        ∀ sh, ((s.walkPa k.sw.ctx a.toNat = .error c ∧ sh = 16) ∨
          (c = 0x09 ∧ ∃ y, s.walkPa k.sw.ctx a.toNat = .ok y ∧ y.shift = sh ∧ pageAdmits (accOf i) y.leaf = false)) →
        k.w.trapMode = false → ∃ t w, exec i s = .next t ∧ t.weft? k.sid k.wid = some w ∧ w.trapMode = true ∧
          w.trec.tcause = BitVec.ofNat 32 c ∧ w.trec.tpc = k.e.pc ∧ w.trec.taddr = a ∧
          w.trec.tlanes = (maskOf fun j => ls.any fun y => y.1 == j && y.2.toNat / 2 ^ sh == a.toNat / 2 ^ sh) ∧
          w.trec.tinfo = (if x.write then 1 else 0) ∧ t.mem = s.mem ∧ w.vregs = k.w.vregs ∧ w.sregs = k.w.sregs)

/-- FENCE drains and acquires; PREF and CCTL change no value (see its parts). -/
def Obligations.FencesPrefetchAndCacheControl : Prop :=
  FenceDrainsAndAcquires ∧ PrefetchAndCacheControlChangeNoValue

/-- WATCH and WATCH.clr change the watch set; WAITW delivers the fired entries or waits (see its parts). -/
def Obligations.WatchesAndWaitw : Prop :=
  WatchSet ∧ WaitwDeliversTheFiredEntries

/-- VLD (R333): where every lane finds its version, the flight carries that version's bytes; .nb sets p6 true; no byte of
memory moves. A lane of .eq whose version does not exist yet, at or above the floor, makes the weft wait; a lane whose
version cannot come raises the missing-version trap and nothing is written. -/
def Obligations.VersionedLoads : Prop :=
  ∀ (s : State) d a b f0 n le w64 (k : Site) (p : Nat → Trans) (key : Nat → Nat) (r : Nat → Region),
    let i : Instr := .vld d a b f0 n le w64
    let g := if w64 then 2 else 1
    Issues s i k →
    let ls := k.accessLanes (k.allScalar [d.toSrc, a, b]) (k.addr a)
    let ver := fun l => (k.val b l).toNat
    let x := fun (y : Nat × DWord) => versionsAt s (r y.1) y.2 (p y.1)
    (∀ y ∈ ls, InRegion s k .vload (4 * g) y.2 (p y.1) (key y.1) (r y.1)) →
    (∀ v : Nat → Version, (∀ y ∈ ls, returned (r y.1) (x y) le (ver y.1) = some (v y.1)) →
      ∃ t w f, exec i s = .next t ∧ t.weft? k.sid k.wid = some w ∧ OnlyFlight k w ∧ Begins k i w f ∧ f.kind = .plain ∧
        f.fst = 0 ∧ t.mem = s.mem ∧ (f.poison = none ↔ ∀ y ∈ ls, (v y.1).bad = false) ∧
        Carries k w f d g (fun l => wordsOf g (((v l).bytes.drop
          ((((ls.find? fun y => y.1 == l).map fun y => y.2.toNat).getD 0) % 32)).take (4 * g))) ∧
        (n = false → w.preds = k.w.preds) ∧
        (n = true → k.act ≠ 0 → ∀ l, l < 32 → k.act.getLsbD l = true → (w.pred 6).getLsbD l = true)) ∧
    (le = false → n = false → (∀ y ∈ ls, (r y.1).floor ≤ ver y.1) →
      (∃ y ∈ ls, ∀ v ∈ (x y).vers, v.n ≠ ver y.1) →
      ∃ t w y, exec i s = .next t ∧ t.weft? k.sid k.wid = some w ∧ w.wait = some y ∧ y.instr = i ∧ y.done = 0 ∧
        Reserves k i w ∧ t.mem = s.mem ∧ t.regions = s.regions) ∧
    ((∃ y ∈ ls, if le then ∀ v ∈ (x y).vers, ver y.1 < v.n else ver y.1 < (r y.1).floor) → k.w.trapMode = false →
      ∃ t w, exec i s = .next t ∧ t.weft? k.sid k.wid = some w ∧ w.trapMode = true ∧ w.trec.tcause = 0x0B ∧
        w.trec.tdone = k.e.mask &&& ~~~k.act ∧ w.vregs = k.w.vregs ∧ w.sregs = k.w.sregs ∧ t.mem = s.mem ∧
        t.regions = s.regions)

/-- VST of one group (R332): at or above the floor, not existing, with room in depth and pool, the version comes to exist
with the newest earlier version's bytes under the lanes' bytes; otherwise the version-exists trap, the wait of L = D, or
under .nb the group is not served; version 0xFFFFFFFF is the overflow trap. The release at .rl first awaits what other
packages have not acknowledged (R249). -/
def Obligations.VersionedStores : Prop :=
  ∀ (s : State) d a b f0 n w64 (k : Site) (p : Nat → Trans) key r sec ver,
    let i : Instr := .vst d a b f0 n w64
    let g := if w64 then 2 else 1
    Issues s i k →
    let scalar := k.allScalar [d.toSrc, a, b]
    let ls := k.accessLanes scalar (k.addr a)
    ls ≠ [] → (∀ y ∈ ls, InRegion s k .vstore (4 * g) y.2 (p y.1) key r ∧ (k.val b y.1).toNat = ver ∧
      sectorOf (y.2.toNat % 2 ^ 57) = sec ∧ (p y.1).pa = (p 0).pa / 32 * 32 + y.2.toNat % 32) →
    Clear s k → (s.pkg.acked = false → ver < 2 ^ 32 - 1 → HeldBack s i k) ∧ (s.pkg.acked = true →
    (s.die (dieOf (p 0).pa)).mig.track = false →
    let x := (r.sectors.get? sec).getD ⟨[s.versionZero r (p 0).pa], []⟩
    let old := (x.newest fun v => decide (v < ver)).getD ⟨0, List.replicate 32 0, false⟩
    let byte := fun o => storedByte k d.toSrc (4 * g) (ls.map fun y => (y.1, y.2.toNat % 32)) o
    let trapped := fun (t : State) (w : Weft) (c : Nat) => exec i s = .next t ∧ t.weft? k.sid k.wid = some w ∧
      w.trapMode = true ∧ w.trec.tcause = BitVec.ofNat 32 c ∧ t.regions = s.regions ∧ t.mem = s.mem
    (ver < 2 ^ 32 - 1 → r.floor ≤ ver → x.taken ver = false → x.live < r.depth → r.slotFree = true → old.bad = false →
      old.bytes.length = 32 →
      ∃ t w f r' x' bs, exec i s = .next t ∧ t.weft? k.sid k.wid = some w ∧ Begins k i w f ∧ Plain f ∧ t.mem = s.mem ∧
        t.regions.get? key = some r' ∧ { r' with sectors := [] } = { r with sectors := [] } ∧
        r'.sectors.get? sec = some x' ∧ x' = x.insert ⟨ver, bs, false⟩ ∧ bs.length = 32 ∧
        (∀ o, o < 32 → bs.getD o 0 = (byte o).getD (old.bytes.getD o 0)) ∧
        (∀ q, q ≠ sec → r'.sectors.get? q = r.sectors.get? q) ∧
        (∀ q, q ≠ key → t.regions.get? q = s.regions.get? q) ∧
        (n = false → w.preds = k.w.preds) ∧ (n = true → ∀ l, l < 32 → k.act.getLsbD l = true → (w.pred 6).getLsbD l = true)) ∧
    (ver < 2 ^ 32 - 1 → (ver < r.floor ∨ x.taken ver = true) → k.w.trapMode = false → ∃ t w, trapped t w 0x0C) ∧
    (ver = 2 ^ 32 - 1 → k.w.trapMode = false → ∃ t w, trapped t w 0x0D) ∧
    (ver < 2 ^ 32 - 1 → r.floor ≤ ver → x.taken ver = false → (r.depth ≤ x.live ∨ (n = true ∧ r.slotFree = false)) →
      ∃ t w, exec i s = .next t ∧ t.weft? k.sid k.wid = some w ∧ t.regions = s.regions ∧ t.mem = s.mem ∧
        (n = false → ∃ y, w.wait = some y ∧ y.instr = i ∧ y.done = 0) ∧
        (n = true → ∃ f, Begins k i w f ∧ Plain f ∧ (k.act ≠ 0 → ∀ l, l < 32 → k.act.getLsbD l = true → (w.pred 6).getLsbD l = false))))

/-- VFLOOR (R335): a floor that does not rise completes with no other effect; with no sharer but the home the floor
rises at once and every version below it but the base is reclaimed; with sharers it is sent to each of them, or of a
broadcast region to every die of the roll (R338), and the flight stays until the last acknowledgement. VQRY carries
head, floor, live count and base (R336). -/
def Obligations.FloorsAndQueries : Prop :=
  (∀ (s : State) a b f0 (k : Site) x key r va, Issues s (.vfloor a b f0) k →
    k.accessLanes true (k.addr a) = [va] → InRegion s k .vstore 1 va.2 x key r → Clear s k →
    (s.pkg.acked = false → HeldBack s (.vfloor a b f0) k) ∧ (s.pkg.acked = true →
    let n := (k.scalar b).toNat
    ∃ t w f, exec (.vfloor a b f0) s = .next t ∧ t.weft? k.sid k.wid = some w ∧ Begins k (.vfloor a b f0) w f ∧
      f.vwr = [] ∧ f.swr = [] ∧ f.poison = none ∧ w.preds = k.w.preds ∧
      (n ≤ r.floor → Plain f ∧ t.regions = s.regions) ∧
      (r.floor < n → s.regionDies r = [] → f.kind = .plain ∧ ∃ r', t.regions.get? key = some r' ∧
        { r' with floor := 0, sectors := [] } = { r with floor := 0, sectors := [] } ∧ r'.floor = n ∧
        ∀ q y, r.sectors.get? q = some y → ∃ z, r'.sectors.get? q = some z ∧ z.reserved = y.reserved ∧
          ∀ v, v ∈ z.vers ↔ v ∈ y.vers ∧ (n ≤ v.n ∨ ∃ b0, y.newest (fun m => decide (m < n)) = some b0 ∧ v.n = b0.n)) ∧
      (r.floor < n → s.regionDies r ≠ [] → f.kind = .floor key ∧ ∃ r' q, t.regions.get? key = some r' ∧
        r' = { r with pendFloors := r.pendFloors ++ [q] } ∧ q.floor = n ∧ q.sid = k.sid ∧ q.wid = k.wid ∧
        q.await = s.regionDies r))) ∧
  (∀ (s : State) (r : Region) d, d ∈ s.regionDies r ↔
    d ≠ r.die ∧ if r.broadcast then d ∈ s.rollDies r.part else d ∈ r.sharers) ∧
  ∀ (s : State) d a f0 (k : Site) (p : Nat → Trans) (key : Nat → Nat) (r : Nat → Region), Issues s (.vqry d a f0) k →
    let ls := k.accessLanes (k.allScalar [d.toSrc, a]) (k.addr a)
    (∀ y ∈ ls, InRegion s k .vload 1 y.2 (p y.1) (key y.1) (r y.1)) →
    ∃ t w f, exec (.vqry d a f0) s = .next t ∧ CachesOnly s t k w ∧ OnlyFlight k w ∧ Begins k (.vqry d a f0) w f ∧
      w.preds = k.w.preds ∧ f.kind = .plain ∧
      Carries k w f d 4 fun l =>
        let x := match ls.find? fun y => y.1 == l with
          | some y => versionsAt s (r l) y.2 (p l)
          | none => ⟨[], []⟩
        let top := (x.vers.map fun v => v.n).foldl max (x.reserved.foldl max 0)
        let base := if (r l).floor = 0 then 2 ^ 32 - 1
          else ((x.newest fun m => decide (m < (r l).floor)).map fun v => v.n).getD (2 ^ 32 - 1)
        [BitVec.ofNat 32 top, BitVec.ofNat 32 (r l).floor, BitVec.ofNat 32 (x.vers.length + x.reserved.length),
          BitVec.ofNat 32 base]

/-- VREG makes the checks of R329 in order; with status 0 the lowest free id names a record with floor 0, no sharer and every
sector at version 0 alone (R327 to R329); a failed one registers nothing (its id is a free value, log 14). VUNREG of an
id that names no region writes 1; a region on which an access is in flight holds it back;
otherwise the record is gone and 0 is written (R330). -/
def Obligations.RegionsComeAndGo : Prop :=
  (∀ (s : State) d a (k : Site) x va, Issues s (.vreg d a) k → k.accessLanes true (k.addr a) = [va] →
    broken 64 va.2 = none → Mapped s k .load va.2 x →
    let bs := (s.loadBytes k.core k.die k.w.away x.pa 64 false).2.1
    (s.loadBytes k.core k.die k.w.away x.pa 64 false).2.2 = none → s.pkg.fpkg = pkgOf x.pa →
    Clear s k →
    let part := s.partOfCtx k.sw.ctx
    let st := vregStatus s k part bs
    (st = 0 → s.pkg.acked = false → HeldBack s (.vreg d a) k) ∧ ((st = 0 → s.pkg.acked = true) →
    ∃ t w, exec (.vreg d a) s = .next t ∧ t.weft? k.sid k.wid = some w ∧ t.mem = s.mem ∧ w.preds = k.w.preds ∧
      RegsKept k (.vreg d a) w ∧ Advanced k (.vreg d a) w ∧ k.after w d 0 0 = BitVec.ofNat 32 st ∧
      (st ≠ 0 → t.regions = s.regions) ∧
      (st = 0 → ∀ id, id < 64 → s.regions.get? (64 * part + id) = none →
        (∀ j, j < id → (s.regions.get? (64 * part + j)).isSome = true) →
        k.after w d 1 0 = BitVec.ofNat 32 id ∧ ∃ r, t.regions.get? (64 * part + id) = some r ∧ r.part = part ∧ r.rid = id ∧
          r.vbase = leSum (bs.take 8) ∧ r.size = leSum ((bs.drop 8).take 8) ∧ r.depth = leSum ((bs.drop 0x11).take 1) ∧
          r.img = ((bs.getD 0x10 0).getLsbD 0) ∧ r.dir = leSum ((bs.drop 0x18).take 8) ∧ r.pool = leSum ((bs.drop 0x20).take 8) ∧
          r.pslots = leSum ((bs.drop 0x28).take 4) ∧ r.die = s.dieIdOf r.dir ∧ r.floor = 0 ∧ r.sectors = [] ∧ r.sharers = [] ∧
          r.pendFloors = [] ∧ ∀ q, q ≠ 64 * part + id → t.regions.get? q = s.regions.get? q))) ∧
  ∀ (s : State) d a (k : Site), Issues s (.vunreg d a) k → k.act ≠ 0 →
    let id := (k.scalar a).toNat
    let key := 64 * s.partOfCtx k.sw.ctx + id
    ((64 ≤ id ∨ s.regions.get? key = none) → ∃ t w, exec (.vunreg d a) s = .next t ∧ OnlyWeft s t k w ∧ w.rest = k.w.rest ∧
      RegsKept k (.vunreg d a) w ∧ k.after w d 0 0 = 1 ∧ Advanced k (.vunreg d a) w) ∧
    (id < 64 → ∀ r, s.regions.get? key = some r → (r.pendFloors ≠ [] ∨ ∃ y ∈ r.sectors, y.2.reserved ≠ []) →
      (∀ y ∈ s.regionWaiters key, (y.1, y.2.1) ≠ (k.sid, k.wid)) → HeldBack s (.vunreg d a) k) ∧
    (id < 64 → ∀ r, s.regions.get? key = some r → r.pendFloors = [] → (∀ y ∈ r.sectors, y.2.reserved = []) →
      (∀ y ∈ s.regionWaiters key, (y.1, y.2.1) ≠ (k.sid, k.wid)) →
      ∃ t w, exec (.vunreg d a) s = .next t ∧ t.weft? k.sid k.wid = some w ∧ k.after w d 0 0 = 0 ∧
        t.regions.get? key = none ∧ ∀ q, q ≠ key → t.regions.get? q = s.regions.get? q)

/-- LDS, STS and ATOMS: address checks, bytes moved under the full-empty modifiers, and the frame (see its parts). -/
def Obligations.ScratchpadAccesses : Prop :=
  ScratchpadAddressChecks ∧ ScratchpadLoadsAndStores ∧ ScratchpadAtomics

/-- FEGET, FESET, FECLR and FEWAIT (R184): the full bit of each lane's line; the lines of the pair forms become full or
empty, or are waited for; no byte and no other full bit moves. A count outside 1 to 256 or a range beyond spad raises
the protection trap. -/
def Obligations.FullBits : Prop :=
  (∀ s d a f0 k x, Issues s (.feget d a f0) k → spadRow k (.feget d a f0) = some x → SpadGood k x →
    ∃ t w f, exec (.feget d a f0) s = .next t ∧ OnlyWeft s t k w ∧ OnlyFlight k w ∧ Begins k (.feget d a f0) w f ∧
      f.kind = .plain ∧ f.poison = none ∧ w.preds = k.w.preds ∧ Carries k w f d 1 fun l =>
        [if (k.val a l).toNat / 128 ∈ k.sw.full then 1 else 0]) ∧
  ∀ s i k a f0, Issues s i k →
    (∀ b, i = (if b then .feset a f0 else .feclr a f0) → FeGood k a → ∃ t w f u, exec i s = .next t ∧
      OnlySwatch s t k w u ∧ OnlyFlight k w ∧ Begins k i w f ∧ Plain f ∧ w.preds = k.w.preds ∧
      { u with wefts := [], full := [], descFaults := [] } = { k.sw with wefts := [], full := [], descFaults := [] } ∧
      u.descFaults = (if b = true then filled k.sw.descFaults fun n => (feLanes k a).any fun l => (feRange k a l).contains n
        else k.sw.descFaults) ∧
      ∀ n, n ∈ u.full ↔ (if b = true then n ∈ k.sw.full ∨ feNames k a n else n ∈ k.sw.full ∧ ¬ feNames k a n)) ∧
    (∀ e, i = .fewait a f0 e → FeGood k a → (∀ f ∈ k.sw.descFaults, ∀ n ∈ f.lines, feNames k a n → n ∈ k.sw.full) →
      ((∀ n, feNames k a n → (n ∈ k.sw.full ↔ e = false)) → ∃ t w f, exec i s = .next t ∧ OnlyWeft s t k w ∧
        OnlyFlight k w ∧ Begins k i w f ∧ Plain f ∧ w.preds = k.w.preds) ∧
      ((∃ n, feNames k a n ∧ ¬ (n ∈ k.sw.full ↔ e = false)) → ∃ t w y, exec i s = .next t ∧ OnlyWeft s t k w ∧
        w.wait = some y ∧ y.instr = i ∧ (∃ ls, y.form = .fullEmpty ls (!e)) ∧ Reserves k i w)) ∧
    ((i = .feset a f0 ∨ i = .feclr a f0 ∨ ∃ e, i = .fewait a f0 e) → ¬ FeGood k a → k.w.trapMode = false →
      ∃ t w, exec i s = .next t ∧ OnlyWeft s t k w ∧ w.trapMode = true ∧ w.trec.tcause = 0x09 ∧ w.trec.tpc = k.e.pc)

/-- SPLOOK, SPTAG, SPTAG.inv, SPDESC and SPDESC.set complete with their results (see its parts). -/
def Obligations.TagsAndDescriptors : Prop :=
  TagTable ∧ ScratchpadDescriptors

/-- SHAPE makes a record or reports why not; UNSHAPE removes one; CTAB loads a code table (see its parts). -/
def Obligations.ShapesAndCodeTables : Prop :=
  ShapeRecords ∧ CodeTables

/-- CPYIN, CPYOUT, GATHER and STAGE issue jobs; CPYQ reads their status (see its parts). -/
def Obligations.CopyJobsAreIssuedAndQueried : Prop :=
  CopyJobsAreIssued ∧ CopyJobStatus

/-- BAR, BARA, BARW and BARQ: counts, phases, waits and their traps, within the swatch and above it (see its parts). -/
def Obligations.Barriers : Prop :=
  SwatchBarriers ∧ WiderBarriersCountWithinTheUnit

/-- QPUSH, QPOP, QPEEK and QLEN (R30, R200, R201): each row of R201's table; a number at or above the launch's queues raises
the queue-fault trap. -/
def Obligations.HardwareQueues : Prop :=
  (∀ s i k q, Issues s i k → (∃ a f0 nb, i = .qpush a q f0 nb) ∨ (∃ d f0 nb, i = .qpop d q f0 nb) ∨
      (∃ d f0 nb, i = .qpeek d q f0 nb) ∨ (∃ d f0, i = .qlen d q f0) → k.sw.queues ≤ q.toNat →
    Traps s i k ⟨0x17, k.act, 0, BitVec.ofNat 32 q.toNat, 0⟩) ∧
  (∀ s a q f0 nb k, Issues s (.qpush a q f0 nb) k → q.toNat < k.sw.queues →
    let i : Instr := .qpush a q f0 nb
    let h := queueOf k.sw q.toNat
    let item := k.addr a 0
    (∀ x xs, h.poppers = x :: xs → ∃ t w f u, exec i s = .next t ∧ t.weft? k.sid k.wid = some w ∧ t.swatch? k.sid = some u ∧
      Begins k i w f ∧ Plain f ∧ P6 k w nb true ∧ queueOf u q.toNat = { h with poppers := xs } ∧ t.mem = s.mem ∧
      ∀ v y, x ≠ k.wid → s.weft? k.sid x = some v → v.wait = some y → ∃ v' y', t.weft? k.sid x = some v' ∧
        v'.wait = some y' ∧ y'.item = some item) ∧
    (h.poppers = [] → h.items.length < 64 → ∃ t w f u, exec i s = .next t ∧ OnlySwatch s t k w u ∧ Begins k i w f ∧
      Plain f ∧ P6 k w nb true ∧ queueOf u q.toNat = { h with items := h.items ++ [item] } ∧
      { u with wefts := [], hwq := [] } = { k.sw with wefts := [], hwq := [] }) ∧
    (h.poppers = [] → 64 ≤ h.items.length → nb = true → ∃ t w f, exec i s = .next t ∧ OnlyWeft s t k w ∧ Begins k i w f ∧
      Plain f ∧ P6 k w true false) ∧
    (h.poppers = [] → 64 ≤ h.items.length → nb = false → ∃ t w y u, exec i s = .next t ∧ OnlySwatch s t k w u ∧
      w.wait = some y ∧ y.form = .qpush q.toNat item ∧ queueOf u q.toNat = { h with pushers := h.pushers ++ [(k.wid, item)] })) ∧
  (∀ s d q f0 nb k, Issues s (.qpop d q f0 nb) k → q.toNat < k.sw.queues →
    let i : Instr := .qpop d q f0 nb
    let h := queueOf k.sw q.toNat
    (∀ x xs, h.items = x :: xs → ∃ t w f u, exec i s = .next t ∧ t.weft? k.sid k.wid = some w ∧ t.swatch? k.sid = some u ∧
      Begins k i w f ∧ (Carries k w f d 2 fun _ => words64 x) ∧ P6 k w nb true ∧ t.mem = s.mem ∧
      (h.pushers = [] → queueOf u q.toNat = { h with items := xs }) ∧
      ∀ y ys, h.pushers = y :: ys → queueOf u q.toNat = { h with items := xs ++ [y.2], pushers := ys }) ∧
    (h.items = [] → nb = true → ∃ t w f, exec i s = .next t ∧ OnlyWeft s t k w ∧ Begins k i w f ∧ Plain f ∧ P6 k w true false) ∧
    (h.items = [] → nb = false → ∃ t w y u, exec i s = .next t ∧ OnlySwatch s t k w u ∧ w.wait = some y ∧
      y.form = .qpop q.toNat ∧ Reserves k i w ∧ queueOf u q.toNat = { h with poppers := h.poppers ++ [k.wid] })) ∧
  (∀ s d q f0 nb k, Issues s (.qpeek d q f0 nb) k → q.toNat < k.sw.queues →
    let i : Instr := .qpeek d q f0 nb
    let h := queueOf k.sw q.toNat
    (∀ x xs, h.items = x :: xs → ∃ t w f, exec i s = .next t ∧ OnlyWeft s t k w ∧ Begins k i w f ∧
      (Carries k w f d 2 fun _ => words64 x) ∧ P6 k w nb true) ∧
    (h.items = [] → nb = true → ∃ t w f, exec i s = .next t ∧ OnlyWeft s t k w ∧ Begins k i w f ∧ Plain f ∧ P6 k w true false) ∧
    (h.items = [] → nb = false → ∃ t w y, exec i s = .next t ∧ OnlyWeft s t k w ∧ w.wait = some y ∧ y.form = .qpeek q.toNat ∧
      Reserves k i w)) ∧
  ∀ s d q f0 k, Issues s (.qlen d q f0) k → q.toNat < k.sw.queues → ∃ t w f, exec (.qlen d q f0) s = .next t ∧
    OnlyWeft s t k w ∧ OnlyFlight k w ∧ Begins k (.qlen d q f0) w f ∧
    Carries k w f d 1 fun _ => [BitVec.ofNat 32 (queueOf k.sw q.toNat).items.length]

/-- TSPAWN (R202, R203): the role, entry and pool checks in order, then one task for each active lane, ascending, at the
pool's end; TCOUNT reads the tasks whose lanes have not exited (R204). -/
def Obligations.TasksJoinThePool : Prop :=
  (∀ s a b f0 k l, Issues s (.tspawn a b f0) k → s.launches.get? k.sw.launch = some l →
    let i : Instr := .tspawn a b f0
    let word := BitVec.ofNat 32 i.wordNat
    let ls := (List.range 32).filter fun x => k.act.getLsbD x
    let bad := ls.filter fun x => decide ((k.val a x).toNat % 8 ≠ 0) || decide (s.codeSize k.sw.ctx ≤ (k.val a x).toNat)
    (l.roles.testBit 0 = false → Traps s i k ⟨0x07, k.act, 0, word, 0⟩) ∧
    (l.roles.testBit 0 = true → ∀ x xs, bad = x :: xs →
      Traps s i k ⟨0x04, maskOf fun y => bad.contains y, (k.val a x).setWidth 64, word, 0⟩) ∧
    (l.roles.testBit 0 = true → bad = [] → 2 ^ 20 < l.pool.length + ls.length →
      Traps s i k ⟨0x1B, k.act, 0, BitVec.ofNat 32 l.pool.length, 0⟩) ∧
    (l.roles.testBit 0 = true → bad = [] → l.pool.length + ls.length ≤ 2 ^ 20 →
      ∃ t w f l' new, exec i s = .next t ∧ t.weft? k.sid k.wid = some w ∧ Begins k i w f ∧ Plain f ∧ w.preds = k.w.preds ∧
        t.launches.get? k.sw.launch = some l' ∧ l' = { l with pool := l.pool ++ new, liveTasks := l.liveTasks + ls.length } ∧
        new.map (fun x => (x.sid, x.entry, x.arg)) = ls.map fun x => (k.sid, k.val a x, k.addr b x))) ∧
  ∀ s d f0 k l, Issues s (.tcount d f0) k → s.launches.get? k.sw.launch = some l →
    ∃ t w f, exec (.tcount d f0) s = .next t ∧ OnlyWeft s t k w ∧ OnlyFlight k w ∧ Begins k (.tcount d f0) w f ∧
      w.preds = k.w.preds ∧ Carries k w f d 1 fun _ => [BitVec.ofNat 32 l.liveTasks]

/-- NEG, EXPO and CEXPO: contributions round once and accumulate in the tile (see its parts). -/
def Obligations.ExposuresAndContributions : Prop :=
  ContributionsRoundOnce ∧ ExposuresAccumulate

/-- The enlarger's checks trap first; ACCZ clears a tile and ACCLD loads one (see its parts). -/
def Obligations.EnlargerChecksAndTiles : Prop :=
  EnlargerChecksTrap ∧ TilesAreClearedAndLoaded

/-- ACCRD (R213, R217, R225, R226): the register form carries eight columns of each active row; the scratchpad forms will
write each active row's bytes and descriptor at completion and set fstat then; a dual tile that differs from its copy
makes the array-mismatch trap pending; a poisoned tile traps; .stat carries the status word. No tile moves. -/
def Obligations.DrainsDeliverTheTile : Prop :=
  let pends := fun (k : Site) (w : Weft) (t0 : Nat) =>
    OnlyFlight k { w with pend := k.w.pend } ∧ (copyDiffers k.sw k.act t0 → w.pend = { k.w.pend with arrayMismatch := k.w.pend.arrayMismatch ++ [BitVec.ofNat 32 t0] }) ∧
      (¬ copyDiffers k.sw k.act t0 → w.pend = k.w.pend)
  let still := fun (k : Site) (u : Swatch) => { u with wefts := [] } = { k.sw with wefts := [] }
  (∀ s d a f0 k, Issues s (.accrdReg d a f0) k →
    let v := k.scalar a
    selOk v true false true → tileFree k.sw (tileOf v) →
    ((k.sw.tile (tileOf v)).poison = false → ∃ t w f u, exec (.accrdReg d a f0) s = .next t ∧ OnlySwatch s t k w u ∧ still k u ∧
      Begins k (.accrdReg d a f0) w f ∧ f.kind = .enlarger ∧ f.fst = 0 ∧ w.preds = k.w.preds ∧ pends k w (tileOf v) ∧
      Carries k w f d 8 fun l => (List.range 8).map fun j =>
        BitVec.ofNat 32 ((k.sw.tile (tileOf v)).word l (8 * (v.toNat / 4096 % 8) + j))) ∧
    ((k.sw.tile (tileOf v)).poison = true →
      Traps s (.accrdReg d a f0) k ⟨0x15, k.act, BitVec.ofNat 64 (tileOf v), k.e.pc, 0⟩)) ∧
  (∀ s a b f0 k i (D : Nat → Drain), Issues s i k →
    let v := k.scalar a
    let at_ := (k.scalar b).toNat
    let ws := fun l n => (k.sw.tile (tileOf v)).word l n
    ((i = .accrdF32 a b f0 ∧ D = fun _ => drainF32) ∨ (i = .accrdBf16 a b f0 ∧ D = fun _ => drainBf16) ∨
      (i = .accrdE4m3 a b f0 ∧ ∃ e : Nat → Int, (∀ l, l < 32 → scaleOf 448 (ws l) (e l)) ∧ D = fun l => described e4m3 1 (e l)) ∨
      (i = .accrdE5m2 a b f0 ∧ ∃ e : Nat → Int, (∀ l, l < 32 → scaleOf 57344 (ws l) (e l)) ∧ D = fun l => described e5m2 2 (e l))) →
    selOk v true false false → tileFree k.sw (tileOf v) → (k.sw.tile (tileOf v)).poison = false →
    rangeOk k 128 (32 * (D 0).stride) at_ →
    let row := fun (x : Nat) => (x - at_) / (D 0).stride
    let inRow := fun (x : Nat) => at_ ≤ x ∧ row x < 32 ∧ k.act.getLsbD (row x) = true
    ∃ t w f u bytes descs, Enlarges s t k i w f u ∧ still k u ∧ pends k w (tileOf v) ∧ f.kind = .spadWrite bytes descs ∧
      (∀ x, inRow x → bytes.get? x = some (BitVec.ofNat 8 ((D (row x)).byte (ws (row x)) ((x - at_) % (D 0).stride)))) ∧
      (∀ x, ¬ inRow x → bytes.get? x = none) ∧
      (∀ n, descs.get? n = if at_ / 64 ≤ n ∧ n < at_ / 64 + 32 ∧ k.act.getLsbD (n - at_ / 64) = true then
        (D (n - at_ / 64)).desc (ws (n - at_ / 64)) else none) ∧
      ∀ b, b < 6 → f.fst.getLsbD b = (lanesOf k.act).any fun l => ((D l).bits (ws l)).getLsbD b) ∧
  ∀ s d a f0 k, Issues s (.accrdStat d a f0) k → selOk (k.scalar a) true false false → tileFree k.sw (tileOf (k.scalar a)) →
    ∃ t w f, exec (.accrdStat d a f0) s = .next t ∧ OnlyWeft s t k w ∧ OnlyFlight k w ∧ Begins k (.accrdStat d a f0) w f ∧
      f.kind = .enlarger ∧ w.preds = k.w.preds ∧ Carries k w f d 1 fun _ => [(k.sw.tile (tileOf (k.scalar a))).status]

/-- HAD (R222): each row of n elements, and each part of a complex row, is transformed by the butterfly, scaled under .norm
and rounded to BF16 under .bf16; the rows are written and fstat is set at completion; a row that holds uncorrectable
data is not written; until then the scratchpad stands. -/
def Obligations.HadamardTransformsRows : Prop :=
  ∀ s a b f0 c n bf k, Issues s (.had a b f0 c n bf) k → k.sw.descFaults = [] →
    let v := (k.scalar a).toNat
    let at_ := (k.scalar b).toNat
    let size := v / 256
    let rows := v % 256 + 1
    let w0 := if bf then 2 else 4
    let parts := if c then 2 else 1
    let len := 2 ^ (size + 4) * w0 * parts
    let x := fun (r p j : Nat) => leSum (memBytes k.sw.spad (at_ + r * len + w0 * (parts * j + p)) w0) * if bf then 65536 else 1
    let good := fun (r : Nat) => r < rows ∧ badIn k.sw (at_ + r * len) len = false
    (size < 3 → rangeOk k 32 (rows * len) at_ → ∃ t w f u bytes, Enlarges s t k (.had a b f0 c n bf) w f u ∧ OnlyFlight k w ∧
      { u with wefts := [] } = { k.sw with wefts := [] } ∧ f.kind = .spadWrite bytes [] ∧
      (∀ r o, good r → o < len → bytes.get? (at_ + r * len + o) = some (BitVec.ofNat 8
        ((hadamard (x r (o / w0 % parts)) size (o / w0 / parts) n bf).1 / 256 ^ (o % w0)))) ∧
      (∀ y, (∀ r o, good r → o < len → y ≠ at_ + r * len + o) → bytes.get? y = none) ∧
      ∀ i, i < 6 → (f.fst.getLsbD i = true ↔ ∃ r p j, good r ∧ p < parts ∧ j < 2 ^ (size + 4) ∧
        (hadamard (x r p) size j n bf).2.getLsbD i = true)) ∧
    ((1024 ≤ v ∨ size = 3) → Traps s (.had a b f0 c n bf) k
      ⟨0x01, k.act, 0, BitVec.ofNat 32 (Instr.had a b f0 c n bf).wordNat, 0⟩)

/-- DLSET, DLSTEP, DLEND and DLQ; ENRD, ENSAVE and ENLOAD (see its parts). -/
def Obligations.DeadlinesAndEnergy : Prop :=
  DeadlineSteps ∧ EnergyAccounts

/-- XPERM, XRED, XBC and XAG issue, prepare, move their data and complete with a status (see its parts). -/
def Obligations.CollectivesRun : Prop :=
  CollectivesIssue ∧ CollectivesPrepareAndComplete

/-- HALT, HALT.resume, QUIESCE, QUIESCE.stop and CTXSWAP (see its parts). -/
def Obligations.HaltQuiesceAndSwap : Prop :=
  HaltAndQuiesce ∧ ContextSwapExchangesCoresAndShadows

/-- TLBINV and PGATTR (R312, R316, R317, R371, R372): every TLB drops what is covered and the context's generation rises;
the number and the lowest of the pinned pages in the range are reported, when accesses under the old translations are
over; PGATTR replaces bits 11, 10, 8 and 7 of the
leaf, or answers why not and changes nothing. -/
def Obligations.TranslationsAreInvalidated : Prop :=
  (∀ s d a l k, Issues s (.tlbinv d a l) k → k.act ≠ 0 → Quiet s →
    let i : Instr := .tlbinv d a l
    let ctx := k.word a 0 0
    let va := (k.word a 3 0 ++ k.word a 2 0).toNat % 2 ^ 57
    let what := if l then none else some va
    (k.word a 1 0 ≠ 0 → Traps s i k ⟨0x01, k.act, 0, BitVec.ofNat 32 i.wordNat, 0⟩) ∧
    (k.word a 1 0 = 0 → s.ctx? ctx = none → ∃ t w, exec i s = .next t ∧ OnlyWeft s t k w ∧ w.rest = k.w.rest ∧
      Writes k i w d [0, 1, 0, 0]) ∧
    (∀ c, k.word a 1 0 = 0 → s.ctx? ctx = some c → ∃ t w, ∃ L : List Nat, exec i s = .next t ∧
      { w.rest with wait := none } = { k.w.rest with wait := none } ∧ t.mem = s.mem ∧ Dropped s t ctx what ∧
      t.ctx? ctx = some { c with gen := c.gen + 1 } ∧
      L.Nodup ∧ (∀ y, y ∈ L ↔ ∃ p ∈ s.pins ctx, p.va % 2 ^ 57 / 2 ^ p.shift * 2 ^ p.shift = y ∧ pinInRange s ctx what p) ∧
      Invalidates s t k i w d ctx (c.gen + 1)
        ([BitVec.ofNat 32 (min L.length (2 ^ 32 - 1)), 0] ++ words64 ((BitVec.ofNat 57 (L.min?.getD 0)).signExtend 64)))) ∧
  (∀ s i d a l k x ctx gen ws, (i = .tlbinv d a l ∨ i = .pgattr d a) → Resumes s i k x → x.form = .tlbinv ctx gen ws →
    AccessesOver s ctx gen → ∃ t w, exec i s = .next t ∧ OnlyWeft s t k w ∧ w.wait = none ∧ (k.act ≠ 0 → Writes k i w d ws)) ∧
  ∀ s d a k, Issues s (.pgattr d a) k → k.act ≠ 0 → Quiet s →
    let i : Instr := .pgattr d a
    let ctx := k.word a 0 0
    let attr := (k.word a 1 0).toNat
    let va := (k.word a 3 0 ++ k.word a 2 0).toNat % 2 ^ 57
    let answers := fun (x : Word) => ∃ t w, exec i s = .next t ∧ OnlyWeft s t k w ∧ w.rest = k.w.rest ∧ Writes k i w d [x]
    let pinned := ∃ p ∈ s.pins ctx, pinInRange s ctx (some va) p
    let legal := attr < 2 ^ 12 ∧ attr.testBit 9 = false ∧ attr % 2 ^ 7 = 0
    (¬ legal → Traps s i k ⟨0x01, k.act, 0, BitVec.ofNat 32 i.wordNat, 0⟩) ∧
    (legal → (s.ctx? ctx = none → answers 4) ∧ ∀ c, s.ctx? ctx = some c →
      (s.walk c.root va = .error 0x08 → answers 1) ∧ (∀ e, s.walk c.root va = .error e → e ≠ 0x08 → answers 2) ∧
      ∀ leaf at_ lo, s.walk c.root va = .ok (leaf, at_, lo) →
        let ap := attr / 2 ^ 7 % 4
        let malformed := ap = 3 ∨ (ap = 2 ∧ attr.testBit 11 = false) ∨ (pteVer leaf = true ∧ (attr.testBit 10 = true ∨ ap ≠ 0)) ∨
          (attr.testBit 10 = true ∧ (pteX leaf = true ∨
            (15 * s.populatedAt (pteAddr leaf) / 16 ≤ dieAddr (pteAddr leaf) ∧
              dieAddr (pteAddr leaf) < s.populatedAt (pteAddr leaf))))
        (malformed → answers 2) ∧ (¬ malformed → pinned → answers 3) ∧ (¬ malformed → ¬ pinned → pteVer leaf = true → answers 5) ∧
        (¬ malformed → ¬ pinned → pteVer leaf = false → Settled s k [at_] → ∃ t w new, exec i s = .next t ∧
          Invalidates s t k i w d ctx (c.gen + 1) [0] ∧ (∀ j, Nat.testBit new j = if j = 7 ∨ j = 8 ∨ j = 10 ∨ j = 11 then attr.testBit j else leaf.testBit j) ∧
          (∀ y, memByte t.mem y = if at_ ≤ y ∧ y < at_ + 8 then BitVec.ofNat 8 (new / 256 ^ (y - at_)) else memByte s.mem y) ∧
          Dropped s t ctx (some va) ∧ t.ctx? ctx = some { c with gen := c.gen + 1 }))

/-- CLAUSE_SELECT, boundary traps, instruction-cache fills and completions of long-latency instructions (see its parts). -/
def Obligations.ClausesTrapsAndCompletions : Prop :=
  ClauseSelectionAndBoundaryTraps ∧ CompletionsLandTheirResults

/-- The loupe, the safelight, watches, retests, griudb, barrier arrivals, wakes and task wefts (see its parts). -/
def Obligations.WatchersWakesAndArrivals : Prop :=
  WatchersWakeAndRecord ∧ ArrivalsWakesAndTaskWefts

/-- The changing bag rotates wefts; swatches are placed, saved, woken for and released (see its parts). -/
def Obligations.BagAndSwatches : Prop :=
  TheBagRotatesWefts ∧ SwatchesArePlacedSavedAndReleased

/-- Copy jobs begin in order, move their lines, and end with their status (see its parts). -/
def Obligations.CopyJobsMoveAndEnd : Prop :=
  CopyJobsMoveTheirLines ∧ CopyJobsEnd

/-- Buffered and remote writes reach their homes, notices are applied, floors rise at one point (see its parts). -/
def Obligations.WritesAndFloorsTakeTheirPlace : Prop :=
  WritesReachTheirHomes ∧ FloorsRiseAtOnePoint

/-- Launch, graph, wait, signal, copy, barrier and fence packets (see its parts). -/
def Obligations.PacketsStart : Prop :=
  LaunchesAndGraphsStart ∧ PacketsWaitSignalCopyAndFence

/-- Queue errors, tails, aging, and the completion of waits, launches and graph nodes (see its parts). -/
def Obligations.QueuesStopAndPacketsComplete : Prop :=
  QueuesStopAndResume ∧ PacketsComplete

/-- The host event ring and the partition table (R344, R345, R354, R355): a record is written before tail moves past it; one
that finds the ring full sets ovf and waits, or is dropped and counted; EVENT_RING_HEAD_ADVANCE posts what waits; PTAB_LO
applies the records of the table, its contexts and their queues. QUIESCE_MARKER_RETURN ends a QUIESCE (R364, R369). -/
def Obligations.RingTableAndQuiesceEvents : Prop :=
  (∀ s r c h, s.ctx? r.ctx = some c → s.walkPa r.ctx (c.ering % 2 ^ 57) = .ok h → r.words.length = 8 →
    let t := s.post r
    let tail := leSum (memBytes s.mem h.pa 4)
    let full := 2 ^ c.elsize ≤ (tail + 2 ^ 32 - leSum (memBytes s.mem (h.pa + 4) 4)) % 2 ^ 32
    let pend := (s.die (s.frontDie r.ctx)).pendEv
    let w := leSum (memBytes s.mem (h.pa + 8) 4)
    let drops := r.queue = none ∧ Config.pendingEvents ≤ (pend.filter fun y => y.queue.isNone).length
    (∀ x, (∀ y ∈ pend, y.ctx ≠ r.ctx) → ¬ full → s.walkPa r.ctx (c.ering + 64 + 32 * (tail % 2 ^ c.elsize)) = .ok x →
      let ws := ((r.words.zip (List.range 8)).flatMap fun y => wordAt (x.pa + 4 * y.2) y.1.toNat) ++ wordAt h.pa (tail + 1)
      (ws.map fun y => y.1).Nodup → (∀ y ∈ ws, Writable s y.1) →
      Wrote s t ws ∧ (t.die (s.frontDie r.ctx)).pendEv = pend) ∧
    (full → (∀ y ∈ wordAt (h.pa + 8) 0, Writable s y.1) →
      (drops → Wrote s t (wordAt (h.pa + 8) (min (w / 65536 + 1) 65535 * 65536 + w % 65536 / 2 * 2 + 1)) ∧
        (t.die (s.frontDie r.ctx)).pendEv = pend) ∧
      (¬ drops → Wrote s t (wordAt (h.pa + 8) (w / 65536 * 65536 + w % 65536 / 2 * 2 + 1)) ∧
        (t.die (s.frontDie r.ctx)).pendEv = pend ++ [r]))) ∧
  (∀ s ctx head c h, s.ctx? ctx = some c → s.walkPa ctx (c.ering % 2 ^ 57) = .ok h →
    (∀ y ∈ wordAt (h.pa + 4) 0, Writable s y.1) →
    let die := s.frontDie ctx
    ((∀ y ∈ (s.die die).pendEv, y.ctx ≠ ctx) → ∃ t, exec (.eventRingHeadAdvance ctx head) s = .next t ∧
      Wrote s t (wordAt (h.pa + 4) head.toNat)) ∧
    ∀ r, (s.die die).pendEv = [r] → r.ctx = ctx → ∃ u, Wrote s u (wordAt (h.pa + 4) head.toNat) ∧
      exec (.eventRingHeadAdvance ctx head) s = .next (match u.ringWrite r with
        | none => u
        | some v => v.modDie die fun d => { d with pendEv := [] })) ∧
  (∀ s die v, (v.toNat % 2048 ≠ 0 → exec (.ptabLo die v) s = .next s) ∧
    (v.toNat % 2048 = 0 → ∃ t, exec (.ptabLo die v) s = .next t ∧ t.mem = s.mem ∧ (t.die die).ptabLo = v ∧
      let a := (s.die die).ptabHi.toNat * 2 ^ 32 + v.toNat
      let f := fun (i off n : Nat) => fieldAt (memBytes s.mem (a + 64 * i) 64) off n
      let en := fun (i : Nat) => (f i 4 4).testBit 8
      (∀ i, i < 32 → s.parts.get? i = none → (en i = false ∨ f i 0 4 = 0 ∨ f i 0 4 &&& s.pkg.fclus ≠ 0 ∨
        (∃ j, j < 32 ∧ j ≠ i ∧ en j = true ∧ f j 0 4 &&& f i 0 4 ≠ 0) ∨ dieOfCluster (lowCluster (f i 0 4)) ≠ die) →
        t.parts.get? i = none) ∧
      (∀ i, i < 32 → s.parts = [] → s.ctxs = [] → s.queues = [] → (∀ j, j < 32 → (en j = true ↔ j = i)) → f i 0 4 ≠ 0 →
        f i 0 4 &&& s.pkg.fclus = 0 → dieOfCluster (lowCluster (f i 0 4)) = die →
        t.parts.get? i = some ⟨f i 0 4, f i 4 1, f i 8 8, f i 0x10 8, f i 0x18 4 % 8192, 0, none, false, none⟩ ∧
        ∀ j, j < min (f i 4 1) 64 →
          let g := fun (j off n : Nat) => fieldAt (memBytes s.mem (f i 8 8 + 64 * j) 64) off n
          g j 0 4 ≠ 0 → (g j 4 4).testBit 1 = true → (∀ n, n < min (f i 4 1) 64 → n ≠ j → g n 0 4 ≠ g j 0 4) →
          t.ctxs.get? (g j 0 4) = some
            { part := i, sys := (g j 4 4).testBit 0, root := g j 8 8, code := g j 0x10 8, csize := g j 0x18 4, qtab := g j 0x20 8
              nq := g j 0x28 2 % 512, ering := g j 0x30 8, elsize := g j 0x38 1 % 32, gen := 0, spBase := 0, spPages := 0
              spLo := none, spHi := none, savedSum := 0, savedSat := false, halted := false } ∧
          ∀ q, q < g j 0x28 2 % 512 → t.queue? (BitVec.ofNat 32 (g j 0 4)) q = some ⟨BitVec.ofNat 32 (g j 0 4), q, false, none, false, 0, []⟩) ∧
      ∀ i p, i < 32 → s.parts = [(i, p)] → (∀ j, j < 32 → j ≠ i → en j = false) → s.partInUse i = true →
        (en i = false ∨ f i 0 4 ≠ p.clusters ∨ f i 4 1 ≠ p.nctx ∨ f i 8 8 ≠ p.ctab ∨ f i 0x10 8 ≠ p.gtab ∨
          f i 0x18 4 % 8192 ≠ p.ngrp) → t.parts = s.parts ∧ t.ctxs = s.ctxs ∧ t.queues = s.queues)) ∧
  ∀ s core part p (q : Quiesce), s.parts.find? (fun y => y.2.quiesce.any fun x => x.cores.contains core && !x.returned.contains core) =
      some (part, p) → s.parts.get? part = some p → p.quiesce = some q →
    let whole := ∀ c ∈ q.cores, c ∈ q.returned ∨ c = core
    (s.coreRests q core = false → exec (.quiesceMarkerReturn core) s = .next s) ∧
    (s.coreRests q core = true → ¬ whole → ∃ t, exec (.quiesceMarkerReturn core) s = .next t ∧ t = { s with parts := t.parts } ∧
      t.parts.get? part = some { p with quiesce := some { q with returned := q.returned ++ [core] } }) ∧
    (whole → (∀ c ∈ q.cores, s.coreRests q c = true) → s.coreRests q core = true → (q.stop = true → ∀ c ∈ q.cores, s.imageCount c = 0) → ∃ t x, exec (.quiesceMarkerReturn core) s = .next t ∧
      t.parts.get? part = some x ∧ x = { p with quiesce := none } ∧
      (∀ sid wid w y, s.weft? sid wid = some w → w.wait = some y → y.form = .quiesce part → ∃ w', t.weft? sid wid = some w' ∧ Woken w w') ∧
      (q.stop = false → (∀ c ∈ q.cores, (t.core c).vacated = true ∧ (t.core c).stopped = false) ∧
        ∀ sid sw c, s.swatch? sid = some sw → sw.core? = some c → c ∈ q.cores → ∃ u, t.swatch? sid = some u ∧ u.place = .saved true ∧
          (keepsCore t sw.cluster = true → u.cluster = sw.cluster) ∧
          (∀ l, s.launches.get? sw.launch = some l → keepsCore t sw.cluster = false → (∃ k ∈ l.coreset, keepsCore t k = true) →
            u.cluster ∈ l.coreset ∧ keepsCore t u.cluster = true) ∧
          u.spad = sw.spad ∧ u.full = sw.full ∧ u.bars = sw.bars ∧ u.tiles = sw.tiles ∧ u.negs = sw.negs ∧ u.shapes = sw.shapes ∧
          u.savedJobs = (s.core c).jobs.filter (fun j => j.kind != .firmware && j.sid == sid) ∧
          ∀ wid w, u.wefts.get? wid = some w → w.place = .absent))

/-- The governor, the cap, clock stops, energy periods, ballast, gating, and the control core's registers (see its parts). -/
def Obligations.PowerEvents : Prop :=
  GovernorAndCap ∧ ClockStopsAndEnergyPeriods ∧ GatingStartsAndWakes ∧ ControlCoreRegistersAct

/-- Starts and their reasons, fencing, corrected errors and the management interfaces (see its parts). -/
def Obligations.PackageEvents : Prop :=
  StartsAndTheirReasons ∧ FencesErrorsAndManagement

/-- Flits, ports, messages (whose bodies are the model's, log 16) and live migration (see its parts). -/
def Obligations.FabricEvents : Prop :=
  FlitsArriveInOrder ∧ MessagesTakeEffectAtTheirDestination ∧ MigrationTransfersAPartition

/-- Reset (R264, R275, R290, R295, R375, R376, R378): memory lists nothing, no weft, context, partition, launch,
region or queue exists; every cluster, core and die stands at the values the rules give; nothing is fenced; plimit is
1500, the failed-start counter and the reason records are zero; no step is needed for an absent agenda. Registers of
a weft that has not been written read 0 by R112. -/
def Obligations.ResetState : Prop :=
  State.reset.mem = [] ∧ State.reset.bad = [] ∧ State.reset.swatches = [] ∧ State.reset.ctxs = [] ∧ State.reset.parts = [] ∧
  State.reset.launches = [] ∧ State.reset.regions = [] ∧ State.reset.queues = [] ∧ State.reset.agenda = [] ∧
  (∀ a, memByte State.reset.mem a = 0) ∧
  State.reset.pkg.plimit = 1500 ∧ State.reset.pkg.fsc = 0 ∧ State.reset.pkg.reasons = List.replicate 8 0 ∧
  State.reset.pkg.fclus = 0 ∧ State.reset.pkg.fport = 0 ∧ State.reset.pkg.fd2d = 0 ∧ State.reset.pkg.cethr = 0 ∧
  State.reset.pkg.cecnt = List.replicate 8 0 ∧ State.reset.pkg.ports = [] ∧ State.reset.pkg.boot = .held ∧
  (∀ c, State.reset.cluster c = Cluster.reset) ∧ (∀ c, State.reset.core c = Core.reset) ∧ (∀ d, State.reset.die d = Die.reset)

/-- The machine right after reset keeps memory in its canonical form. -/
def Obligations.ResetMeetsTheMemoryInvariant : Prop :=
  MemInv State.reset

/-- A step runs the decoded instruction (R11, R16, R18, R26, R101, R104, R314): at the turn of a weft that may issue,
whose clause is cached and whose words from its pc on decode to an instruction, step is exec of that instruction at
the state in which the weft's turn is noted: the weft is the issuer, its ready age begins again, its stall counters
may have grown (log 9) and global time has passed; registers, memory and every other weft are as at the turn's
beginning. Words that encode nothing run as the illegal instruction, a weft between clauses selects one, a missing
code line is fetched or traps, and an event runs as itself. A catch stops its context after its event (R245); a new
turn changes wefts' ages alone. -/
def Obligations.AStepRunsTheDecodedInstruction : Prop :=
  (∀ s u sid wid sw w, TurnOf s sid wid u → u.swatch? sid = some sw → u.weft? sid wid = some w → u.mayIssue sw w = true →
    let kept := fun (v : State) => v.mem = s.mem ∧ (∀ x y, (x, y) ≠ (sid, wid) → v.weft? x y = u.weft? x y) ∧
      (∀ x, (v.swatch? x).map (fun y => { y with wefts := [] }) = (u.swatch? x).map fun y => { y with wefts := [] }) ∧
      (∃ ev, v.agenda = ev ++ u.agenda) ∧ ∃ n, v.tim = (s.tim + n) % 2 ^ 64
    let runs := fun (i : Instr) => ∃ v a b, step s = Stopped s (exec i v) ∧ v.issuer = some (sid, wid) ∧ kept v ∧
      v.weft? sid wid = some { w with
        readySince := u.turn, slip := (w.slip + a) % 2 ^ 64, dstall := (w.dstall + b) % 2 ^ 64 }
    (∀ x, w.wait = some x → x.woken = true → runs x.instr) ∧
    (∀ cl e es, w.wait = none → w.clause = some cl → w.frontier = e :: es → u.missingLine sw.clu sw.ctx e.hdr.toNat = none →
      let ws := (u.clauseWords sw.clu sw.ctx e.hdr.toNat (clauseLen cl.h0)).drop (((e.pc - e.hdr).toNat - 8) / 4)
      (∀ x ls i rest, ws = x :: ls → decode x ls = .ok (i, rest) → runs i) ∧
      (∀ x ls r, ws = x :: ls → decodeRaw x.toNat ls = .error r → runs (.illegalInstruction x))) ∧
    (∀ e es, w.wait = none → w.clause = none → sortFrontier w.frontier = e :: es → (badTarget (u.codeSize sw.ctx) e.hdr = true ∨
      u.missingLine sw.clu sw.ctx e.hdr.toNat = none) → ∃ v, step s = Stopped s (exec (.clauseSelect sid wid) v) ∧ kept v ∧
        v.issuer = none ∧ v.weft? sid wid = some w) ∧
    ∀ cl e es line, w.wait = none → w.clause = some cl → w.frontier = e :: es → u.missingLine sw.clu sw.ctx e.hdr.toNat = some line →
      (u.fetchFault sw.clu sw.ctx e.hdr.toNat line = none → step s = Stopped s (exec (.icacheFill sw.clu sw.ctx line) u)) ∧
      ∀ c a, u.fetchFault sw.clu sw.ctx e.hdr.toNat line = some (c, a) → w.trapMode = false → ∃ t x, step s = Stopped s (.next t) ∧
        t.weft? sid wid = some x ∧ x.trapMode = true ∧ x.trec.tcause = BitVec.ofNat 32 c ∧ x.trec.tpc = e.pc ∧
        x.trec.tlanes = e.mask ∧ x.trec.taddr = BitVec.ofNat 64 a) ∧
  (∀ s i ms, s.agenda = .event i :: ms → step s = Stopped s (exec i { s.beat with agenda := ms, issuer := none })) ∧
  (∀ s i, s.agenda = [] → s.beat.enabledEvent = some i → step s = Stopped s (exec i { s.beat with issuer := none })) ∧
  (∀ s t, s.pkg.catches = [] → Stopped s (.next t) = .next t) ∧
  ∀ s : State, s.beat = { s with turn := s.turn + 1, swatches := s.beat.swatches } ∧
    (∀ sid, (s.beat.swatch? sid).map (fun x => { x with wefts := [] }) = (s.swatch? sid).map fun x => { x with wefts := [] }) ∧
    ∀ sid wid w, s.weft? sid wid = some w → ∃ x, s.beat.weft? sid wid = some x ∧
      { x with readySince := 0, candSince := 0, runSince := 0, resSince := 0 } =
        { w with readySince := 0, candSince := 0, runSince := 0, resSince := 0 }

/-- Words that the spec writes out decode to the instructions it names (R22, R75, R79, R91, R126, R146, R183, R225,
R296, R333 and others). -/
def Obligations.WordsOfTheSpecDecode : Prop :=
  0x20101450 = wordA 0x10 4 2 69 0 ∧ decode 0x20101450 [] = .ok (.iadd (.v 4) (.v 2) (.s 5) false false false, []) ∧
  0x200C1874 = wordA 0x10 3 3 7 4 ∧ decode 0x200C1874 [] = .ok (.iadd (.v 3) (.v 3) (.v 7) true false false, []) ∧
  0x54081203 = wordA 0x2A 2 2 32 3 ∧ decode 0x54081203 [] = .ok (.shri (.v 2) (.v 2) 3, []) ∧
  decode 0x602048A5 [] = .ok (.fadd (.v 8) (.v 9) (.v 10) .rz .f16x2, []) ∧
  decode 0x70308061 [] = .ok (.fcvt (.v 12) (.v 16) .e4m3x4F32x4 .rn true, []) ∧
  0x0207FFFD = wordC 0x01 1 0x3FFFD ∧ decode 0x0207FFFD [] = .ok (.bra (.pred false 1) 0x3FFFD, []) ∧
  decode 0x050FFFFE [] = .ok (.brx (.s 3) 0x3FFFE, []) ∧
  0x8E0A3700 = wordA 0x47 2 70 112 0 ∧ decode 0x8E0A3700 [] = .ok (.lset (.v 2) (.s 6) (.sp .z) false, []) ∧
  decode 0xD010100C [] = .ok (.lds (.v 4) (.v 2) false .both .b32, []) ∧
  decode 0xE75644E1 [] = .ok (.cpyout (.s 21) (.s 8) (.s 14) false true, []) ∧
  decode 0x9A238000 [] = .ok (.accrdReg (.v 8) (.sp .z) false, []) ∧
  decode 0xAC101036 [] = .ok (.atom (.v 4) (.v 2) .add .ba false .ar false, []) ∧
  decode 0xF11B8011 [] = .ok (.bara (.s 6) (.sp .z) false 1 .sw, []) ∧
  decode 0xF803FFF0 [0x00030D40, 0x000F4240] = .ok (.dlset (.lit 0x00030D40) (.lit 0x000F4240), []) ∧
  decode 0xFF222000 [] = .ok (.frent (.s 8) (.s 4), []) ∧ decode 0x1B100028 [] = .ok (.csrr (.s 4) 0x028, []) ∧
  (∃ r, decode 0 [] = .error r) ∧ ∃ r, decode (wordA 0x10 112 2 3 0) [] = .error r

/-- Decode and encode agree: every well-formed instruction that the opcode table gives an encoding, with every
operand at every value the encoding admits, is what the decoder reads from its words, whatever words follow. -/
def Obligations.EveryInstructionRoundTripsThroughItsWords : Prop :=
  ∀ (i : Instr) (ls : List Word), i.hasEncoding = true → i.wellFormed = true →
    decode (BitVec.ofNat 32 i.wordNat) (i.lits ++ ls) = .ok (i, ls)

/-- Every step keeps memory in its canonical form: addresses rise strictly and no listed byte equals what an unlisted address
reads as, so that equal memories are equal data (log 6). -/
def Obligations.EveryStepKeepsTheMemoryInvariant : Prop :=
  ∀ s t, MemInv s → step s = .next t → MemInv t
end

