-- ==== Sys2Proof/Laws/Tables.lean ====
section
/-!
SUPPORT. What the sparse tables and memory do: reading after writing, and the canonical forms that every
operation keeps.
-/
namespace Sys2Proof

@[simp] theorem Tab.get?_put_self {α : Type} (t : Tab α) (k : Nat) (v : α) : (t.put k v).get? k = some v := by
  induction t with
  | nil => simp [Tab.put, Tab.get?]
  | cons p t ih =>
    obtain ⟨k', v'⟩ := p
    simp only [Tab.put]
    split
    · simp [Tab.get?]
    · split
      · simp [Tab.get?]
      · rename_i h
        simp [Tab.get?, Ne.symm h, ih]

theorem Tab.get?_put_ne {α : Type} (t : Tab α) {k j : Nat} (v : α) (h : j ≠ k) :
    (t.put k v).get? j = t.get? j := by
  induction t with
  | nil => simp [Tab.put, Tab.get?, Ne.symm h]
  | cons p t ih =>
    obtain ⟨k', v'⟩ := p
    simp only [Tab.put]
    split
    · simp [Tab.get?, Ne.symm h]
    · split
      · rename_i h'; subst h'; simp [Tab.get?, Ne.symm h]
      · simp [Tab.get?, ih]

theorem Tab.get?_del {α : Type} (t : Tab α) (k j : Nat) :
    (t.del k).get? j = if j = k then none else t.get? j := by
  induction t with
  | nil => simp [Tab.del, Tab.get?]
  | cons p t ih =>
    obtain ⟨k', v'⟩ := p
    simp only [Tab.del]
    split
    · rename_i h; subst h
      rw [ih]; split
      · rfl
      · rename_i h; simp [Tab.get?, Ne.symm h]
    · simp only [Tab.get?, ih]
      split
      · rename_i h h'; subst h'; simp [h]
      · rfl

theorem Tab.get?_store {α : Type} [DecidableEq α] (t : Tab α) (k j : Nat) (v d : α) :
    (t.store k v d).get? j = if j = k then (if v = d then none else some v) else t.get? j := by
  unfold Tab.store
  split
  · simp [Tab.get?_del]
  · split
    · rename_i h; subst h; simp
    · rename_i h; exact Tab.get?_put_ne t v h

@[simp] theorem Tab.getD_store_self {α : Type} [DecidableEq α] (t : Tab α) (k : Nat) (v d : α) :
    (t.store k v d).getD k d = v := by
  simp only [Tab.getD, Tab.get?_store, if_true]; split <;> simp_all

theorem Tab.getD_store_ne {α : Type} [DecidableEq α] (t : Tab α) {k j : Nat} (v d e : α) (h : j ≠ k) :
    (t.store k v d).getD j e = t.getD j e := by simp [Tab.getD, Tab.get?_store, h]

@[simp] theorem Tab.getD_put_self {α : Type} (t : Tab α) (k : Nat) (v d : α) : (t.put k v).getD k d = v := by
  simp [Tab.getD]

theorem Tab.getD_put_ne {α : Type} (t : Tab α) {k j : Nat} (v d : α) (h : j ≠ k) :
    (t.put k v).getD j d = t.getD j d := by simp [Tab.getD, Tab.get?_put_ne t v h]

theorem Tab.get?_modify {α : Type} (t : Tab α) (k j : Nat) (f : α → α) :
    (t.modify k f).get? j = if j = k then (t.get? k).map f else t.get? j := by
  unfold Tab.modify
  split
  · rename_i v hv
    split
    · rename_i h; subst h; simp [hv]
    · rename_i h; exact Tab.get?_put_ne t _ h
  · rename_i hv
    split
    · rename_i h; subst h; simp [hv]
    · rfl

/-! ## The canonical form -/

theorem Tab.sorted_cons {α : Type} (p : Nat × α) (t : Tab α) :
    Tab.sorted (p :: t) = true ↔ (∀ q ∈ t, p.1 < q.1) ∧ Tab.sorted t = true := by
  induction t generalizing p with
  | nil => simp [Tab.sorted]
  | cons q t ih =>
    have hs : Tab.sorted (p :: q :: t) = true ↔ p.1 < q.1 ∧ Tab.sorted (q :: t) = true := by
      obtain ⟨a, b⟩ := p
      obtain ⟨c, d⟩ := q
      simp [Tab.sorted]
    rw [hs]
    constructor
    · rintro ⟨h, h'⟩
      refine ⟨?_, h'⟩
      intro r hr
      rcases List.mem_cons.1 hr with rfl | hr
      · exact h
      · exact Nat.lt_trans h (((ih q).1 h').1 r hr)
    · rintro ⟨h, h'⟩
      exact ⟨h q (by simp), h'⟩

theorem Tab.mem_put {α : Type} (t : Tab α) (k : Nat) (v : α) (q : Nat × α) (h : q ∈ t.put k v) :
    q = (k, v) ∨ q ∈ t := by
  induction t with
  | nil => simp [Tab.put] at h; exact .inl h
  | cons p t ih =>
    obtain ⟨k', v'⟩ := p
    simp only [Tab.put] at h
    split at h
    · rcases List.mem_cons.1 h with h | h
      · exact .inl h
      · exact .inr h
    · split at h
      · rcases List.mem_cons.1 h with h | h
        · exact .inl h
        · exact .inr (List.mem_cons_of_mem _ h)
      · rcases List.mem_cons.1 h with h | h
        · exact .inr (by simp [h])
        · rcases ih h with h | h
          · exact .inl h
          · exact .inr (List.mem_cons_of_mem _ h)

theorem Tab.mem_del {α : Type} (t : Tab α) (k : Nat) (q : Nat × α) (h : q ∈ t.del k) : q ∈ t := by
  induction t with
  | nil => simp [Tab.del] at h
  | cons p t ih =>
    obtain ⟨k', v'⟩ := p
    simp only [Tab.del] at h
    split at h
    · exact List.mem_cons_of_mem _ (ih h)
    · rcases List.mem_cons.1 h with h | h
      · simp [h]
      · exact List.mem_cons_of_mem _ (ih h)

theorem Tab.sorted_put {α : Type} (t : Tab α) (k : Nat) (v : α) (h : t.sorted = true) :
    (t.put k v).sorted = true := by
  induction t with
  | nil => simp [Tab.put, Tab.sorted]
  | cons p t ih =>
    obtain ⟨k', v'⟩ := p
    obtain ⟨h1, h2⟩ := (Tab.sorted_cons (k', v') t).1 h
    simp only [Tab.put]
    split
    · rename_i hk
      refine (Tab.sorted_cons _ _).2 ⟨?_, h⟩
      intro q hq
      rcases List.mem_cons.1 hq with rfl | hq
      · exact hk
      · exact Nat.lt_trans hk (h1 q hq)
    · split
      · rename_i hk
        subst hk
        exact (Tab.sorted_cons _ _).2 ⟨h1, h2⟩
      · rename_i hk hk'
        refine (Tab.sorted_cons _ _).2 ⟨?_, ih h2⟩
        intro q hq
        rcases Tab.mem_put t k v q hq with rfl | hq
        · exact Nat.lt_of_le_of_ne (Nat.le_of_not_lt hk) (Ne.symm hk')
        · exact h1 q hq

theorem Tab.sorted_del {α : Type} (t : Tab α) (k : Nat) (h : t.sorted = true) : (t.del k).sorted = true := by
  induction t with
  | nil => simp [Tab.del, Tab.sorted]
  | cons p t ih =>
    obtain ⟨k', v'⟩ := p
    obtain ⟨h1, h2⟩ := (Tab.sorted_cons (k', v') t).1 h
    simp only [Tab.del]
    split
    · exact ih h2
    · exact (Tab.sorted_cons _ _).2 ⟨fun q hq => h1 q (Tab.mem_del t k q hq), ih h2⟩

namespace Machine

/-! ## Memory -/

theorem memByte_put (m : Memory) (a x : Nat) (b : Byte) :
    memByte (memPut m a b) x = if x = a then b else memByte m x := by
  unfold memByte memPut
  split
  · rename_i h; subst h; simp
  · rename_i h; exact Tab.getD_store_ne m b 0 0 h

theorem memPut_wf (m : Memory) (a : Nat) (b : Byte) (h : Memory.wf m = true) : Memory.wf (memPut m a b) = true := by
  simp only [Memory.wf, Bool.and_eq_true, List.all_eq_true, bne_iff_ne, ne_eq] at h ⊢
  unfold memPut Tab.store
  split
  · exact ⟨Tab.sorted_del m a h.1, fun q hq => h.2 q (Tab.mem_del m a q hq)⟩
  · rename_i hb
    refine ⟨Tab.sorted_put m a b h.1, fun q hq => ?_⟩
    rcases Tab.mem_put m a b q hq with rfl | hq
    · exact hb
    · exact h.2 q hq

theorem memPutBytes_wf (m : Memory) (a : Nat) (bs : List Byte) (h : Memory.wf m = true) :
    Memory.wf (memPutBytes m a bs) = true := by
  induction bs generalizing m a with
  | nil => exact h
  | cons b bs ih => exact ih _ _ (memPut_wf m a b h)

/-- A byte of memory after consecutive bytes are written: the byte written there, else what was there. -/
theorem memByte_putBytes (m : Memory) (a x : Nat) (bs : List Byte) :
    memByte (memPutBytes m a bs) x = if a ≤ x ∧ x < a + bs.length then bs.getD (x - a) 0 else memByte m x := by
  induction bs generalizing m a with
  | nil => simp [memPutBytes] <;> omega
  | cons b bs ih =>
    rw [memPutBytes, ih, memByte_put]
    by_cases h1 : x = a
    · subst h1
      rw [if_neg (by omega), if_pos rfl, if_pos (by simp)]
      simp
    · by_cases h2 : a + 1 ≤ x ∧ x < a + 1 + bs.length
      · have h3 : a ≤ x ∧ x < a + (b :: bs).length := by simp; omega
        rw [if_pos h2, if_pos h3]
        have : x - a = (x - (a + 1)) + 1 := by omega
        rw [this]; simp
      · have h3 : ¬ (a ≤ x ∧ x < a + (b :: bs).length) := by simp; omega
        rw [if_neg h2, if_neg h3, if_neg h1]

theorem memBytes_length (m : Memory) (a n : Nat) : (memBytes m a n).length = n := by
  induction n generalizing a with
  | zero => rfl
  | succ n ih => simp [memBytes, ih]

theorem memBytes_getD (m : Memory) (a n i : Nat) (h : i < n) : (memBytes m a n).getD i 0 = memByte m (a + i) := by
  induction n generalizing a i with
  | zero => omega
  | succ n ih =>
    cases i with
    | zero => simp [memBytes]
    | succ i =>
      have := ih (a + 1) i (by omega)
      simp only [memBytes, List.getD_cons_succ, this]
      congr 1; omega

end Machine
end Sys2Proof
end

