-- ==== Sys2Proof/Laws/State.lean ====
section
/-!
SUPPORT. What each primitive update of State leaves in each field, and what reading a weft, swatch,
cluster, core or die gives after it.
-/
namespace Sys2Proof.Machine

@[simp] theorem State.modSwatch_mem (s : State) (a : Nat) (f : Swatch → Swatch) : (s.modSwatch a f).mem = s.mem := rfl
@[simp] theorem State.modSwatch_bad (s : State) (a : Nat) (f : Swatch → Swatch) : (s.modSwatch a f).bad = s.bad := rfl
@[simp] theorem State.modSwatch_tim (s : State) (a : Nat) (f : Swatch → Swatch) : (s.modSwatch a f).tim = s.tim := rfl
@[simp] theorem State.modSwatch_swatches (s : State) (a : Nat) (f : Swatch → Swatch) : (s.modSwatch a f).swatches = s.swatches.modify a f := rfl
@[simp] theorem State.modSwatch_cores (s : State) (a : Nat) (f : Swatch → Swatch) : (s.modSwatch a f).cores = s.cores := rfl
@[simp] theorem State.modSwatch_clusters (s : State) (a : Nat) (f : Swatch → Swatch) : (s.modSwatch a f).clusters = s.clusters := rfl
@[simp] theorem State.modSwatch_dies (s : State) (a : Nat) (f : Swatch → Swatch) : (s.modSwatch a f).dies = s.dies := rfl
@[simp] theorem State.modSwatch_ctxs (s : State) (a : Nat) (f : Swatch → Swatch) : (s.modSwatch a f).ctxs = s.ctxs := rfl
@[simp] theorem State.modSwatch_parts (s : State) (a : Nat) (f : Swatch → Swatch) : (s.modSwatch a f).parts = s.parts := rfl
@[simp] theorem State.modSwatch_queues (s : State) (a : Nat) (f : Swatch → Swatch) : (s.modSwatch a f).queues = s.queues := rfl
@[simp] theorem State.modSwatch_launches (s : State) (a : Nat) (f : Swatch → Swatch) : (s.modSwatch a f).launches = s.launches := rfl
@[simp] theorem State.modSwatch_graphs (s : State) (a : Nat) (f : Swatch → Swatch) : (s.modSwatch a f).graphs = s.graphs := rfl
@[simp] theorem State.modSwatch_finishes (s : State) (a : Nat) (f : Swatch → Swatch) : (s.modSwatch a f).finishes = s.finishes := rfl
@[simp] theorem State.modSwatch_regions (s : State) (a : Nat) (f : Swatch → Swatch) : (s.modSwatch a f).regions = s.regions := rfl
@[simp] theorem State.modSwatch_pkg (s : State) (a : Nat) (f : Swatch → Swatch) : (s.modSwatch a f).pkg = s.pkg := rfl
@[simp] theorem State.modSwatch_agenda (s : State) (a : Nat) (f : Swatch → Swatch) : (s.modSwatch a f).agenda = s.agenda := rfl
@[simp] theorem State.modSwatch_turn (s : State) (a : Nat) (f : Swatch → Swatch) : (s.modSwatch a f).turn = s.turn := rfl
@[simp] theorem State.modSwatch_free (s : State) (a : Nat) (f : Swatch → Swatch) : (s.modSwatch a f).free = s.free := rfl
@[simp] theorem State.modSwatch_issuer (s : State) (a : Nat) (f : Swatch → Swatch) : (s.modSwatch a f).issuer = s.issuer := rfl
@[simp] theorem State.modSwatch_nextSid (s : State) (a : Nat) (f : Swatch → Swatch) : (s.modSwatch a f).nextSid = s.nextSid := rfl
@[simp] theorem State.modSwatch_nextLaunch (s : State) (a : Nat) (f : Swatch → Swatch) : (s.modSwatch a f).nextLaunch = s.nextLaunch := rfl

@[simp] theorem State.modWeft_mem (s : State) (a b : Nat) (f : Weft → Weft) : (s.modWeft a b f).mem = s.mem := rfl
@[simp] theorem State.modWeft_bad (s : State) (a b : Nat) (f : Weft → Weft) : (s.modWeft a b f).bad = s.bad := rfl
@[simp] theorem State.modWeft_tim (s : State) (a b : Nat) (f : Weft → Weft) : (s.modWeft a b f).tim = s.tim := rfl
@[simp] theorem State.modWeft_swatches (s : State) (a b : Nat) (f : Weft → Weft) : (s.modWeft a b f).swatches = s.swatches.modify a fun sw => sw.modWeft b f := rfl
@[simp] theorem State.modWeft_cores (s : State) (a b : Nat) (f : Weft → Weft) : (s.modWeft a b f).cores = s.cores := rfl
@[simp] theorem State.modWeft_clusters (s : State) (a b : Nat) (f : Weft → Weft) : (s.modWeft a b f).clusters = s.clusters := rfl
@[simp] theorem State.modWeft_dies (s : State) (a b : Nat) (f : Weft → Weft) : (s.modWeft a b f).dies = s.dies := rfl
@[simp] theorem State.modWeft_ctxs (s : State) (a b : Nat) (f : Weft → Weft) : (s.modWeft a b f).ctxs = s.ctxs := rfl
@[simp] theorem State.modWeft_parts (s : State) (a b : Nat) (f : Weft → Weft) : (s.modWeft a b f).parts = s.parts := rfl
@[simp] theorem State.modWeft_queues (s : State) (a b : Nat) (f : Weft → Weft) : (s.modWeft a b f).queues = s.queues := rfl
@[simp] theorem State.modWeft_launches (s : State) (a b : Nat) (f : Weft → Weft) : (s.modWeft a b f).launches = s.launches := rfl
@[simp] theorem State.modWeft_graphs (s : State) (a b : Nat) (f : Weft → Weft) : (s.modWeft a b f).graphs = s.graphs := rfl
@[simp] theorem State.modWeft_finishes (s : State) (a b : Nat) (f : Weft → Weft) : (s.modWeft a b f).finishes = s.finishes := rfl
@[simp] theorem State.modWeft_regions (s : State) (a b : Nat) (f : Weft → Weft) : (s.modWeft a b f).regions = s.regions := rfl
@[simp] theorem State.modWeft_pkg (s : State) (a b : Nat) (f : Weft → Weft) : (s.modWeft a b f).pkg = s.pkg := rfl
@[simp] theorem State.modWeft_agenda (s : State) (a b : Nat) (f : Weft → Weft) : (s.modWeft a b f).agenda = s.agenda := rfl
@[simp] theorem State.modWeft_turn (s : State) (a b : Nat) (f : Weft → Weft) : (s.modWeft a b f).turn = s.turn := rfl
@[simp] theorem State.modWeft_free (s : State) (a b : Nat) (f : Weft → Weft) : (s.modWeft a b f).free = s.free := rfl
@[simp] theorem State.modWeft_issuer (s : State) (a b : Nat) (f : Weft → Weft) : (s.modWeft a b f).issuer = s.issuer := rfl
@[simp] theorem State.modWeft_nextSid (s : State) (a b : Nat) (f : Weft → Weft) : (s.modWeft a b f).nextSid = s.nextSid := rfl
@[simp] theorem State.modWeft_nextLaunch (s : State) (a b : Nat) (f : Weft → Weft) : (s.modWeft a b f).nextLaunch = s.nextLaunch := rfl

@[simp] theorem State.modCore_mem (s : State) (a : Nat) (f : Core → Core) : (s.modCore a f).mem = s.mem := rfl
@[simp] theorem State.modCore_bad (s : State) (a : Nat) (f : Core → Core) : (s.modCore a f).bad = s.bad := rfl
@[simp] theorem State.modCore_tim (s : State) (a : Nat) (f : Core → Core) : (s.modCore a f).tim = s.tim := rfl
@[simp] theorem State.modCore_swatches (s : State) (a : Nat) (f : Core → Core) : (s.modCore a f).swatches = s.swatches := rfl
@[simp] theorem State.modCore_cores (s : State) (a : Nat) (f : Core → Core) : (s.modCore a f).cores = s.cores.put a (f (s.core a)) := rfl
@[simp] theorem State.modCore_clusters (s : State) (a : Nat) (f : Core → Core) : (s.modCore a f).clusters = s.clusters := rfl
@[simp] theorem State.modCore_dies (s : State) (a : Nat) (f : Core → Core) : (s.modCore a f).dies = s.dies := rfl
@[simp] theorem State.modCore_ctxs (s : State) (a : Nat) (f : Core → Core) : (s.modCore a f).ctxs = s.ctxs := rfl
@[simp] theorem State.modCore_parts (s : State) (a : Nat) (f : Core → Core) : (s.modCore a f).parts = s.parts := rfl
@[simp] theorem State.modCore_queues (s : State) (a : Nat) (f : Core → Core) : (s.modCore a f).queues = s.queues := rfl
@[simp] theorem State.modCore_launches (s : State) (a : Nat) (f : Core → Core) : (s.modCore a f).launches = s.launches := rfl
@[simp] theorem State.modCore_graphs (s : State) (a : Nat) (f : Core → Core) : (s.modCore a f).graphs = s.graphs := rfl
@[simp] theorem State.modCore_finishes (s : State) (a : Nat) (f : Core → Core) : (s.modCore a f).finishes = s.finishes := rfl
@[simp] theorem State.modCore_regions (s : State) (a : Nat) (f : Core → Core) : (s.modCore a f).regions = s.regions := rfl
@[simp] theorem State.modCore_pkg (s : State) (a : Nat) (f : Core → Core) : (s.modCore a f).pkg = s.pkg := rfl
@[simp] theorem State.modCore_agenda (s : State) (a : Nat) (f : Core → Core) : (s.modCore a f).agenda = s.agenda := rfl
@[simp] theorem State.modCore_turn (s : State) (a : Nat) (f : Core → Core) : (s.modCore a f).turn = s.turn := rfl
@[simp] theorem State.modCore_free (s : State) (a : Nat) (f : Core → Core) : (s.modCore a f).free = s.free := rfl
@[simp] theorem State.modCore_issuer (s : State) (a : Nat) (f : Core → Core) : (s.modCore a f).issuer = s.issuer := rfl
@[simp] theorem State.modCore_nextSid (s : State) (a : Nat) (f : Core → Core) : (s.modCore a f).nextSid = s.nextSid := rfl
@[simp] theorem State.modCore_nextLaunch (s : State) (a : Nat) (f : Core → Core) : (s.modCore a f).nextLaunch = s.nextLaunch := rfl

@[simp] theorem State.modCluster_mem (s : State) (a : Nat) (f : Cluster → Cluster) : (s.modCluster a f).mem = s.mem := rfl
@[simp] theorem State.modCluster_bad (s : State) (a : Nat) (f : Cluster → Cluster) : (s.modCluster a f).bad = s.bad := rfl
@[simp] theorem State.modCluster_tim (s : State) (a : Nat) (f : Cluster → Cluster) : (s.modCluster a f).tim = s.tim := rfl
@[simp] theorem State.modCluster_swatches (s : State) (a : Nat) (f : Cluster → Cluster) : (s.modCluster a f).swatches = s.swatches := rfl
@[simp] theorem State.modCluster_cores (s : State) (a : Nat) (f : Cluster → Cluster) : (s.modCluster a f).cores = s.cores := rfl
@[simp] theorem State.modCluster_clusters (s : State) (a : Nat) (f : Cluster → Cluster) : (s.modCluster a f).clusters = s.clusters.put a (f (s.cluster a)) := rfl
@[simp] theorem State.modCluster_dies (s : State) (a : Nat) (f : Cluster → Cluster) : (s.modCluster a f).dies = s.dies := rfl
@[simp] theorem State.modCluster_ctxs (s : State) (a : Nat) (f : Cluster → Cluster) : (s.modCluster a f).ctxs = s.ctxs := rfl
@[simp] theorem State.modCluster_parts (s : State) (a : Nat) (f : Cluster → Cluster) : (s.modCluster a f).parts = s.parts := rfl
@[simp] theorem State.modCluster_queues (s : State) (a : Nat) (f : Cluster → Cluster) : (s.modCluster a f).queues = s.queues := rfl
@[simp] theorem State.modCluster_launches (s : State) (a : Nat) (f : Cluster → Cluster) : (s.modCluster a f).launches = s.launches := rfl
@[simp] theorem State.modCluster_graphs (s : State) (a : Nat) (f : Cluster → Cluster) : (s.modCluster a f).graphs = s.graphs := rfl
@[simp] theorem State.modCluster_finishes (s : State) (a : Nat) (f : Cluster → Cluster) : (s.modCluster a f).finishes = s.finishes := rfl
@[simp] theorem State.modCluster_regions (s : State) (a : Nat) (f : Cluster → Cluster) : (s.modCluster a f).regions = s.regions := rfl
@[simp] theorem State.modCluster_pkg (s : State) (a : Nat) (f : Cluster → Cluster) : (s.modCluster a f).pkg = s.pkg := rfl
@[simp] theorem State.modCluster_agenda (s : State) (a : Nat) (f : Cluster → Cluster) : (s.modCluster a f).agenda = s.agenda := rfl
@[simp] theorem State.modCluster_turn (s : State) (a : Nat) (f : Cluster → Cluster) : (s.modCluster a f).turn = s.turn := rfl
@[simp] theorem State.modCluster_free (s : State) (a : Nat) (f : Cluster → Cluster) : (s.modCluster a f).free = s.free := rfl
@[simp] theorem State.modCluster_issuer (s : State) (a : Nat) (f : Cluster → Cluster) : (s.modCluster a f).issuer = s.issuer := rfl
@[simp] theorem State.modCluster_nextSid (s : State) (a : Nat) (f : Cluster → Cluster) : (s.modCluster a f).nextSid = s.nextSid := rfl
@[simp] theorem State.modCluster_nextLaunch (s : State) (a : Nat) (f : Cluster → Cluster) : (s.modCluster a f).nextLaunch = s.nextLaunch := rfl

@[simp] theorem State.modDie_mem (s : State) (a : Nat) (f : Die → Die) : (s.modDie a f).mem = s.mem := rfl
@[simp] theorem State.modDie_bad (s : State) (a : Nat) (f : Die → Die) : (s.modDie a f).bad = s.bad := rfl
@[simp] theorem State.modDie_tim (s : State) (a : Nat) (f : Die → Die) : (s.modDie a f).tim = s.tim := rfl
@[simp] theorem State.modDie_swatches (s : State) (a : Nat) (f : Die → Die) : (s.modDie a f).swatches = s.swatches := rfl
@[simp] theorem State.modDie_cores (s : State) (a : Nat) (f : Die → Die) : (s.modDie a f).cores = s.cores := rfl
@[simp] theorem State.modDie_clusters (s : State) (a : Nat) (f : Die → Die) : (s.modDie a f).clusters = s.clusters := rfl
@[simp] theorem State.modDie_dies (s : State) (a : Nat) (f : Die → Die) : (s.modDie a f).dies = s.dies.put a (f (s.die a)) := rfl
@[simp] theorem State.modDie_ctxs (s : State) (a : Nat) (f : Die → Die) : (s.modDie a f).ctxs = s.ctxs := rfl
@[simp] theorem State.modDie_parts (s : State) (a : Nat) (f : Die → Die) : (s.modDie a f).parts = s.parts := rfl
@[simp] theorem State.modDie_queues (s : State) (a : Nat) (f : Die → Die) : (s.modDie a f).queues = s.queues := rfl
@[simp] theorem State.modDie_launches (s : State) (a : Nat) (f : Die → Die) : (s.modDie a f).launches = s.launches := rfl
@[simp] theorem State.modDie_graphs (s : State) (a : Nat) (f : Die → Die) : (s.modDie a f).graphs = s.graphs := rfl
@[simp] theorem State.modDie_finishes (s : State) (a : Nat) (f : Die → Die) : (s.modDie a f).finishes = s.finishes := rfl
@[simp] theorem State.modDie_regions (s : State) (a : Nat) (f : Die → Die) : (s.modDie a f).regions = s.regions := rfl
@[simp] theorem State.modDie_pkg (s : State) (a : Nat) (f : Die → Die) : (s.modDie a f).pkg = s.pkg := rfl
@[simp] theorem State.modDie_agenda (s : State) (a : Nat) (f : Die → Die) : (s.modDie a f).agenda = s.agenda := rfl
@[simp] theorem State.modDie_turn (s : State) (a : Nat) (f : Die → Die) : (s.modDie a f).turn = s.turn := rfl
@[simp] theorem State.modDie_free (s : State) (a : Nat) (f : Die → Die) : (s.modDie a f).free = s.free := rfl
@[simp] theorem State.modDie_issuer (s : State) (a : Nat) (f : Die → Die) : (s.modDie a f).issuer = s.issuer := rfl
@[simp] theorem State.modDie_nextSid (s : State) (a : Nat) (f : Die → Die) : (s.modDie a f).nextSid = s.nextSid := rfl
@[simp] theorem State.modDie_nextLaunch (s : State) (a : Nat) (f : Die → Die) : (s.modDie a f).nextLaunch = s.nextLaunch := rfl

@[simp] theorem State.modLaunch_mem (s : State) (a : Nat) (f : Launch → Launch) : (s.modLaunch a f).mem = s.mem := rfl
@[simp] theorem State.modLaunch_bad (s : State) (a : Nat) (f : Launch → Launch) : (s.modLaunch a f).bad = s.bad := rfl
@[simp] theorem State.modLaunch_tim (s : State) (a : Nat) (f : Launch → Launch) : (s.modLaunch a f).tim = s.tim := rfl
@[simp] theorem State.modLaunch_swatches (s : State) (a : Nat) (f : Launch → Launch) : (s.modLaunch a f).swatches = s.swatches := rfl
@[simp] theorem State.modLaunch_cores (s : State) (a : Nat) (f : Launch → Launch) : (s.modLaunch a f).cores = s.cores := rfl
@[simp] theorem State.modLaunch_clusters (s : State) (a : Nat) (f : Launch → Launch) : (s.modLaunch a f).clusters = s.clusters := rfl
@[simp] theorem State.modLaunch_dies (s : State) (a : Nat) (f : Launch → Launch) : (s.modLaunch a f).dies = s.dies := rfl
@[simp] theorem State.modLaunch_ctxs (s : State) (a : Nat) (f : Launch → Launch) : (s.modLaunch a f).ctxs = s.ctxs := rfl
@[simp] theorem State.modLaunch_parts (s : State) (a : Nat) (f : Launch → Launch) : (s.modLaunch a f).parts = s.parts := rfl
@[simp] theorem State.modLaunch_queues (s : State) (a : Nat) (f : Launch → Launch) : (s.modLaunch a f).queues = s.queues := rfl
@[simp] theorem State.modLaunch_launches (s : State) (a : Nat) (f : Launch → Launch) : (s.modLaunch a f).launches = s.launches.modify a f := rfl
@[simp] theorem State.modLaunch_graphs (s : State) (a : Nat) (f : Launch → Launch) : (s.modLaunch a f).graphs = s.graphs := rfl
@[simp] theorem State.modLaunch_finishes (s : State) (a : Nat) (f : Launch → Launch) : (s.modLaunch a f).finishes = s.finishes := rfl
@[simp] theorem State.modLaunch_regions (s : State) (a : Nat) (f : Launch → Launch) : (s.modLaunch a f).regions = s.regions := rfl
@[simp] theorem State.modLaunch_pkg (s : State) (a : Nat) (f : Launch → Launch) : (s.modLaunch a f).pkg = s.pkg := rfl
@[simp] theorem State.modLaunch_agenda (s : State) (a : Nat) (f : Launch → Launch) : (s.modLaunch a f).agenda = s.agenda := rfl
@[simp] theorem State.modLaunch_turn (s : State) (a : Nat) (f : Launch → Launch) : (s.modLaunch a f).turn = s.turn := rfl
@[simp] theorem State.modLaunch_free (s : State) (a : Nat) (f : Launch → Launch) : (s.modLaunch a f).free = s.free := rfl
@[simp] theorem State.modLaunch_issuer (s : State) (a : Nat) (f : Launch → Launch) : (s.modLaunch a f).issuer = s.issuer := rfl
@[simp] theorem State.modLaunch_nextSid (s : State) (a : Nat) (f : Launch → Launch) : (s.modLaunch a f).nextSid = s.nextSid := rfl
@[simp] theorem State.modLaunch_nextLaunch (s : State) (a : Nat) (f : Launch → Launch) : (s.modLaunch a f).nextLaunch = s.nextLaunch := rfl

@[simp] theorem State.modPkg_mem (s : State) (f : Package → Package) : (s.modPkg f).mem = s.mem := rfl
@[simp] theorem State.modPkg_bad (s : State) (f : Package → Package) : (s.modPkg f).bad = s.bad := rfl
@[simp] theorem State.modPkg_tim (s : State) (f : Package → Package) : (s.modPkg f).tim = s.tim := rfl
@[simp] theorem State.modPkg_swatches (s : State) (f : Package → Package) : (s.modPkg f).swatches = s.swatches := rfl
@[simp] theorem State.modPkg_cores (s : State) (f : Package → Package) : (s.modPkg f).cores = s.cores := rfl
@[simp] theorem State.modPkg_clusters (s : State) (f : Package → Package) : (s.modPkg f).clusters = s.clusters := rfl
@[simp] theorem State.modPkg_dies (s : State) (f : Package → Package) : (s.modPkg f).dies = s.dies := rfl
@[simp] theorem State.modPkg_ctxs (s : State) (f : Package → Package) : (s.modPkg f).ctxs = s.ctxs := rfl
@[simp] theorem State.modPkg_parts (s : State) (f : Package → Package) : (s.modPkg f).parts = s.parts := rfl
@[simp] theorem State.modPkg_queues (s : State) (f : Package → Package) : (s.modPkg f).queues = s.queues := rfl
@[simp] theorem State.modPkg_launches (s : State) (f : Package → Package) : (s.modPkg f).launches = s.launches := rfl
@[simp] theorem State.modPkg_graphs (s : State) (f : Package → Package) : (s.modPkg f).graphs = s.graphs := rfl
@[simp] theorem State.modPkg_finishes (s : State) (f : Package → Package) : (s.modPkg f).finishes = s.finishes := rfl
@[simp] theorem State.modPkg_regions (s : State) (f : Package → Package) : (s.modPkg f).regions = s.regions := rfl
@[simp] theorem State.modPkg_pkg (s : State) (f : Package → Package) : (s.modPkg f).pkg = f s.pkg := rfl
@[simp] theorem State.modPkg_agenda (s : State) (f : Package → Package) : (s.modPkg f).agenda = s.agenda := rfl
@[simp] theorem State.modPkg_turn (s : State) (f : Package → Package) : (s.modPkg f).turn = s.turn := rfl
@[simp] theorem State.modPkg_free (s : State) (f : Package → Package) : (s.modPkg f).free = s.free := rfl
@[simp] theorem State.modPkg_issuer (s : State) (f : Package → Package) : (s.modPkg f).issuer = s.issuer := rfl
@[simp] theorem State.modPkg_nextSid (s : State) (f : Package → Package) : (s.modPkg f).nextSid = s.nextSid := rfl
@[simp] theorem State.modPkg_nextLaunch (s : State) (f : Package → Package) : (s.modPkg f).nextLaunch = s.nextLaunch := rfl


@[simp] theorem State.modWeft_core (s : State) (a b c : Nat) (f : Weft → Weft) : (s.modWeft a b f).core c = s.core c := rfl
@[simp] theorem State.modWeft_cluster (s : State) (a b c : Nat) (f : Weft → Weft) : (s.modWeft a b f).cluster c = s.cluster c := rfl
@[simp] theorem State.modWeft_die (s : State) (a b c : Nat) (f : Weft → Weft) : (s.modWeft a b f).die c = s.die c := rfl
@[simp] theorem State.modCluster_core (s : State) (a c : Nat) (f : Cluster → Cluster) : (s.modCluster a f).core c = s.core c := rfl
@[simp] theorem State.modCluster_die (s : State) (a c : Nat) (f : Cluster → Cluster) : (s.modCluster a f).die c = s.die c := rfl
@[simp] theorem State.modCluster_swatch? (s : State) (a c : Nat) (f : Cluster → Cluster) : (s.modCluster a f).swatch? c = s.swatch? c := rfl
@[simp] theorem State.modCluster_weft? (s : State) (a c d : Nat) (f : Cluster → Cluster) : (s.modCluster a f).weft? c d = s.weft? c d := rfl

theorem State.cluster_modCluster (s : State) (a c : Nat) (f : Cluster → Cluster) :
    (s.modCluster a f).cluster c = if c = a then f (s.cluster a) else s.cluster c := by
  unfold State.cluster State.modCluster
  by_cases h : c = a
  · subst h; simp [State.cluster]
  · simp [h, Tab.getD_put_ne _ _ _ h]

theorem State.core_modCore (s : State) (a c : Nat) (f : Core → Core) :
    (s.modCore a f).core c = if c = a then f (s.core a) else s.core c := by
  unfold State.core State.modCore
  by_cases h : c = a
  · subst h; simp [State.core]
  · simp [h, Tab.getD_put_ne _ _ _ h]

theorem State.die_modDie (s : State) (a c : Nat) (f : Die → Die) :
    (s.modDie a f).die c = if c = a then f (s.die a) else s.die c := by
  unfold State.die State.modDie
  by_cases h : c = a
  · subst h; simp [State.die]
  · simp [h, Tab.getD_put_ne _ _ _ h]

theorem State.swatch?_modSwatch (s : State) (a c : Nat) (f : Swatch → Swatch) :
    (s.modSwatch a f).swatch? c = if c = a then (s.swatch? a).map f else s.swatch? c := by
  unfold State.swatch? State.modSwatch
  simp only [Tab.get?_modify]

theorem State.swatch?_modWeft (s : State) (a b c : Nat) (f : Weft → Weft) :
    (s.modWeft a b f).swatch? c = if c = a then (s.swatch? a).map (fun sw => sw.modWeft b f) else s.swatch? c :=
  State.swatch?_modSwatch s a c _

theorem State.weft?_modWeft (s : State) (a b c d : Nat) (f : Weft → Weft) :
    (s.modWeft a b f).weft? c d = if c = a ∧ d = b then (s.weft? a b).map f else s.weft? c d := by
  unfold State.weft?
  rw [State.swatch?_modWeft]
  by_cases h : c = a
  · subst h
    cases hs : s.swatch? c with
    | none => simp
    | some sw => simp [Swatch.modWeft, Tab.get?_modify]
  · simp [h]

theorem Tab.put_put {α : Type} (t : Tab α) (k : Nat) (v w : α) : (t.put k v).put k w = t.put k w := by
  induction t with
  | nil => simp [Tab.put]
  | cons p t ih =>
    obtain ⟨k', v'⟩ := p
    simp only [Tab.put]
    by_cases h1 : k < k'
    · simp [h1, Tab.put]
    · by_cases h2 : k = k'
      · simp [h2, Tab.put]
      · simp [h1, h2, Tab.put, ih]

theorem Tab.modify_modify {α : Type} (t : Tab α) (k : Nat) (f g : α → α) :
    (t.modify k f).modify k g = t.modify k fun x => g (f x) := by
  unfold Tab.modify
  cases h : t.get? k with
  | none => simp [h]
  | some v => simp [Tab.put_put]

theorem State.modWeft_modWeft (s : State) (a b : Nat) (f g : Weft → Weft) :
    (s.modWeft a b f).modWeft a b g = s.modWeft a b fun w => g (f w) := by
  unfold State.modWeft State.modSwatch
  simp only [Tab.modify_modify]
  congr 2
  funext sw
  simp [Swatch.modWeft, Tab.modify_modify]

theorem State.modWeft_modCluster (s : State) (a b c : Nat) (f : Weft → Weft) (g : Cluster → Cluster) :
    (s.modWeft a b f).modCluster c g = (s.modCluster c g).modWeft a b f := rfl

end Sys2Proof.Machine
end

