-- ==== Sys2Proof/Laws/Issue.lean ====
section
/-!
SUPPORT. What an issue does once every check has passed: the state the meaning starts from, and
what retiring the word leaves.
-/
namespace Sys2Proof.Machine

/-! ## The site -/

theorem siteAt_fields (s : State) (sid wid : Nat) (sw : Swatch) (w : Weft) (e : Entry) (cl : Clause) :
    (s.siteAt sid wid sw w e cl).sid = sid ∧ (s.siteAt sid wid sw w e cl).wid = wid ∧
      (s.siteAt sid wid sw w e cl).sw = sw ∧ (s.siteAt sid wid sw w e cl).w = w ∧
      (s.siteAt sid wid sw w e cl).e = e.atWord ∧ (s.siteAt sid wid sw w e cl).cl = cl :=
  ⟨rfl, rfl, rfl, rfl, rfl, rfl⟩

theorem site?_spec {s : State} {k : Site} (h : s.site? = some k) :
    s.swatch? k.sid = some k.sw ∧ s.weft? k.sid k.wid = some k.w := by
  unfold State.site? State.siteOf at h
  split at h
  · cases h
  · split at h
    · rename_i hs hw
      split at h
      · cases h; exact ⟨hs, hw⟩
      · cases h
    · cases h

/-- The state in which the meaning runs: the clause counts as tested, the entry stands at its word,
one issue is charged and a freed read is noted. -/
def beginWeft (k : Site) (i : Instr) (w : Weft) : Weft :=
  { w.beginWord k.cl with
    frd := w.frd || (k.w.reads i.use).any fun r => k.w.isFreed r }

def charge (k : Site) (i : Instr) (tim : Nat) (c : Cluster) : Cluster :=
  let q := c.weight (energyClass i.op i.isF64 i.isDual)
  let c := (c.countIssue k.sw.ctx tim).noteLoad k.sw.ctx q
  match k.sw.control with
  | some _ => { c with unattr := (c.unattr + q) % 2 ^ 64 }
  | none => c.charge k.sw.ctx q

def State.begun (s : State) (k : Site) (i : Instr) : State :=
  (s.modCluster k.clu (charge k i s.tim)).modWeft k.sid k.wid (beginWeft k i)

theorem issue_begun (s : State) (k : Site) (i : Instr) :
    ((s.modWeft k.sid k.wid fun w => w.beginWord k.cl).chargeIssue k i.op i.isF64 i.isDual).noteFreed k i = s.begun k i := by
  unfold State.noteFreed State.begun
  split
  · rename_i h
    show ((State.modCluster s k.clu (charge k i s.tim)).modWeft k.sid k.wid _).modWeft k.sid k.wid _ = _
    rw [State.modWeft_modWeft]
    congr 1
    funext w
    simp [beginWeft, Weft.beginWord, h]
  · rename_i h
    show (State.modCluster s k.clu (charge k i s.tim)).modWeft k.sid k.wid _ = _
    congr 1
    funext w
    simp [beginWeft, Weft.beginWord, h]

/-- An issue that no check stops is its meaning, run from the begun state, and its finish. -/
theorem issue_eq {s : State} {i : Instr} {k : Site} (h : Issues s i k) (body : Site → State → Eff)
    (hb : ∀ s', body k (s.begun k i) ≠ .stall s') (hh : ∀ s' f, body k (s.begun k i) ≠ .hold s' f) :
    s.issue i body = .next (State.finish k i (body k (s.begun k i))) := by
  have hf : ∀ s', k.fallTrap (s.modWeft k.sid k.wid s') i = k.fallTrap s i := fun _ => rfl
  unfold State.issue
  rw [h.site]
  have ht : (!k.cl.tested && !k.w.waitMet k.e k.cl.h0) = false := by
    rcases h.tested with h | h <;> simp [h]
  simp only [ht, h.noWait, Option.isSome_none, Bool.false_eq_true, if_false, h.static, h.free, h.regs, hf,
    h.fall, Option.or_none]
  rw [issue_begun]
  cases hbe : body k (s.begun k i) with
  | stall s' => exact absurd hbe (hb s')
  | hold s' f => exact absurd hbe (hh s' f)
  | _ => rfl

/-! ## Registers -/

/-- The registers' cells and marks of two wefts agree at a register. -/
def SameReg (u w : Weft) : Reg → Prop
  | .v n => w.vregs.get? n = u.vregs.get? n ∧ w.vpoison.get? n = u.vpoison.get? n
  | .s n => w.sregs.get? n = u.sregs.get? n ∧ w.spoison.get? n = u.spoison.get? n

theorem SameReg.refl (w : Weft) (r : Reg) : SameReg w w r := by cases r <;> exact ⟨rfl, rfl⟩

theorem SameReg.trans {u v w : Weft} {r : Reg} (h : SameReg u v r) (h' : SameReg v w r) : SameReg u w r := by
  cases r <;> exact ⟨h'.1.trans h.1, h'.2.trans h.2⟩

theorem free_same (w : Weft) {r q : Reg} (h : q ≠ r) : SameReg w (w.free r) q := by
  cases r <;> cases q <;> simp only [Weft.free, SameReg] <;> split <;> simp_all [Tab.get?_put_ne, Tab.get?_del]

theorem free_rest (w : Weft) (r : Reg) : (w.free r).rest = w.rest ∧ (w.free r).preds = w.preds ∧
    (w.free r).fstat = w.fstat ∧ (w.free r).frontier = w.frontier ∧ (w.free r).replay = w.replay ∧
    (w.free r).trec = w.trec ∧ (w.free r).loupe = w.loupe := by
  cases r <;> simp only [Weft.free] <;> split <;> exact ⟨rfl, rfl, rfl, rfl, rfl, rfl, rfl⟩

theorem frees_rest (rs : List Reg) (w : Weft) : (rs.foldl Weft.free w).rest = w.rest ∧
    (rs.foldl Weft.free w).preds = w.preds ∧ (rs.foldl Weft.free w).fstat = w.fstat ∧
    (rs.foldl Weft.free w).frontier = w.frontier ∧ (rs.foldl Weft.free w).replay = w.replay ∧
    (rs.foldl Weft.free w).trec = w.trec ∧ (rs.foldl Weft.free w).loupe = w.loupe := by
  induction rs generalizing w with
  | nil => exact ⟨rfl, rfl, rfl, rfl, rfl, rfl, rfl⟩
  | cons r rs ih =>
    have h := free_rest w r
    have h' := ih (w.free r)
    exact ⟨h'.1.trans h.1, h'.2.1.trans h.2.1, h'.2.2.1.trans h.2.2.1, h'.2.2.2.1.trans h.2.2.2.1,
      h'.2.2.2.2.1.trans h.2.2.2.2.1, h'.2.2.2.2.2.1.trans h.2.2.2.2.2.1,
      h'.2.2.2.2.2.2.trans h.2.2.2.2.2.2⟩

theorem frees_same (rs : List Reg) (w : Weft) {q : Reg} (h : q ∉ rs) : SameReg w (rs.foldl Weft.free w) q := by
  induction rs generalizing w with
  | nil => exact SameReg.refl w q
  | cons r rs ih =>
    simp only [List.mem_cons, not_or] at h
    exact (free_same w h.1).trans (ih _ h.2)

theorem free_freed (w : Weft) (r : Reg) (h : w.allocated r = true) : (w.free r).isFreed r = true := by
  cases r with
  | v n =>
    cases hc : w.vregs.get? n with
    | none => simp [Weft.allocated, hc] at h
    | some c => simp [Weft.free, Weft.isFreed, hc]
  | s n =>
    cases hc : w.sregs.get? n with
    | none => simp [Weft.allocated, hc] at h
    | some c => simp [Weft.free, Weft.isFreed, hc]

theorem free_isFreed (w : Weft) (r q : Reg) (h : w.isFreed q = true) : (w.free r).isFreed q = true := by
  by_cases hq : q = r
  · subst hq
    cases q with
    | v n =>
      simp only [Weft.isFreed, beq_iff_eq] at h
      simp [Weft.free, Weft.isFreed, h]
    | s n =>
      simp only [Weft.isFreed, beq_iff_eq] at h
      simp [Weft.free, Weft.isFreed, h]
  · have := free_same w hq
    cases q <;> simp only [SameReg] at this <;> simp only [Weft.isFreed, this.1] at h ⊢ <;> exact h

theorem frees_isFreed (rs : List Reg) (w : Weft) (q : Reg) (h : w.isFreed q = true) :
    (rs.foldl Weft.free w).isFreed q = true := by
  induction rs generalizing w with
  | nil => exact h
  | cons r rs ih => exact ih _ (free_isFreed w r q h)

theorem frees_freed (rs : List Reg) (w : Weft) {q : Reg} (h : q ∈ rs) (ha : w.allocated q = true) :
    (rs.foldl Weft.free w).isFreed q = true := by
  induction rs generalizing w with
  | nil => cases h
  | cons r rs ih =>
    by_cases hq : q = r
    · subst hq; exact frees_isFreed rs _ q (free_freed w q ha)
    · have hm : q ∈ rs := by simpa [hq] using h
      apply ih _ hm
      have := free_same w hq
      cases q <;> simp only [SameReg] at this <;> simp only [Weft.allocated, this.1] at ha ⊢ <;> exact ha

/-! ## Retiring -/

/-- What retiring the word leaves of the weft `u` that its meaning produced. -/
structure Retired (k : Site) (i : Instr) (u w : Weft) : Prop where
  rest : w.rest = u.rest
  preds : w.preds = u.preds
  fstat : w.fstat = u.fstat
  same : ∀ r, r ∉ k.frees k.w i → SameReg u w r
  freed : ∀ r, r ∈ k.frees k.w i → u.allocated r = true → w.isFreed r = true

theorem retireWeft_retired {k : Site} {i : Instr} {u : Weft} (hw : u.wait = none)
    (hf : k.frees u i = k.frees k.w i) : Retired k i u (k.retireWeft i u) := by
  have h := frees_rest (k.frees u i) u
  constructor
  · have e : (k.retireWeft i u).rest = { ((k.frees u i).foldl Weft.free u).rest with wait := none } := by
      simp only [Site.retireWeft, Weft.rest]
      congr 1
      split <;> rfl
    rw [e, h.1]
    simp [Weft.rest, hw]
  · exact h.2.1
  · exact h.2.2.1
  · intro r hr
    exact frees_same _ u (hf ▸ hr)
  · intro r hr ha
    have := frees_freed (k.frees u i) u (hf ▸ hr) ha
    cases r <;> exact this

theorem Retired.endClause {k : Site} {i : Instr} {u w : Weft} (h : Retired k i u w) (fr : List Entry) :
    Retired k i u (w.endClause fr) :=
  ⟨h.rest, h.preds, h.fstat, fun r hr => by have := h.same r hr; cases r <;> exact this,
    fun r hr ha => by have := h.freed r hr ha; cases r <;> exact this⟩

theorem Retired.nextWord {k : Site} {i : Instr} {u w : Weft} (h : Retired k i u w) (pc : Word) :
    Retired k i u (w.nextWord pc) :=
  ⟨h.rest, h.preds, h.fstat, fun r hr => by have := h.same r hr; cases r <;> exact this,
    fun r hr ha => by have := h.freed r hr ha; cases r <;> exact this⟩

theorem charge_rest (k : Site) (i : Instr) (tim : Nat) (c : Cluster) : (charge k i tim c).rest = c.rest := by
  have h : ∀ (x : Cluster) (ctx : Word) (q : Nat), (x.charge ctx q).rest = x.rest := by
    intro x ctx q
    unfold Cluster.charge
    split <;> rfl
  unfold charge
  cases k.sw.control with
  | some _ => rfl
  | none => exact (h _ _ _).trans rfl

/-- A state that differs from `s` by the charge and by one function on the issuing weft. -/
theorem onlyWeft_modWeft {s : State} {i : Instr} {k : Site} (h : s.site? = some k) (F : Weft → Weft) :
    OnlyWeft s ((s.modCluster k.clu (charge k i s.tim)).modWeft k.sid k.wid F) k (F k.w) := by
  have hk := site?_spec h
  refine ⟨?_, rfl, ?_, ?_, ?_, ?_⟩
  · rw [State.weft?_modWeft]; simp [hk.2]
  · intro sid wid hne
    rw [State.weft?_modWeft, if_neg (by simpa using hne)]; rfl
  · intro sid
    rw [State.swatch?_modWeft]
    split
    · rename_i e; subst e
      rw [show (State.modCluster s k.clu (charge k i s.tim)).swatch? k.sid = s.swatch? k.sid from rfl, hk.1]
      rfl
    · rfl
  · intro c hc
    rw [State.modWeft_cluster, State.cluster_modCluster, if_neg hc]
  · rw [State.modWeft_cluster, State.cluster_modCluster, if_pos rfl]
    exact charge_rest k i s.tim _

/-- What a completed instruction leaves: the weft its meaning made, retired, and nothing else changed. -/
theorem finish_done {s : State} {i : Instr} {k : Site} (h : Issues s i k) {f : Weft → Weft} {u : Weft}
    (hu : f (beginWeft k i k.w) = u) (hw : u.wait = none) (hf : k.frees u i = k.frees k.w i) :
    ∃ w, OnlyWeft s (State.finish k i (.done ((s.begun k i).modWeft k.sid k.wid f))) k w ∧
      Retired k i u w := by
  have hk := site?_spec h.site
  have he : u.endWait = u := by simp [Weft.endWait, hw]
  have e : (((s.begun k i).modWeft k.sid k.wid f).modWeft k.sid k.wid Weft.endWait).modWeft k.sid k.wid
      (k.retireWeft i) = (s.modCluster k.clu (charge k i s.tim)).modWeft k.sid k.wid
        fun w => k.retireWeft i (f (beginWeft k i w)).endWait := by
    simp only [State.begun, State.modWeft_modWeft]
  have hr := retireWeft_retired hw hf
  simp only [State.finish, State.retire, e]
  split
  · rw [State.weft?_modWeft]
    simp only [and_self, if_true, State.modCluster_weft?, hk.2, Option.map_some, State.modWeft_modWeft]
    refine ⟨_, onlyWeft_modWeft h.site _, ?_⟩
    simp only [hu, he]
    exact hr.endClause _
  · rw [State.modWeft_modWeft]
    refine ⟨_, onlyWeft_modWeft h.site _, ?_⟩
    simp only [hu, he]
    exact hr.nextWord _

end Sys2Proof.Machine
end

