-- ==== Sys2Proof/Laws/Alu.lean ====
section
/-!
SUPPORT. What writing a group of registers leaves, and what a fixed-latency register instruction does
once it issues.
-/
namespace Sys2Proof.Machine

/-! ## Lanes -/

theorem laneIds_get {l : Nat} (h : l < 32) : laneIds.getD l 0 = l := by
  revert h; revert l; decide

theorem mem_laneIds {l : Nat} : l ∈ laneIds ↔ l < 32 := by
  constructor
  · intro h
    simp only [laneIds, List.mem_cons, List.not_mem_nil, or_false] at h
    omega
  · intro h
    revert h; revert l; decide

theorem laneAt_lanesFn (f : Nat → Word) {l : Nat} (h : l < 32) : laneAt (lanesFn f) l = f l := by
  have hl : l < laneIds.length := by simpa [laneIds] using h
  have hg : laneIds[l] = l := by
    have := laneIds_get h
    rwa [List.getD_eq_getElem?_getD, List.getElem?_eq_getElem hl] at this
  simp [laneAt, lanesFn, List.getD_eq_getElem?_getD, hl, hg]

theorem mem_lanesOf {m : Mask} {l : Nat} : l ∈ lanesOf m ↔ l < 32 ∧ m.getLsbD l = true := by
  simp [lanesOf, mem_laneIds]

theorem mem_lanesFor {k : Site} {d : Dst} {l : Nat} (h : l ∈ k.lanesFor d) :
    l < 32 ∧ k.act.getLsbD l = true := by
  cases d with
  | v n => exact mem_lanesOf.1 h
  | s n => exact mem_lanesOf.1 (List.mem_of_mem_take h)

theorem get?_map_lane {α : Type} (ls : List Nat) (f : Nat → α) (l : Nat) :
    Tab.get? (ls.map fun l => (l, f l)) l = if l ∈ ls then some (f l) else none := by
  induction ls with
  | nil => rfl
  | cons x xs ih =>
    simp only [List.map_cons, Tab.get?, ih, List.mem_cons]
    by_cases h : x = l
    · subst h; simp
    · have h' : ¬ l = x := fun e => h e.symm
      simp [h, h']

/-! ## Writing registers -/

theorem vput_same (w : Weft) (n : Nat) (m : Mask) (x : Lanes) {q : Reg} (h : q ≠ .v n) :
    SameReg w (w.vput n m x) q := by
  cases q with
  | v j =>
    have hj : j ≠ n := fun e => h (by rw [e])
    simp only [SameReg, Weft.vput, Tab.get?_put_ne _ _ hj, Tab.get?_del, if_neg hj]
    simp
  | s j => exact ⟨rfl, rfl⟩

theorem sput_same (w : Weft) (n : Nat) (x : Word) {q : Reg} (h : q ≠ .s n) :
    SameReg w (w.sput n x) q := by
  cases q with
  | s j =>
    have hj : j ≠ n := fun e => h (by rw [e])
    simp only [SameReg, Weft.sput, Tab.get?_put_ne _ _ hj, Tab.get?_del, if_neg hj]
    simp
  | v j => exact ⟨rfl, rfl⟩

/-- Consecutive vector registers written in the lanes of a mask. -/
def vputs (w : Weft) (b : Nat) (m : Mask) (x : Nat → Lanes) (g : Nat) : Weft :=
  (List.range g).foldl (fun w j => w.vput (b + j) m (x j)) w

def sputs (w : Weft) (b : Nat) (x : Nat → Word) (g : Nat) : Weft :=
  (List.range g).foldl (fun w j => w.sput (b + j) (x j)) w

theorem vputs_succ (w : Weft) (b : Nat) (m : Mask) (x : Nat → Lanes) (g : Nat) :
    vputs w b m x (g + 1) = (vputs w b m x g).vput (b + g) m (x g) := by
  simp [vputs, List.range_succ]

theorem sputs_succ (w : Weft) (b : Nat) (x : Nat → Word) (g : Nat) :
    sputs w b x (g + 1) = (sputs w b x g).sput (b + g) (x g) := by
  simp [sputs, List.range_succ]

/-- What writing a group leaves of the weft. -/
structure PutKept (w u : Weft) : Prop where
  rest : u.rest = w.rest
  preds : u.preds = w.preds
  fstat : u.fstat = w.fstat
  frontier : u.frontier = w.frontier
  wait : u.wait = w.wait
  vwin : u.vwin = w.vwin
  swin : u.swin = w.swin

theorem PutKept.refl (w : Weft) : PutKept w w := ⟨rfl, rfl, rfl, rfl, rfl, rfl, rfl⟩

theorem PutKept.trans {u v w : Weft} (h : PutKept u v) (h' : PutKept v w) : PutKept u w :=
  ⟨h'.rest.trans h.rest, h'.preds.trans h.preds, h'.fstat.trans h.fstat, h'.frontier.trans h.frontier,
    h'.wait.trans h.wait, h'.vwin.trans h.vwin, h'.swin.trans h.swin⟩

theorem vputs_kept (w : Weft) (b : Nat) (m : Mask) (x : Nat → Lanes) (g : Nat) :
    PutKept w (vputs w b m x g) := by
  induction g with
  | zero => exact PutKept.refl w
  | succ g ih => rw [vputs_succ]; exact ih.trans ⟨rfl, rfl, rfl, rfl, rfl, rfl, rfl⟩

theorem sputs_kept (w : Weft) (b : Nat) (x : Nat → Word) (g : Nat) : PutKept w (sputs w b x g) := by
  induction g with
  | zero => exact PutKept.refl w
  | succ g ih => rw [sputs_succ]; exact ih.trans ⟨rfl, rfl, rfl, rfl, rfl, rfl, rfl⟩

theorem vputs_same (w : Weft) (b : Nat) (m : Mask) (x : Nat → Lanes) (g : Nat) {q : Reg}
    (h : ∀ j, j < g → q ≠ .v (b + j)) : SameReg w (vputs w b m x g) q := by
  induction g with
  | zero => exact SameReg.refl w q
  | succ g ih =>
    rw [vputs_succ]
    exact (ih fun j hj => h j (by omega)).trans (vput_same _ _ _ _ (h g (by omega)))

theorem sputs_same (w : Weft) (b : Nat) (x : Nat → Word) (g : Nat) {q : Reg}
    (h : ∀ j, j < g → q ≠ .s (b + j)) : SameReg w (sputs w b x g) q := by
  induction g with
  | zero => exact SameReg.refl w q
  | succ g ih =>
    rw [sputs_succ]
    exact (ih fun j hj => h j (by omega)).trans (sput_same _ _ _ (h g (by omega)))

theorem vget_of_same {u w : Weft} {n : Nat} (h : SameReg u w (.v n)) : w.vget n = u.vget n := by
  simp only [Weft.vget, h.1]

theorem sget_of_same {u w : Weft} {n : Nat} (h : SameReg u w (.s n)) : w.sget n = u.sget n := by
  simp only [Weft.sget, h.1]

theorem vputs_vget (w : Weft) (b : Nat) (m : Mask) (x : Nat → Lanes) {g j : Nat} (h : j < g) :
    (vputs w b m x g).vget (b + j) = mergeLanes m (x j) (w.vget (b + j)) := by
  induction g with
  | zero => omega
  | succ g ih =>
    rw [vputs_succ]
    by_cases hj : j = g
    · subst hj
      rw [← vget_of_same (vputs_same w b m x j (q := .v (b + j)) fun i hi => by simp; omega)]
      simp [Weft.vget, Weft.vput]
    · rw [vget_of_same (vput_same _ _ _ _ (q := .v (b + j)) (by simpa using hj))]
      exact ih (by omega)

theorem sputs_sget (w : Weft) (b : Nat) (x : Nat → Word) {g j : Nat} (h : j < g) :
    (sputs w b x g).sget (b + j) = x j := by
  induction g with
  | zero => omega
  | succ g ih =>
    rw [sputs_succ]
    by_cases hj : j = g
    · subst hj; simp [Weft.sget, Weft.sput]
    · rw [sget_of_same (sput_same _ _ _ (q := .s (b + j)) (by simpa using hj))]
      exact ih (by omega)

theorem mem_rangeFrom {a g n : Nat} : n ∈ rangeFrom a g ↔ a ≤ n ∧ n < a + g := by
  induction g generalizing a with
  | zero => simp [rangeFrom]
  | succ g ih =>
    simp only [rangeFrom, List.mem_cons, ih]
    omega

/-! ## A group of results -/

/-- `put` with the table of the lanes computed for. -/
theorem put_spec (k : Site) (w : Weft) (d : Dst) (g : Nat) (F : Nat → List Word) :
    let u := k.put w d g ((k.lanesFor d).map fun l => (l, F l))
    PutKept w u ∧
      (∀ q, (∀ n j, d = .v n → j < g → q ≠ .v (16 * k.w.vwin + n.val + j)) →
        (∀ n j, d = .s n → j < g → q ≠ .s (16 * k.w.swin + n.val + j)) → SameReg w u q) ∧
      (∀ l, l ∈ k.lanesFor d → ∀ j, j < g → k.after u d j l = (F l).getD j 0) ∧
      (∀ n, d = .v n → ∀ l, l < 32 → k.act.getLsbD l = false → ∀ j, j < g →
        k.after u d j l = k.after w d j l) := by
  cases d with
  | v n =>
    simp only [Site.put]
    split
    · rename_i he
      have hn : k.lanesFor (.v n) = [] := by
        cases hl : k.lanesFor (.v n) with
        | nil => rfl
        | cons a as => simp [hl] at he
      exact ⟨PutKept.refl w, fun q _ _ => SameReg.refl w q, by simp [hn], fun _ _ _ _ _ _ _ => rfl⟩
    · refine ⟨vputs_kept w (16 * k.w.vwin + n.val) k.act _ g,
        fun q h _ => vputs_same w _ _ _ g fun j hj => h n j rfl hj, ?_, ?_⟩
      · intro l hl j hj
        have hl' := mem_lanesFor hl
        show laneAt ((vputs w (16 * k.w.vwin + n.val) k.act _ g).vget _) l = _
        rw [vputs_vget w _ _ _ hj, mergeLanes, laneAt_lanesFn _ hl'.1, if_pos hl'.2, laneAt_lanesFn _ hl'.1]
        simp [Tab.getD, get?_map_lane, hl]
      · intro _ _ l hl ha j hj
        show laneAt ((vputs w (16 * k.w.vwin + n.val) k.act _ g).vget _) l = _
        rw [vputs_vget w _ _ _ hj, mergeLanes, laneAt_lanesFn _ hl, if_neg (by simp [ha])]
        rfl
  | s n =>
    simp only [Site.put]
    cases hl : k.lanesFor (.s n) with
    | nil => exact ⟨PutKept.refl w, fun q _ _ => SameReg.refl w q, by simp, fun _ h => by cases h⟩
    | cons a as =>
      have has : as = [] := by
        have : (k.lanesFor (.s n)).length ≤ 1 := by simp [Site.lanesFor] <;> omega
        rw [hl] at this
        cases as with
        | nil => rfl
        | cons b bs => simp at this
      subst has
      refine ⟨sputs_kept w (16 * k.w.swin + n.val) (fun j => (F a).getD j 0) g,
        fun q _ h => sputs_same w _ _ g fun j hj => h n j rfl hj, ?_, fun _ h => by cases h⟩
      intro l hm j hj
      have : l = a := by simpa using hm
      subst this
      show (sputs w (16 * k.w.swin + n.val) (fun j => (F l).getD j 0) g).sget _ = _
      rw [sputs_sget w _ _ hj]

theorem mem_writes {w : Weft} {u : Use} {d : Dst} {g : Nat} (h : u.w = some (d, g)) (q : Reg) :
    q ∈ w.writes u ↔ (∃ n j, d = .v n ∧ j < g ∧ q = .v (16 * w.vwin + n.val + j)) ∨
      (∃ n j, d = .s n ∧ j < g ∧ q = .s (16 * w.swin + n.val + j)) := by
  unfold Weft.writes
  rw [h]
  cases d with
  | v n =>
    simp only [Weft.regsOf, List.mem_map, mem_rangeFrom]
    constructor
    · rintro ⟨m, hm, rfl⟩
      exact .inl ⟨n, m - (16 * w.vwin + n.val), rfl, by omega, by congr 1; omega⟩
    · rintro (⟨n', j, e, hj, rfl⟩ | ⟨n', j, e, _⟩)
      · cases e; exact ⟨_, by omega, rfl⟩
      · cases e
  | s n =>
    simp only [Weft.regsOf, List.mem_map, mem_rangeFrom]
    constructor
    · rintro ⟨m, hm, rfl⟩
      exact .inr ⟨n, m - (16 * w.swin + n.val), rfl, by omega, by congr 1; omega⟩
    · rintro (⟨n', j, e, _⟩ | ⟨n', j, e, hj, rfl⟩)
      · cases e
      · cases e; exact ⟨_, by omega, rfl⟩

/-- A register that the word writes is not one it frees (R110). -/
theorem frees_not_writes {k : Site} {w : Weft} {i : Instr} {r : Reg} (h : r ∈ k.frees w i) :
    r ∉ w.writes i.use := by
  simp only [Site.frees, List.mem_filter, Bool.and_eq_true, Bool.not_eq_true', List.contains_eq_mem,
    decide_eq_false_iff_not] at h
  exact h.2.1

/-- Freed registers depend on the windows and the live lanes alone. -/
theorem frees_congr {k : Site} {i : Instr} {u w : Weft} (h : u.rest = w.rest) : k.frees u i = k.frees w i := by
  have hv : u.vwin = w.vwin := show u.rest.vwin = w.rest.vwin from congrArg _ h
  have hs : u.swin = w.swin := show u.rest.swin = w.rest.swin from congrArg _ h
  have hl : u.live = w.live := show u.rest.live = w.rest.live from congrArg _ h
  have hr : ∀ a g, u.regsOf a g = w.regsOf a g := by
    intro a g
    cases a <;> simp [Weft.regsOf, hv, hs]
  have hw : u.writes i.use = w.writes i.use := by
    unfold Weft.writes
    split <;> simp [hr]
  simp only [Site.frees, hr, hw, hl]

theorem beginWeft_kept (k : Site) (i : Instr) (w : Weft) :
    (beginWeft k i w).rest = w.rest ∧ (beginWeft k i w).preds = w.preds ∧
      (beginWeft k i w).fstat = w.fstat ∧ (beginWeft k i w).vwin = w.vwin ∧
      (beginWeft k i w).swin = w.swin ∧ (beginWeft k i w).wait = w.wait ∧
      ∀ r, SameReg w (beginWeft k i w) r :=
  ⟨rfl, rfl, rfl, rfl, rfl, rfl, fun r => by cases r <;> exact ⟨rfl, rfl⟩⟩

theorem foldl_or_bits {α : Type} (xs : List (Nat × α × FBits)) (x : FBits) (b : Nat) :
    (xs.foldl (fun b r => b ||| r.2.2) x).getLsbD b = (x.getLsbD b || xs.any fun r => r.2.2.getLsbD b) := by
  induction xs generalizing x with
  | nil => simp
  | cons y ys ih => simp [ih, Bool.or_assoc]

/-- A FIXED-LATENCY REGISTER RESULT: the instruction completes, its destination holds the lanes' results, every
other register keeps its contents, and nothing else of the machine moves. -/
theorem alu_completes {s : State} {i : Instr} {k : Site} (h : Issues s i k) {d : Dst} {g : Nat}
    (hw : i.use.w = some (d, g)) (f : Nat → List Word × FBits) :
    ∃ w, OnlyWeft s (State.finish k i (k.alu (s.begun k i) d g f)) k w ∧ w.rest = k.w.rest ∧
      w.preds = k.w.preds ∧ RegsKept k i w ∧ Result k w d g (fun l => (f l).1) fun l => (f l).2 := by
  have hb := beginWeft_kept k i k.w
  let F : Weft → Weft := fun w =>
    { k.put w d g (((k.lanesFor d).map fun l => (l, f l)).map fun r => (r.1, r.2.1)) with
      fstat := w.fstat ||| ((k.lanesFor d).map fun l => (l, f l)).foldl (fun b r => b ||| r.2.2) (0 : FBits) }
  have hm : (((k.lanesFor d).map fun l => (l, f l)).map fun r => (r.1, r.2.1)) =
      (k.lanesFor d).map fun l => (l, (f l).1) := by simp
  have hp := put_spec k (beginWeft k i k.w) d g (fun l => (f l).1)
  simp only at hp
  obtain ⟨hk, hsame, hval, hoth⟩ := hp
  let u := F (beginWeft k i k.w)
  have hu : u = { k.put (beginWeft k i k.w) d g ((k.lanesFor d).map fun l => (l, (f l).1)) with
      fstat := u.fstat } := by simp only [u, F, hm]
  have hur : u.rest = k.w.rest := by
    rw [hu]; exact hk.rest
  have huw : u.wait = none := by rw [hu]; exact hk.wait.trans (hb.2.2.2.2.2.1.trans h.noWait)
  have huf : k.frees u i = k.frees k.w i := frees_congr hur
  obtain ⟨w, ho, hret⟩ := finish_done h (f := F) (u := u) rfl huw huf
  have hus : ∀ q, q ∉ k.w.writes i.use → SameReg k.w u q := by
    intro q hq
    rw [mem_writes hw] at hq
    have h1 := hsame q (fun n j e hj eq => hq (.inl ⟨n, j, e, hj, eq⟩))
      (fun n j e hj eq => hq (.inr ⟨n, j, e, hj, eq⟩))
    have h2 := (hb.2.2.2.2.2.2 q).trans h1
    rw [hu]
    cases q <;> exact h2
  have hnf : ∀ q, q ∈ k.w.writes i.use → q ∉ k.frees k.w i := fun q hq hf => frees_not_writes hf hq
  have hafter : ∀ j l, j < g → k.after w d j l = k.after (k.put (beginWeft k i k.w) d g
      ((k.lanesFor d).map fun l => (l, (f l).1))) d j l := by
    intro j l hj
    cases d with
    | v n =>
      have hs := hret.same (.v (16 * k.w.vwin + n.val + j)) (hnf _ ((mem_writes hw _).2
        (.inl ⟨n, j, rfl, hj, rfl⟩)))
      rw [hu] at hs
      simp only [Site.after, Weft.vget, hs.1]
    | s n =>
      have hs := hret.same (.s (16 * k.w.swin + n.val + j)) (hnf _ ((mem_writes hw _).2
        (.inr ⟨n, j, rfl, hj, rfl⟩)))
      rw [hu] at hs
      simp only [Site.after, Weft.sget, hs.1]
  refine ⟨w, ho, hret.rest.trans hur, hret.preds.trans ?_, ⟨?_, ?_, ?_⟩, ⟨?_, ?_, ?_⟩⟩
  · rw [hu]; exact hk.preds
  · intro n h1 h2
    exact (hus _ h1).trans (hret.same _ h2)
  · intro n h1 h2
    exact (hus _ h1).trans (hret.same _ h2)
  · intro r hr ha
    apply hret.freed r hr
    have := hus r (frees_not_writes hr)
    cases r <;> simp only [SameReg] at this <;> simp only [Weft.allocated, this.1] at ha ⊢ <;> exact ha
  · intro l hl j hj
    rw [hafter j l hj, hval l hl j hj]
  · intro n e l hl ha j hj
    rw [hafter j l hj, hoth n e l hl ha j hj]
    subst e
    rfl
  · intro b _
    rw [hret.fstat]
    show (k.w.fstat ||| _).getLsbD b = _
    rw [BitVec.getLsbD_or, foldl_or_bits]
    simp [List.any_map, Function.comp_def]

/-! ## Predicates -/

theorem pred_pput (w : Weft) (p q : Nat) (m v : Mask) :
    (w.pput p m v).pred q = if q = p then (w.pred p &&& ~~~m) ||| (v &&& m) else w.pred q := by
  unfold Weft.pput Weft.pred
  by_cases h : q = p
  · subst h; simp
  · simp [h, Tab.getD_store_ne _ _ _ _ h]

theorem getLsbD_foldl_lanes (ls : List (Nat × Bool × FBits)) (x : Mask) (l : Nat) (hl : l < 32) :
    (ls.foldl (fun m r => if r.2.1 then m ||| (1#32 <<< r.1) else m) x).getLsbD l =
      (x.getLsbD l || ls.any fun r => r.2.1 && r.1 == l) := by
  induction ls generalizing x with
  | nil => simp
  | cons y ys ih =>
    rw [List.foldl_cons, ih, List.any_cons]
    cases hy : y.2.1
    · simp
    · simp only [if_true, BitVec.getLsbD_or, Bool.true_and, ← Bool.or_assoc]
      congr 2
      rw [BitVec.getLsbD_shiftLeft]
      by_cases e : y.1 = l
      · subst e; simp [hl]
      · have e' : ¬ l - y.1 = 0 ∨ l < y.1 := by omega
        rcases e' with e' | e'
        · simp [e, e', hl]
        · simp [e, e']

theorem pred_completes {s : State} {i : Instr} {k : Site} (h : Issues s i k)
    {f : Weft → Weft} {u : Weft} (hu : f (beginWeft k i k.w) = u)
    (hk : u.rest = k.w.rest ∧ ∀ q, SameReg (beginWeft k i k.w) u q) :
    ∃ w, OnlyWeft s (State.finish k i (.done ((s.begun k i).modWeft k.sid k.wid f))) k w ∧
      w.rest = k.w.rest ∧ RegsKept k i w ∧ w.preds = u.preds ∧ w.fstat = u.fstat := by
  have hb := beginWeft_kept k i k.w
  have hf : ∀ x y : Weft, x.rest = y.rest → x.vwin = y.vwin ∧ x.swin = y.swin ∧ x.wait = y.wait :=
    fun x y e => ⟨show x.rest.vwin = y.rest.vwin from congrArg _ e, show x.rest.swin = y.rest.swin from congrArg _ e,
      show x.rest.wait = y.rest.wait from congrArg _ e⟩
  have hr := hf _ _ hk.1
  have huw : u.wait = none := hr.2.2.trans h.noWait
  have huf : k.frees u i = k.frees k.w i := frees_congr hk.1
  obtain ⟨w, ho, hret⟩ := finish_done h hu huw huf
  have hs : ∀ q, SameReg k.w u q := fun q => (hb.2.2.2.2.2.2 q).trans (hk.2 q)
  refine ⟨w, ho, hret.rest.trans hk.1, ⟨?_, ?_, ?_⟩, hret.preds, hret.fstat⟩
  · intro n _ h2; exact (hs (.v n)).trans (hret.same _ h2)
  · intro n _ h2; exact (hs (.s n)).trans (hret.same _ h2)
  · intro r hr' ha
    apply hret.freed r hr'
    have := hs r
    cases r <;> simp only [SameReg] at this <;> simp only [Weft.allocated, this.1] at ha ⊢ <;> exact ha

/-- A PREDICATE RESULT: lane by lane in the active lanes, with fstat bits. -/
theorem setPred_completes {s : State} {i : Instr} {k : Site} (h : Issues s i k)
    (p : PReg) (f : Nat → Bool × FBits) :
    ∃ w, OnlyWeft s (State.finish k i (k.setPred (s.begun k i) p f)) k w ∧ w.rest = k.w.rest ∧
      RegsKept k i w ∧ PredResult k w p (fun l => (f l).1) ∧
      ∀ b, b < 6 → w.fstat.getLsbD b =
        (k.w.fstat.getLsbD b || (lanesOf k.act).any fun l => (f l).2.getLsbD b) := by
  have hb := beginWeft_kept k i k.w
  let M : Mask := ((lanesOf k.act).map fun l => (l, f l)).foldl
    (fun m r => if r.2.1 then m ||| (1#32 <<< r.1) else m) 0
  obtain ⟨w, ho, hr, hkept, hp, hf⟩ := pred_completes h (f := fun w =>
    { w.pput p.val k.act M with
      fstat := w.fstat ||| ((lanesOf k.act).map fun l => (l, f l)).foldl (fun b r => b ||| r.2.2) (0 : FBits) })
    rfl ⟨hb.1, fun q => by cases q <;> exact ⟨rfl, rfl⟩⟩
  refine ⟨w, ho, hr, hkept, ⟨?_, ?_⟩, ?_⟩
  · intro l hl
    have e : w.pred p.val = ((beginWeft k i k.w).pput p.val k.act M).pred p.val := by
      simp only [Weft.pred, hp]
    rw [e, pred_pput, if_pos rfl]
    have e2 : (beginWeft k i k.w).pred p.val = k.w.pred p.val := by simp only [Weft.pred, hb.2.1]
    rw [e2, BitVec.getLsbD_or, BitVec.getLsbD_and, BitVec.getLsbD_and, BitVec.getLsbD_not,
      getLsbD_foldl_lanes _ _ _ hl]
    cases ha : k.act.getLsbD l
    · simp [hl]
    · have : ((lanesOf k.act).any fun x => (f x).1 && x == l) = (f l).1 := by
        cases hfl : (f l).1
        · simp only [List.any_eq_false, Bool.and_eq_true, beq_iff_eq, not_and]
          intro x _ hx e; subst e; simp [hfl] at hx
        · simp only [List.any_eq_true, Bool.and_eq_true, beq_iff_eq]
          exact ⟨l, mem_lanesOf.2 ⟨hl, ha⟩, hfl, rfl⟩
      simp [List.any_map, Function.comp_def, this]
  · intro q hq
    have e : w.pred q = ((beginWeft k i k.w).pput p.val k.act M).pred q := by
      simp only [Weft.pred, hp]
    rw [e, pred_pput, if_neg hq]
    simp only [Weft.pred, hb.2.1]
  · intro b _
    rw [hf]
    show ((beginWeft k i k.w).fstat ||| _).getLsbD b = _
    rw [BitVec.getLsbD_or, foldl_or_bits, hb.2.2.1]
    simp [List.any_map, Function.comp_def]

/-- A whole mask put into a predicate. -/
theorem setPredMask_completes {s : State} {i : Instr} {k : Site} (h : Issues s i k)
    (p : PReg) (m : Mask) :
    ∃ w, OnlyWeft s (State.finish k i (k.setPredMask (s.begun k i) p m)) k w ∧ w.rest = k.w.rest ∧
      RegsKept k i w ∧ PredResult k w p (fun l => m.getLsbD l) ∧ w.fstat = k.w.fstat := by
  have hb := beginWeft_kept k i k.w
  obtain ⟨w, ho, hr, hkept, hp, hf⟩ := pred_completes h (f := fun w => w.pput p.val k.act m)
    rfl ⟨hb.1, fun q => by cases q <;> exact ⟨rfl, rfl⟩⟩
  refine ⟨w, ho, hr, hkept, ⟨?_, ?_⟩, hf⟩
  · intro l hl
    have e : w.pred p.val = ((beginWeft k i k.w).pput p.val k.act m).pred p.val := by
      simp only [Weft.pred, hp]
    have e2 : (beginWeft k i k.w).pred p.val = k.w.pred p.val := by simp only [Weft.pred, hb.2.1]
    rw [e, pred_pput, if_pos rfl, e2, BitVec.getLsbD_or, BitVec.getLsbD_and, BitVec.getLsbD_and,
      BitVec.getLsbD_not]
    cases k.act.getLsbD l <;> simp [hl]
  · intro q hq
    have e : w.pred q = ((beginWeft k i k.w).pput p.val k.act m).pred q := by
      simp only [Weft.pred, hp]
    rw [e, pred_pput, if_neg hq]
    simp only [Weft.pred, hb.2.1]

end Sys2Proof.Machine
end

