-- ==== Sys2Proof/Laws/Collective.lean ====
section
/-!
SUPPORT. What telling and sharing do to the machine: messages go to the other members of a collective, and the die notes
that they have gone (R401).
-/
namespace Sys2Proof.Machine

/-- Only messages are added. -/
theorem State.collSend_sent (s : State) (die : Nat) (c : Coll) (dest : List Nat) (body : List Byte) :
    ∃ ms, s.collSend die c dest body = { s with pkg := { s.pkg with sent := s.pkg.sent ++ ms } } := ⟨_, rfl⟩

theorem State.collSends_sent (die : Nat) (c : Coll) (dest : List Nat) (l : List (List Byte)) (s : State) :
    ∃ ms, l.foldl (fun s b => s.collSend die c dest (1 :: b)) s = { s with pkg := { s.pkg with sent := s.pkg.sent ++ ms } } := by
  induction l generalizing s with
  | nil => exact ⟨[], by simp⟩
  | cons b l ih =>
    obtain ⟨ms, h⟩ := ih (s.collSend die c dest (1 :: b))
    rw [List.foldl_cons, h]
    simp only [State.collSend, State.modPkg, List.append_assoc]
    exact ⟨_, rfl⟩

/-- Telling the verdict: messages and the die's note. -/
theorem State.collTell_changes (s : State) (die id : Nat) :
    ∃ ms ds, s.collTell die id = { s with pkg := { s.pkg with sent := s.pkg.sent ++ ms }, dies := ds } := by
  unfold State.collTell
  split
  · exact ⟨[], s.dies, by simp⟩
  · split
    · exact ⟨[], s.dies, by simp⟩
    · exact ⟨_, _, rfl⟩

/-- Sharing the source: messages and the die's note. -/
theorem State.collShare_changes (s : State) (die id : Nat) :
    ∃ ms ds, s.collShare die id = { s with pkg := { s.pkg with sent := s.pkg.sent ++ ms }, dies := ds } := by
  unfold State.collShare
  split
  · exact ⟨[], s.dies, by simp⟩
  · split
    · exact ⟨[], s.dies, by simp⟩
    · simp only
      obtain ⟨ms, h⟩ := State.collSends_sent die _ _ _ s
      exact ⟨ms, _, by rw [h]; rfl⟩

end Sys2Proof.Machine
end

