-- ==== Sys2Proof/Laws/Encoding.lean ====
section
/-!
SUPPORT. The fields of an encoded word: what each bit range of `enc4`, `enc11` and `enc18` reads
as, and that an operand code is read back as the operand it stands for.
-/
namespace Sys2Proof

theorem fld_high {h k s lo n : Nat} (hk : k < 2 ^ s) : fld (h * 2 ^ s + k) (s + lo) n = fld h lo n := by
  unfold fld
  rw [Nat.pow_add, ← Nat.div_div_eq_div_mul]
  congr 2
  rw [Nat.mul_comm, Nat.mul_add_div (Nat.two_pow_pos s), Nat.div_eq_of_lt hk, Nat.add_zero]

theorem fld_low {h k s lo n : Nat} (hl : lo + n ≤ s) : fld (h * 2 ^ s + k) lo n = fld k lo n := by
  unfold fld
  rw [← Nat.mod_mul_right_div_self, ← Nat.mod_mul_right_div_self, ← Nat.pow_add]
  obtain ⟨e, rfl⟩ := Nat.exists_eq_add_of_le hl
  rw [Nat.pow_add 2 (lo + n) e, Nat.mul_comm h, Nat.mul_assoc, Nat.mul_add_mod]

theorem fld_self {k n : Nat} (hk : k < 2 ^ n) : fld k 0 n = k := by
  unfold fld
  rw [Nat.pow_zero, Nat.div_one, Nat.mod_eq_of_lt hk]

theorem fbit_fld (x lo : Nat) : fbit x lo = (fld x lo 1 == 1) := rfl

/-- What the fields of a word read as. -/
structure Lay18 (x op c k : Nat) : Prop where
  fop : x / 2 ^ 25 % 128 = op
  fc : fld x 18 7 = c
  fchi : ∀ lo n, lo + n ≤ 7 → fld x (18 + lo) n = fld c lo n
  fk : ∀ lo n, lo + n ≤ 18 → fld x lo n = fld k lo n
  fall : ∀ lo n, lo + n ≤ 25 → fld x lo n = fld (c * 2 ^ 18 + k) lo n

theorem lay18 {op c k : Nat} (ho : op < 2 ^ 7) (hc : c < 2 ^ 7) (hk : k < 2 ^ 18) :
    Lay18 (enc18 op c k) op c k where
  fop := by
    have h : fld (enc18 op c k) (18 + 7) 7 = fld (op * 2 ^ 7 + c) 7 7 := fld_high hk
    have h' : fld (op * 2 ^ 7 + c) (7 + 0) 7 = fld op 0 7 := fld_high hc
    exact h.trans (h'.trans (fld_self ho))
  fc := (fld_high (lo := 0) hk).trans ((fld_low (by decide)).trans (fld_self hc))
  fchi lo n h := (fld_high hk).trans (fld_low h)
  fk lo n h := fld_low h
  fall lo n h := by
    have e : enc18 op c k = op * 2 ^ 25 + (c * 2 ^ 18 + k) := by unfold enc18; omega
    rw [e]; exact fld_low h

structure Lay11 (x op c a k : Nat) : Prop extends Lay18 x op c (a * 2 ^ 11 + k) where
  fa : fld x 11 7 = a
  fahi : ∀ lo n, lo + n ≤ 7 → fld x (11 + lo) n = fld a lo n
  flow : ∀ lo n, lo + n ≤ 11 → fld x lo n = fld k lo n

theorem lay11 {op c a k : Nat} (ho : op < 2 ^ 7) (hc : c < 2 ^ 7) (ha : a < 2 ^ 7) (hk : k < 2 ^ 11) :
    Lay11 (enc11 op c a k) op c a k :=
  have L : Lay18 (enc11 op c a k) op c (a * 2 ^ 11 + k) := lay18 ho hc (by omega)
  { toLay18 := L
    fa := (L.fk 11 7 (by decide)).trans ((fld_high (lo := 0) hk).trans (fld_self ha))
    fahi := fun lo n h => (L.fk (11 + lo) n (by omega)).trans (fld_high hk)
    flow := fun lo n h => (L.fk lo n (by omega)).trans (fld_low h) }

structure Lay4 (x op c a b m : Nat) : Prop extends Lay11 x op c a (b * 2 ^ 4 + m) where
  fb : fld x 4 7 = b
  fbhi : ∀ lo n, lo + n ≤ 7 → fld x (4 + lo) n = fld b lo n
  fm : ∀ lo n, lo + n ≤ 4 → fld x lo n = fld m lo n

theorem lay4 {op c a b m : Nat} (ho : op < 2 ^ 7) (hc : c < 2 ^ 7) (ha : a < 2 ^ 7) (hb : b < 2 ^ 7)
    (hm : m < 2 ^ 4) : Lay4 (enc4 op c a b m) op c a b m :=
  have L : Lay11 (enc4 op c a b m) op c a (b * 2 ^ 4 + m) := lay11 ho hc ha (by omega)
  { toLay11 := L
    fb := (L.flow 4 7 (by decide)).trans ((fld_high (lo := 0) hm).trans (fld_self hb))
    fbhi := fun lo n h => (L.flow (4 + lo) n (by omega)).trans (fld_high hm)
    fm := fun lo n h => (L.flow lo n (by omega)).trans (fld_low h) }

/-! ## Operand codes -/

theorem Src.code_lt (a : Src) : a.code < 2 ^ 7 := by
  cases a with
  | v n => simp only [Src.code]; omega
  | s n => simp only [Src.code]; omega
  | sp x => cases x <;> decide
  | lit w => simp [Src.code]

theorem CSrc.code_lt (a : CSrc) : a.code < 2 ^ 7 := by
  cases a with
  | v n => simp only [CSrc.code]; omega
  | s n => simp only [CSrc.code]; omega
  | sp x => cases x <;> decide

theorem Dst.code_lt (a : Dst) : a.code < 2 ^ 7 := by
  cases a <;> simp only [Dst.code] <;> omega

theorem takeSrc_code (a : Src) (ls : List Word) (k : Src → List Word → Dec) :
    takeSrc a.code (a.lits ++ ls) k = k a ls := by
  cases a with
  | v n => simp [takeSrc, Src.code, Src.lits]
  | s n =>
    show takeSrc (64 + n.val) ls k = _
    unfold takeSrc
    rw [dif_neg (by omega), dif_pos (by omega)]
    simp
  | sp x => cases x <;> rfl
  | lit w => rfl

theorem takeCSrc_code (a : CSrc) (k : CSrc → Dec) : takeCSrc a.code k = k a := by
  cases a with
  | v n => simp [takeCSrc, CSrc.code]
  | s n =>
    show takeCSrc (64 + n.val) k = _
    unfold takeCSrc
    rw [dif_neg (by omega), dif_pos (by omega)]
    simp
  | sp x => cases x <;> rfl

theorem takeDst_code (a : Dst) (k : Dst → Dec) : takeDst a.code k = k a := by
  cases a with
  | v n => simp [takeDst, Dst.code]
  | s n =>
    show takeDst (64 + n.val) k = _
    unfold takeDst
    rw [dif_neg (by omega), dif_pos (by omega)]
    simp

theorem takeVReg_code (a : VReg) (k : VReg → Dec) : takeVReg a.val k = k a := by
  simp [takeVReg]

theorem takePReg_code (a : PReg) (k : PReg → Dec) : takePReg a.val k = k a := by
  simp [takePReg]

theorem BraCond.ofCode_code (c : BraCond) : BraCond.ofCode? c.code = some c := by
  cases c with
  | always => rfl
  | pred i n => revert n; cases i <;> decide

theorem ExitCond.ofCode_code (c : ExitCond) : ExitCond.ofCode? c.code = some c := by
  cases c with
  | always => rfl
  | pred n => revert n; decide

theorem BraCond.code_lt (c : BraCond) : c.code < 2 ^ 7 := by
  cases c with
  | always => decide
  | pred i n => revert n; cases i <;> decide

theorem ExitCond.code_lt (c : ExitCond) : c.code < 2 ^ 4 := by
  cases c with
  | always => decide
  | pred n => revert n; decide

/-! ## From the fields to the decoder -/

theorem decode_of_op {i : Instr} {ls L : List Word} {op x : Nat} (hn : i.wordNat = x) (hx : x < 2 ^ 32)
    (hp : 0 < op) (ho : x / 2 ^ 25 % 128 = op) (hl : i.lits ++ ls = L) (hw : i.wellFormed = true)
    (h : decodeOp op x L = .ok (i, ls)) :
    decode (BitVec.ofNat 32 i.wordNat) (i.lits ++ ls) = .ok (i, ls) := by
  subst hn hl ho
  have e : (BitVec.ofNat 32 i.wordNat).toNat = i.wordNat := by simp; omega
  have hz : ¬ BitVec.ofNat 32 i.wordNat = 0 := by
    intro hz
    have h0 : i.wordNat = 0 := by rw [← e, hz]; rfl
    omega
  unfold decode decodeRaw
  rw [if_neg hz, e, h]
  simp [hw]

/-- What the round trip of one instruction says. -/
def RoundTrips (i : Instr) : Prop :=
  i.hasEncoding = true → i.wellFormed = true →
    ∀ ls, decode (BitVec.ofNat 32 i.wordNat) (i.lits ++ ls) = .ok (i, ls)

theorem roundTrips18 {i : Instr} {op c k : Nat} {L : List Word → List Word} (hn : i.wordNat = enc18 op c k)
    (hl : ∀ ls, i.lits ++ ls = L ls) (ho : 0 < op ∧ op < 2 ^ 7) (hc : c < 2 ^ 7) (hk : k < 2 ^ 18)
    (h : ∀ x ls, Lay18 x op c k → decodeOp op x (L ls) = .ok (i, ls)) : RoundTrips i := fun _ hw ls =>
  decode_of_op hn (by unfold enc18; omega) ho.1 (lay18 ho.2 hc hk).fop (hl ls) hw
    (h _ ls (lay18 ho.2 hc hk))

theorem roundTrips11 {i : Instr} {op c a k : Nat} {L : List Word → List Word} (hn : i.wordNat = enc11 op c a k)
    (hl : ∀ ls, i.lits ++ ls = L ls) (ho : 0 < op ∧ op < 2 ^ 7) (hc : c < 2 ^ 7) (ha : a < 2 ^ 7)
    (hk : k < 2 ^ 11)
    (h : ∀ x ls, Lay11 x op c a k → decodeOp op x (L ls) = .ok (i, ls)) : RoundTrips i := fun _ hw ls =>
  decode_of_op hn (by unfold enc11 enc18; omega) ho.1 (lay11 ho.2 hc ha hk).fop (hl ls) hw
    (h _ ls (lay11 ho.2 hc ha hk))

theorem roundTrips4 {i : Instr} {op c a b m : Nat} {L : List Word → List Word}
    (hn : i.wordNat = enc4 op c a b m)
    (hl : ∀ ls, i.lits ++ ls = L ls) (ho : 0 < op ∧ op < 2 ^ 7) (hc : c < 2 ^ 7) (ha : a < 2 ^ 7)
    (hb : b < 2 ^ 7) (hm : m < 2 ^ 4)
    (h : ∀ x ls, Lay4 x op c a b m → decodeOp op x (L ls) = .ok (i, ls)) : RoundTrips i := fun _ hw ls =>
  decode_of_op hn (by unfold enc4 enc11 enc18; omega) ho.1 (lay4 ho.2 hc ha hb hm).fop (hl ls) hw
    (h _ ls (lay4 ho.2 hc ha hb hm))

end Sys2Proof
end

