-- ==== Sys2Proof/Laws/Pieces.lean ====
section
/-!
SUPPORT. Field by field, what the parts of an encoded word read back as. Each lemma is one bit range
of one modifier group.
-/
namespace Sys2Proof

theorem bcode_lt (b : Bool) : bcode b < 2 := by cases b <;> decide

theorem bcode_eq (b : Bool) : (bcode b == 1) = b := by cases b <;> rfl

theorem ofNat_toNat_self {n : Nat} (k : BitVec n) : BitVec.ofNat n k.toNat = k := by simp

theorem Cond.code_lt (c : Cond) : c.code < 10 := by cases c <;> decide

theorem Cond.ofCode_code (c : Cond) : Cond.ofCode? c.code = some c := by cases c <;> rfl

theorem FCond.code_lt (c : FCond) : c.code < 8 := by cases c <;> decide

theorem FCond.ofCode_code (c : FCond) : FCond.ofCode? c.code = some c := by cases c <;> rfl

theorem FType.code_lt (c : FType) : c.code < 4 := by cases c <;> decide

theorem FType.ofCode_code (c : FType) : FType.ofCode? c.code = some c := by cases c <;> rfl

theorem RMode.code_lt (c : RMode) : c.code < 4 := by cases c <;> decide

theorem RMode.ofCode_code (c : RMode) : RMode.ofCode? c.code = some c := by cases c <;> rfl

theorem ShflMode.code_lt (c : ShflMode) : c.code < 4 := by cases c <;> decide

theorem ShflMode.ofCode_code (c : ShflMode) : ShflMode.ofCode? c.code = some c := by cases c <;> rfl

theorem ScanOp.code_lt (c : ScanOp) : c.code < 4 := by cases c <;> decide

theorem ScanOp.ofCode_code (c : ScanOp) : ScanOp.ofCode? c.code = some c := by cases c <;> rfl

theorem AccldMode.code_lt (c : AccldMode) : c.code < 3 := by cases c <;> decide

theorem AccldMode.ofCode_code (c : AccldMode) : AccldMode.ofCode? c.code = some c := by cases c <;> rfl

theorem MemW.code_lt (c : MemW) : c.code < 4 := by cases c <;> decide

theorem MemW.ofCode_code (c : MemW) : MemW.ofCode? c.code = some c := by cases c <;> rfl

theorem AcqW.code_lt (c : AcqW) : c.code < 4 := by cases c <;> decide

theorem AcqW.ofCode_code (c : AcqW) : AcqW.ofCode? c.code = some c := by cases c <;> rfl

theorem Scope.code_lt (c : Scope) : c.code < 7 := by cases c <;> decide

theorem Scope.ofCode_code (c : Scope) : Scope.ofCode? c.code = some c := by cases c <;> rfl

theorem BarScope.code_lt (c : BarScope) : c.code < 4 := by cases c <;> decide

theorem BarScope.ofCode_code (c : BarScope) : BarScope.ofCode? c.code = some c := by cases c <;> rfl

theorem AtomOp.code_lt (c : AtomOp) : c.code < 12 := by cases c <;> decide

theorem AtomOp.ofCode_code (c : AtomOp) : AtomOp.ofCode? c.code = some c := by cases c <;> rfl

theorem AtomsOp.code_lt (c : AtomsOp) : c.code < 13 := by cases c <;> decide

theorem AtomsOp.ofCode_code (c : AtomsOp) : AtomsOp.ofCode? c.code = some c := by cases c <;> rfl

theorem Ord.code_lt (c : Ord) : c.code < 4 := by cases c <;> decide

theorem Ord.ofCode_code (c : Ord) : Ord.ofCode? c.code = some c := by cases c <;> rfl

theorem FenceK.code_lt (c : FenceK) : c.code < 3 := by cases c <;> decide

theorem FenceK.ofCode_code (c : FenceK) : FenceK.ofCode? c.code = some c := by cases c <;> rfl

theorem FeMode.code_lt (c : FeMode) : c.code < 4 := by cases c <;> decide

theorem FeMode.ofCode_code (c : FeMode) : FeMode.ofCode? c.code = some c := by cases c <;> rfl

theorem SpadW.code_lt (c : SpadW) : c.code < 3 := by cases c <;> decide

theorem SpadW.ofCode_code (c : SpadW) : SpadW.ofCode? c.code = some c := by cases c <;> rfl

theorem Conv.code_lt (c : Conv) : c.code < 44 := by cases c <;> decide

theorem Conv.ofCode_code (c : Conv) : Conv.ofCode? c.code = some c := by cases c <;> rfl

theorem piece_0 (x0 : VReg) : x0.val < 2 ^ 7 := by omega

theorem piece_1 (x0 : ExitCond) : fld (0 * 2 ^ 18 + (0 * 2 ^ 11 + (0 * 2 ^ 4 + x0.code))) 4 21 = 0 := by have := x0.code_lt; unfold fld; omega

theorem piece_2 (x0 : ExitCond) : fld x0.code 0 4 = x0.code := by have := x0.code_lt; unfold fld; omega

theorem piece_3 (x0 : BitVec 4) : x0.toNat < 2 ^ 7 := by have := x0.isLt; omega

theorem piece_4 (x0 : BitVec 4) (x1 : BitVec 4) : fld (0 * 2 ^ 18 + (0 * 2 ^ 11 + (x0.toNat * 2 ^ 4 + x1.toNat))) 8 17 = 0 := by have := x0.isLt; have := x1.isLt; unfold fld; omega

theorem piece_5 (x0 : BitVec 8) : x0.toNat < 2 ^ 11 := by have := x0.isLt; omega

theorem piece_6 (x0 : BitVec 8) : fld (0 * 2 ^ 18 + (0 * 2 ^ 11 + (x0.toNat))) 8 17 = 0 := by have := x0.isLt; unfold fld; omega

theorem piece_7 (x0 : PReg) : x0.val < 2 ^ 7 := by omega

theorem piece_8 (x0 : PReg) : fld x0.val 3 4 = 0 := by unfold fld; omega

theorem piece_9 (x0 : PReg) : fld x0.val 0 3 = x0.val := by unfold fld; omega

theorem piece_10 (x0 : BitVec 12) : x0.toNat < 2 ^ 18 := by have := x0.isLt; omega

theorem piece_11 (x0 : BitVec 12) : fld x0.toNat 12 6 = 0 := by have := x0.isLt; unfold fld; omega

theorem piece_12 (x0 : Bool) (x1 : Bool) (x2 : Bool) : bcode x0 * 4 + bcode x1 * 2 + bcode x2 < 2 ^ 4 := by cases x0 <;> cases x1 <;> cases x2 <;> decide

theorem piece_13 (x0 : Bool) (x1 : Bool) (x2 : Bool) : fld (bcode x0 * 4 + bcode x1 * 2 + bcode x2) 3 1 = 0 := by cases x0 <;> cases x1 <;> cases x2 <;> rfl

theorem piece_14 (x0 : Bool) (x1 : Bool) (x2 : Bool) : (fld (bcode x0 * 4 + bcode x1 * 2 + bcode x2) 2 1 == 1) = x0 := by cases x0 <;> cases x1 <;> cases x2 <;> rfl

theorem piece_15 (x0 : Bool) (x1 : Bool) (x2 : Bool) : (fld (bcode x0 * 4 + bcode x1 * 2 + bcode x2) 1 1 == 1) = x1 := by cases x0 <;> cases x1 <;> cases x2 <;> rfl

theorem piece_16 (x0 : Bool) (x1 : Bool) (x2 : Bool) : (fld (bcode x0 * 4 + bcode x1 * 2 + bcode x2) 0 1 == 1) = x2 := by cases x0 <;> cases x1 <;> cases x2 <;> rfl

theorem piece_17 (x0 : Bool) (x1 : Bool) : bcode x0 * 2 + bcode x1 < 2 ^ 4 := by cases x0 <;> cases x1 <;> decide

theorem piece_18 (x0 : Bool) (x1 : Bool) : fld (bcode x0 * 2 + bcode x1) 2 2 = 0 := by cases x0 <;> cases x1 <;> rfl

theorem piece_19 (x0 : Bool) (x1 : Bool) : (fld (bcode x0 * 2 + bcode x1) 1 1 == 1) = x0 := by cases x0 <;> cases x1 <;> rfl

theorem piece_20 (x0 : Bool) (x1 : Bool) : (fld (bcode x0 * 2 + bcode x1) 0 1 == 1) = x1 := by cases x0 <;> cases x1 <;> rfl

theorem piece_21 (x0 : Bool) (x1 : Bool) : bcode x0 * 4 + bcode x1 < 2 ^ 4 := by cases x0 <;> cases x1 <;> decide

theorem piece_22 (x0 : Bool) (x1 : Bool) : fld (bcode x0 * 4 + bcode x1) 1 1 = 0 := by cases x0 <;> cases x1 <;> rfl

theorem piece_23 (x0 : Bool) (x1 : Bool) : fld (0 * 2 ^ 4 + (bcode x0 * 4 + bcode x1)) 3 8 = 0 := by cases x0 <;> cases x1 <;> rfl

theorem piece_24 (x0 : Bool) (x1 : Bool) : (fld (bcode x0 * 4 + bcode x1) 2 1 == 1) = x0 := by cases x0 <;> cases x1 <;> rfl

theorem piece_25 (x0 : Bool) (x1 : Bool) : (fld (bcode x0 * 4 + bcode x1) 0 1 == 1) = x1 := by cases x0 <;> cases x1 <;> rfl

theorem piece_26 (x0 : Bool) (x1 : Bool) : fld (1 * 2 ^ 4 + (bcode x0 * 4 + bcode x1)) 3 8 ≠ 0 := by cases x0 <;> cases x1 <;> decide

theorem piece_27 (x0 : Bool) (x1 : Bool) : fld (1 * 2 ^ 4 + (bcode x0 * 4 + bcode x1)) 3 8 = 2 := by cases x0 <;> cases x1 <;> rfl

theorem piece_28 (x0 : Bool) : bcode x0 < 2 ^ 4 := by cases x0 <;> decide

theorem piece_29 (x0 : Bool) : fld (2 * 2 ^ 4 + (bcode x0)) 3 8 ≠ 0 := by cases x0 <;> decide

theorem piece_30 (x0 : Bool) : fld (2 * 2 ^ 4 + (bcode x0)) 3 8 ≠ 2 := by cases x0 <;> decide

theorem piece_31 (x0 : Bool) : fld (2 * 2 ^ 4 + (bcode x0)) 1 10 = 16 := by cases x0 <;> rfl

theorem piece_32 (x0 : Bool) : (fld (bcode x0) 0 1 == 1) = x0 := by cases x0 <;> rfl

theorem piece_33 (x0 : Bool) : fld (bcode x0) 1 3 = 0 := by cases x0 <;> rfl

theorem piece_34 (x0 : Bool) : bcode x0 * 2 < 2 ^ 4 := by cases x0 <;> decide

theorem piece_35 (x0 : Bool) : fld (bcode x0 * 2) 0 1 = 0 := by cases x0 <;> rfl

theorem piece_36 (x0 : Bool) : fld (bcode x0 * 2) 2 2 = 0 := by cases x0 <;> rfl

theorem piece_37 (x0 : Bool) : (fld (bcode x0 * 2) 1 1 == 1) = x0 := by cases x0 <;> rfl

theorem piece_38 (x0 : Cond) : x0.code < 2 ^ 4 := by cases x0 <;> decide

theorem piece_39 (x0 : Cond) : fld x0.code 0 4 = x0.code := by cases x0 <;> rfl

theorem piece_40 (x0 : Bool) (x1 : PReg) : bcode x0 * 8 + x1.val < 2 ^ 4 := by have := bcode_lt x0; omega

theorem piece_41 (x0 : Bool) (x1 : PReg) : fld (bcode x0 * 8 + x1.val) 0 3 = x1.val := by have := bcode_lt x0; unfold fld; omega

theorem piece_42 (x0 : Bool) (x1 : PReg) : (fld (bcode x0 * 8 + x1.val) 3 1 == 1) = x0 := by
  have := bcode_lt x0; refine Eq.trans (congrArg (· == 1) (?_ : _ = bcode x0)) (bcode_eq x0)
  unfold fld; omega

theorem piece_43 (x0 : Bool) (x1 : BitVec 2) : bcode x0 * 4 + x1.toNat < 2 ^ 4 := by have := bcode_lt x0; have := x1.isLt; omega

theorem piece_44 (x0 : Bool) (x1 : BitVec 2) : fld (bcode x0 * 4 + x1.toNat) 3 1 = 0 := by have := bcode_lt x0; have := x1.isLt; unfold fld; omega

theorem piece_45 (x0 : Bool) (x1 : BitVec 2) : (fld (bcode x0 * 4 + x1.toNat) 2 1 == 1) = x0 := by
  have := bcode_lt x0; have := x1.isLt; refine Eq.trans (congrArg (· == 1) (?_ : _ = bcode x0)) (bcode_eq x0)
  unfold fld; omega

theorem piece_46 (x0 : Bool) (x1 : BitVec 2) : fld (bcode x0 * 4 + x1.toNat) 0 2 = x1.toNat := by have := bcode_lt x0; have := x1.isLt; unfold fld; omega

theorem piece_47 (x0 : Bool) : fld (0 * 2 ^ 4 + (bcode x0)) 1 10 = 0 := by cases x0 <;> rfl

theorem piece_48 (x0 : BitVec 5) : x0.toNat < 2 ^ 11 := by have := x0.isLt; omega

theorem piece_49 (x0 : BitVec 5) : fld x0.toNat 5 6 = 0 := by have := x0.isLt; unfold fld; omega

theorem piece_50 (x0 : BitVec 5) : x0.toNat + 512 < 2 ^ 11 := by have := x0.isLt; omega

theorem piece_51 (x0 : BitVec 5) : fld (x0.toNat + 512) 5 6 ≠ 0 := by have := x0.isLt; unfold fld; omega

theorem piece_52 (x0 : BitVec 5) : fld (x0.toNat + 512) 5 6 = 16 := by have := x0.isLt; unfold fld; omega

theorem piece_53 (x0 : BitVec 5) : fld (x0.toNat + 512) 0 5 = x0.toNat := by have := x0.isLt; unfold fld; omega

theorem piece_54 (x0 : BitVec 5) : x0.toNat + 1024 < 2 ^ 11 := by have := x0.isLt; omega

theorem piece_55 (x0 : BitVec 5) : fld (x0.toNat + 1024) 5 6 ≠ 0 := by have := x0.isLt; unfold fld; omega

theorem piece_56 (x0 : BitVec 5) : fld (x0.toNat + 1024) 5 6 ≠ 16 := by have := x0.isLt; unfold fld; omega

theorem piece_57 (x0 : BitVec 5) : fld (x0.toNat + 1024) 5 6 = 32 := by have := x0.isLt; unfold fld; omega

theorem piece_58 (x0 : BitVec 5) : fld (x0.toNat + 1024) 0 5 = x0.toNat := by have := x0.isLt; unfold fld; omega

theorem piece_59 (x0 : BitVec 5) : x0.toNat + 1536 < 2 ^ 11 := by have := x0.isLt; omega

theorem piece_60 (x0 : BitVec 5) : fld (x0.toNat + 1536) 5 6 ≠ 0 := by have := x0.isLt; unfold fld; omega

theorem piece_61 (x0 : BitVec 5) : fld (x0.toNat + 1536) 5 6 ≠ 16 := by have := x0.isLt; unfold fld; omega

theorem piece_62 (x0 : BitVec 5) : fld (x0.toNat + 1536) 5 6 ≠ 32 := by have := x0.isLt; unfold fld; omega

theorem piece_63 (x0 : BitVec 5) : fld (x0.toNat + 1536) 5 6 = 48 := by have := x0.isLt; unfold fld; omega

theorem piece_64 (x0 : BitVec 5) : fld (x0.toNat + 1536) 0 5 = x0.toNat := by have := x0.isLt; unfold fld; omega

theorem piece_65 (x0 : Cond) (x1 : BitVec 7) : x0.code * 128 + x1.toNat < 2 ^ 11 := by have := x0.code_lt; have := x1.isLt; omega

theorem piece_66 (x0 : Cond) (x1 : BitVec 7) : fld (x0.code * 128 + x1.toNat) 7 4 = x0.code := by have := x0.code_lt; have := x1.isLt; unfold fld; omega

theorem piece_67 (x0 : Cond) (x1 : BitVec 7) : fld (x0.code * 128 + x1.toNat) 0 7 = x1.toNat := by have := x0.code_lt; have := x1.isLt; unfold fld; omega

theorem piece_68 (x0 : Src) : fld (x0.code * 2 ^ 11 + (1 * 2 ^ 4 + 0)) 0 18 ≠ 0 := by have := x0.code_lt; unfold fld; omega

theorem piece_69 (x0 : RMode) (x1 : FType) : x0.code * 4 + x1.code < 2 ^ 4 := by cases x0 <;> cases x1 <;> decide

theorem piece_70 (x0 : RMode) (x1 : FType) : fld (x0.code * 4 + x1.code) 2 2 = x0.code := by cases x0 <;> cases x1 <;> rfl

theorem piece_71 (x0 : RMode) (x1 : FType) : fld (x0.code * 4 + x1.code) 0 2 = x1.code := by cases x0 <;> cases x1 <;> rfl

theorem piece_72 (x0 : FType) : x0.code < 2 ^ 4 := by cases x0 <;> decide

theorem piece_73 (x0 : FType) : fld x0.code 2 2 = 0 := by cases x0 <;> rfl

theorem piece_74 (x0 : FType) : fld x0.code 0 2 = x0.code := by cases x0 <;> rfl

theorem piece_75 (x0 : FType) : fld (0 * 2 ^ 4 + x0.code) 2 9 = 0 := by cases x0 <;> rfl

theorem piece_76 (x0 : FType) : fld (1 * 2 ^ 4 + x0.code) 2 9 ≠ 0 := by cases x0 <;> decide

theorem piece_77 (x0 : FType) : fld (1 * 2 ^ 4 + x0.code) 2 9 = 4 := by cases x0 <;> rfl

theorem piece_78 (x0 : RMode) (x1 : FType) : fld (2 * 2 ^ 4 + (x0.code * 4 + x1.code)) 2 9 ≠ 0 := by cases x0 <;> cases x1 <;> decide

theorem piece_79 (x0 : RMode) (x1 : FType) : fld (2 * 2 ^ 4 + (x0.code * 4 + x1.code)) 2 9 ≠ 4 := by cases x0 <;> cases x1 <;> decide

theorem piece_80 (x0 : FType) : fld (3 * 2 ^ 4 + x0.code) 2 9 ≠ 0 := by cases x0 <;> decide

theorem piece_81 (x0 : FType) : fld (3 * 2 ^ 4 + x0.code) 2 9 ≠ 4 := by cases x0 <;> decide

theorem piece_82 (x0 : FType) : fld (3 * 2 ^ 4 + x0.code) 2 9 = 12 := by cases x0 <;> rfl

theorem piece_83 (x0 : FType) : fld (4 * 2 ^ 4 + x0.code) 2 9 ≠ 0 := by cases x0 <;> decide

theorem piece_84 (x0 : FType) : fld (4 * 2 ^ 4 + x0.code) 2 9 ≠ 4 := by cases x0 <;> decide

theorem piece_85 (x0 : FType) : fld (4 * 2 ^ 4 + x0.code) 2 9 ≠ 12 := by cases x0 <;> decide

theorem piece_86 (x0 : FType) : fld (4 * 2 ^ 4 + x0.code) 2 9 = 16 := by cases x0 <;> rfl

theorem piece_87 (x0 : FType) : fld (5 * 2 ^ 4 + x0.code) 2 9 ≠ 0 := by cases x0 <;> decide

theorem piece_88 (x0 : FType) : fld (5 * 2 ^ 4 + x0.code) 2 9 ≠ 4 := by cases x0 <;> decide

theorem piece_89 (x0 : FType) : fld (5 * 2 ^ 4 + x0.code) 2 9 ≠ 12 := by cases x0 <;> decide

theorem piece_90 (x0 : FType) : fld (5 * 2 ^ 4 + x0.code) 2 9 ≠ 16 := by cases x0 <;> decide

theorem piece_91 (x0 : FType) : fld (5 * 2 ^ 4 + x0.code) 2 9 = 20 := by cases x0 <;> rfl

theorem piece_92 (x0 : Bool) (x1 : FCond) : bcode x0 * 8 + x1.code < 2 ^ 4 := by cases x0 <;> cases x1 <;> decide

theorem piece_93 (x0 : Bool) (x1 : FCond) : fld (bcode x0 * 8 + x1.code) 0 3 = x1.code := by cases x0 <;> cases x1 <;> rfl

theorem piece_94 (x0 : Bool) (x1 : FCond) : (fld (bcode x0 * 8 + x1.code) 3 1 == 1) = x0 := by cases x0 <;> cases x1 <;> rfl

theorem piece_95 (x0 : Conv) : x0.code < 2 ^ 7 := by have := x0.code_lt; omega

theorem piece_96 (x0 : RMode) (x1 : Bool) : x0.code * 4 + bcode x1 < 2 ^ 4 := by cases x0 <;> cases x1 <;> decide

theorem piece_97 (x0 : RMode) (x1 : Bool) : fld (x0.code * 4 + bcode x1) 1 1 = 0 := by cases x0 <;> cases x1 <;> rfl

theorem piece_98 (x0 : RMode) (x1 : Bool) : fld (x0.code * 4 + bcode x1) 2 2 = x0.code := by cases x0 <;> cases x1 <;> rfl

theorem piece_99 (x0 : RMode) (x1 : Bool) : (fld (x0.code * 4 + bcode x1) 0 1 == 1) = x1 := by cases x0 <;> cases x1 <;> rfl

theorem piece_100 (x0 : Bool) (x1 : ShflMode) : bcode x0 * 4 + x1.code < 2 ^ 4 := by cases x0 <;> cases x1 <;> decide

theorem piece_101 (x0 : Bool) (x1 : ShflMode) : fld (bcode x0 * 4 + x1.code) 3 1 = 0 := by cases x0 <;> cases x1 <;> rfl

theorem piece_102 (x0 : Bool) (x1 : ShflMode) : fld (bcode x0 * 4 + x1.code) 0 2 = x1.code := by cases x0 <;> cases x1 <;> rfl

theorem piece_103 (x0 : Bool) (x1 : ShflMode) : (fld (bcode x0 * 4 + x1.code) 2 1 == 1) = x0 := by cases x0 <;> cases x1 <;> rfl

theorem piece_104 (x0 : Bool) : bcode x0 * 4 < 2 ^ 4 := by cases x0 <;> decide

theorem piece_105 (x0 : Bool) : fld (bcode x0 * 4) 0 2 = 0 := by cases x0 <;> rfl

theorem piece_106 (x0 : Bool) : fld (0 * 2 ^ 4 + (bcode x0 * 4)) 3 8 = 0 := by cases x0 <;> rfl

theorem piece_107 (x0 : Bool) : (fld (bcode x0 * 4) 2 1 == 1) = x0 := by cases x0 <;> rfl

theorem piece_108 (x0 : Bool) : bcode x0 * 4 + 1 < 2 ^ 4 := by cases x0 <;> decide

theorem piece_109 (x0 : Bool) : fld (bcode x0 * 4 + 1) 0 2 ≠ 0 := by cases x0 <;> decide

theorem piece_110 (x0 : Bool) : fld (bcode x0 * 4 + 1) 0 2 = 1 := by cases x0 <;> rfl

theorem piece_111 (x0 : Bool) : fld (0 * 2 ^ 4 + (bcode x0 * 4 + 1)) 3 8 = 0 := by cases x0 <;> rfl

theorem piece_112 (x0 : Bool) : (fld (bcode x0 * 4 + 1) 2 1 == 1) = x0 := by cases x0 <;> rfl

theorem piece_113 (x0 : Bool) : bcode x0 * 4 + 2 < 2 ^ 4 := by cases x0 <;> decide

theorem piece_114 (x0 : Bool) : fld (bcode x0 * 4 + 2) 0 2 ≠ 0 := by cases x0 <;> decide

theorem piece_115 (x0 : Bool) : fld (bcode x0 * 4 + 2) 0 2 ≠ 1 := by cases x0 <;> decide

theorem piece_116 (x0 : Bool) : fld (bcode x0 * 4 + 2) 0 2 = 2 := by cases x0 <;> rfl

theorem piece_117 (x0 : Bool) : fld (0 * 2 ^ 4 + (bcode x0 * 4 + 2)) 3 8 = 0 := by cases x0 <;> rfl

theorem piece_118 (x0 : Bool) : (fld (bcode x0 * 4 + 2) 2 1 == 1) = x0 := by cases x0 <;> rfl

theorem piece_119 (x0 : Bool) (x1 : ScanOp) : bcode x0 * 4 + x1.code < 2 ^ 4 := by cases x0 <;> cases x1 <;> decide

theorem piece_120 (x0 : Bool) (x1 : ScanOp) : fld (0 * 2 ^ 4 + (bcode x0 * 4 + x1.code)) 3 8 = 0 := by cases x0 <;> cases x1 <;> rfl

theorem piece_121 (x0 : Bool) (x1 : ScanOp) : fld (bcode x0 * 4 + x1.code) 0 2 = x1.code := by cases x0 <;> cases x1 <;> rfl

theorem piece_122 (x0 : Bool) (x1 : ScanOp) : (fld (bcode x0 * 4 + x1.code) 2 1 == 1) = x0 := by cases x0 <;> cases x1 <;> rfl

theorem piece_123 (x0 : ScanOp) : x0.code < 2 ^ 4 := by cases x0 <;> decide

theorem piece_124 (x0 : ScanOp) : fld (0 * 2 ^ 4 + x0.code) 2 9 = 0 := by cases x0 <;> rfl

theorem piece_125 (x0 : ScanOp) : fld x0.code 0 2 = x0.code := by cases x0 <;> rfl

theorem piece_126 (x0 : Bool) (x1 : Bool) : bcode x0 * 8 + bcode x1 < 2 ^ 4 := by cases x0 <;> cases x1 <;> decide

theorem piece_127 (x0 : Bool) (x1 : Bool) : fld (bcode x0 * 8 + bcode x1) 1 2 = 0 := by cases x0 <;> cases x1 <;> rfl

theorem piece_128 (x0 : Bool) (x1 : Bool) : (fld (bcode x0 * 8 + bcode x1) 3 1 == 1) = x0 := by cases x0 <;> cases x1 <;> rfl

theorem piece_129 (x0 : Bool) (x1 : Bool) : (fld (bcode x0 * 8 + bcode x1) 0 1 == 1) = x1 := by cases x0 <;> cases x1 <;> rfl

theorem piece_130 (x0 : Bool) (x1 : Bool) : bcode x0 * 8 + bcode x1 * 4 < 2 ^ 4 := by cases x0 <;> cases x1 <;> decide

theorem piece_131 (x0 : Bool) (x1 : Bool) : fld (bcode x0 * 8 + bcode x1 * 4) 0 2 = 0 := by cases x0 <;> cases x1 <;> rfl

theorem piece_132 (x0 : Bool) (x1 : Bool) : (fld (bcode x0 * 8 + bcode x1 * 4) 3 1 == 1) = x0 := by cases x0 <;> cases x1 <;> rfl

theorem piece_133 (x0 : Bool) (x1 : Bool) : (fld (bcode x0 * 8 + bcode x1 * 4) 2 1 == 1) = x1 := by cases x0 <;> cases x1 <;> rfl

theorem piece_134 (x0 : Bool) (x1 : Bool) (x2 : Bool) (x3 : Bool) : bcode x0 * 8 + bcode x1 * 4 + bcode x2 * 2 + bcode x3 < 2 ^ 4 := by cases x0 <;> cases x1 <;> cases x2 <;> cases x3 <;> decide

theorem piece_135 (x0 : Bool) (x1 : Bool) (x2 : Bool) (x3 : Bool) : (fld (bcode x0 * 8 + bcode x1 * 4 + bcode x2 * 2 + bcode x3) 3 1 == 1) = x0 := by cases x0 <;> cases x1 <;> cases x2 <;> cases x3 <;> rfl

theorem piece_136 (x0 : Bool) (x1 : Bool) (x2 : Bool) (x3 : Bool) : (fld (bcode x0 * 8 + bcode x1 * 4 + bcode x2 * 2 + bcode x3) 2 1 == 1) = x1 := by cases x0 <;> cases x1 <;> cases x2 <;> cases x3 <;> rfl

theorem piece_137 (x0 : Bool) (x1 : Bool) (x2 : Bool) (x3 : Bool) : (fld (bcode x0 * 8 + bcode x1 * 4 + bcode x2 * 2 + bcode x3) 1 1 == 1) = x2 := by cases x0 <;> cases x1 <;> cases x2 <;> cases x3 <;> rfl

theorem piece_138 (x0 : Bool) (x1 : Bool) (x2 : Bool) (x3 : Bool) : (fld (bcode x0 * 8 + bcode x1 * 4 + bcode x2 * 2 + bcode x3) 0 1 == 1) = x3 := by cases x0 <;> cases x1 <;> cases x2 <;> cases x3 <;> rfl

theorem piece_139 (x0 : Bool) : bcode x0 * 8 < 2 ^ 4 := by cases x0 <;> decide

theorem piece_140 (x0 : Bool) : fld (bcode x0 * 8) 0 3 = 0 := by cases x0 <;> rfl

theorem piece_141 (x0 : Bool) : (fld (bcode x0 * 8) 3 1 == 1) = x0 := by cases x0 <;> rfl

theorem piece_142 (x0 : Bool) : bcode x0 * 8 + 1 < 2 ^ 4 := by cases x0 <;> decide

theorem piece_143 (x0 : Bool) : fld (bcode x0 * 8 + 1) 0 3 ≠ 0 := by cases x0 <;> decide

theorem piece_144 (x0 : Bool) : fld (bcode x0 * 8 + 1) 0 3 = 1 := by cases x0 <;> rfl

theorem piece_145 (x0 : Bool) : (fld (bcode x0 * 8 + 1) 3 1 == 1) = x0 := by cases x0 <;> rfl

theorem piece_146 (x0 : Bool) : bcode x0 * 8 + 2 < 2 ^ 4 := by cases x0 <;> decide

theorem piece_147 (x0 : Bool) : fld (bcode x0 * 8 + 2) 0 3 ≠ 0 := by cases x0 <;> decide

theorem piece_148 (x0 : Bool) : fld (bcode x0 * 8 + 2) 0 3 ≠ 1 := by cases x0 <;> decide

theorem piece_149 (x0 : Bool) : fld (bcode x0 * 8 + 2) 0 3 = 2 := by cases x0 <;> rfl

theorem piece_150 (x0 : Bool) : (fld (bcode x0 * 8 + 2) 3 1 == 1) = x0 := by cases x0 <;> rfl

theorem piece_151 (x0 : Bool) : bcode x0 * 8 + 3 < 2 ^ 4 := by cases x0 <;> decide

theorem piece_152 (x0 : Bool) : fld (bcode x0 * 8 + 3) 0 3 ≠ 0 := by cases x0 <;> decide

theorem piece_153 (x0 : Bool) : fld (bcode x0 * 8 + 3) 0 3 ≠ 1 := by cases x0 <;> decide

theorem piece_154 (x0 : Bool) : fld (bcode x0 * 8 + 3) 0 3 ≠ 2 := by cases x0 <;> decide

theorem piece_155 (x0 : Bool) : fld (bcode x0 * 8 + 3) 0 3 = 3 := by cases x0 <;> rfl

theorem piece_156 (x0 : Bool) : (fld (bcode x0 * 8 + 3) 3 1 == 1) = x0 := by cases x0 <;> rfl

theorem piece_157 (x0 : Bool) : bcode x0 * 8 + 4 < 2 ^ 4 := by cases x0 <;> decide

theorem piece_158 (x0 : Bool) : fld (bcode x0 * 8 + 4) 0 3 ≠ 0 := by cases x0 <;> decide

theorem piece_159 (x0 : Bool) : fld (bcode x0 * 8 + 4) 0 3 ≠ 1 := by cases x0 <;> decide

theorem piece_160 (x0 : Bool) : fld (bcode x0 * 8 + 4) 0 3 ≠ 2 := by cases x0 <;> decide

theorem piece_161 (x0 : Bool) : fld (bcode x0 * 8 + 4) 0 3 ≠ 3 := by cases x0 <;> decide

theorem piece_162 (x0 : Bool) : fld (bcode x0 * 8 + 4) 0 3 = 4 := by cases x0 <;> rfl

theorem piece_163 (x0 : Bool) : (fld (bcode x0 * 8 + 4) 3 1 == 1) = x0 := by cases x0 <;> rfl

theorem piece_164 (x0 : Bool) : bcode x0 * 8 + 5 < 2 ^ 4 := by cases x0 <;> decide

theorem piece_165 (x0 : Bool) : fld (bcode x0 * 8 + 5) 0 3 ≠ 0 := by cases x0 <;> decide

theorem piece_166 (x0 : Bool) : fld (bcode x0 * 8 + 5) 0 3 ≠ 1 := by cases x0 <;> decide

theorem piece_167 (x0 : Bool) : fld (bcode x0 * 8 + 5) 0 3 ≠ 2 := by cases x0 <;> decide

theorem piece_168 (x0 : Bool) : fld (bcode x0 * 8 + 5) 0 3 ≠ 3 := by cases x0 <;> decide

theorem piece_169 (x0 : Bool) : fld (bcode x0 * 8 + 5) 0 3 ≠ 4 := by cases x0 <;> decide

theorem piece_170 (x0 : Bool) : fld (bcode x0 * 8 + 5) 0 3 = 5 := by cases x0 <;> rfl

theorem piece_171 (x0 : Bool) : (fld (bcode x0 * 8 + 5) 3 1 == 1) = x0 := by cases x0 <;> rfl

theorem piece_172 (x0 : Bool) (x1 : Bool) (x2 : AccldMode) : bcode x0 * 8 + bcode x1 * 4 + x2.code < 2 ^ 4 := by cases x0 <;> cases x1 <;> cases x2 <;> decide

theorem piece_173 (x0 : Bool) (x1 : Bool) (x2 : AccldMode) : fld (bcode x0 * 8 + bcode x1 * 4 + x2.code) 0 2 = x2.code := by cases x0 <;> cases x1 <;> cases x2 <;> rfl

theorem piece_174 (x0 : Bool) (x1 : Bool) (x2 : AccldMode) : (fld (bcode x0 * 8 + bcode x1 * 4 + x2.code) 3 1 == 1) = x0 := by cases x0 <;> cases x1 <;> cases x2 <;> rfl

theorem piece_175 (x0 : Bool) (x1 : Bool) (x2 : AccldMode) : (fld (bcode x0 * 8 + bcode x1 * 4 + x2.code) 2 1 == 1) = x1 := by cases x0 <;> cases x1 <;> cases x2 <;> rfl

theorem piece_176 (x0 : Bool) (x1 : Bool) (x2 : MemW) : bcode x0 * 8 + bcode x1 * 4 + x2.code < 2 ^ 4 := by cases x0 <;> cases x1 <;> cases x2 <;> decide

theorem piece_177 (x0 : Bool) (x1 : Bool) (x2 : MemW) : fld (bcode x0 * 8 + bcode x1 * 4 + x2.code) 0 2 = x2.code := by cases x0 <;> cases x1 <;> cases x2 <;> rfl

theorem piece_178 (x0 : Bool) (x1 : Bool) (x2 : MemW) : (fld (bcode x0 * 8 + bcode x1 * 4 + x2.code) 3 1 == 1) = x0 := by cases x0 <;> cases x1 <;> cases x2 <;> rfl

theorem piece_179 (x0 : Bool) (x1 : Bool) (x2 : MemW) : (fld (bcode x0 * 8 + bcode x1 * 4 + x2.code) 2 1 == 1) = x1 := by cases x0 <;> cases x1 <;> cases x2 <;> rfl

theorem piece_180 (x0 : Bool) (x1 : MemW) : bcode x0 * 8 + x1.code < 2 ^ 4 := by cases x0 <;> cases x1 <;> decide

theorem piece_181 (x0 : Bool) (x1 : MemW) : fld (bcode x0 * 8 + x1.code) 2 1 = 0 := by cases x0 <;> cases x1 <;> rfl

theorem piece_182 (x0 : Bool) (x1 : MemW) : fld (bcode x0 * 8 + x1.code) 0 2 = x1.code := by cases x0 <;> cases x1 <;> rfl

theorem piece_183 (x0 : Bool) (x1 : MemW) : (fld (bcode x0 * 8 + x1.code) 3 1 == 1) = x0 := by cases x0 <;> cases x1 <;> rfl

theorem piece_184 (x0 : Scope) : x0.code < 2 ^ 7 := by cases x0 <;> decide

theorem piece_185 (x0 : Bool) (x1 : AcqW) : bcode x0 * 8 + x1.code < 2 ^ 4 := by cases x0 <;> cases x1 <;> decide

theorem piece_186 (x0 : Bool) (x1 : AcqW) : fld (bcode x0 * 8 + x1.code) 2 1 = 0 := by cases x0 <;> cases x1 <;> rfl

theorem piece_187 (x0 : Scope) : fld x0.code 3 4 = 0 := by cases x0 <;> rfl

theorem piece_188 (x0 : Scope) : fld x0.code 0 3 = x0.code := by cases x0 <;> rfl

theorem piece_189 (x0 : Bool) (x1 : AcqW) : fld (bcode x0 * 8 + x1.code) 0 2 = x1.code := by cases x0 <;> cases x1 <;> rfl

theorem piece_190 (x0 : Bool) (x1 : AcqW) : (fld (bcode x0 * 8 + x1.code) 3 1 == 1) = x0 := by cases x0 <;> cases x1 <;> rfl

theorem piece_191 (x0 : AtomOp) (x1 : Scope) (x2 : Bool) (x3 : Ord) (x4 : Bool) : x0.code * 128 + x1.code * 16 + bcode x2 * 8 + x3.code * 2 + bcode x4 < 2 ^ 11 := by have := x0.code_lt; have := x1.code_lt; have := bcode_lt x2; have := x3.code_lt; have := bcode_lt x4; omega

theorem piece_192 (x0 : AtomOp) (x1 : Scope) (x2 : Bool) (x3 : Ord) (x4 : Bool) : fld (x0.code * 128 + x1.code * 16 + bcode x2 * 8 + x3.code * 2 + bcode x4) 7 4 = x0.code := by have := x0.code_lt; have := x1.code_lt; have := bcode_lt x2; have := x3.code_lt; have := bcode_lt x4; unfold fld; omega

theorem piece_193 (x0 : AtomOp) (x1 : Scope) (x2 : Bool) (x3 : Ord) (x4 : Bool) : fld (x0.code * 128 + x1.code * 16 + bcode x2 * 8 + x3.code * 2 + bcode x4) 4 3 = x1.code := by have := x0.code_lt; have := x1.code_lt; have := bcode_lt x2; have := x3.code_lt; have := bcode_lt x4; unfold fld; omega

theorem piece_194 (x0 : AtomOp) (x1 : Scope) (x2 : Bool) (x3 : Ord) (x4 : Bool) : fld (x0.code * 128 + x1.code * 16 + bcode x2 * 8 + x3.code * 2 + bcode x4) 1 2 = x3.code := by have := x0.code_lt; have := x1.code_lt; have := bcode_lt x2; have := x3.code_lt; have := bcode_lt x4; unfold fld; omega

theorem piece_195 (x0 : AtomOp) (x1 : Scope) (x2 : Bool) (x3 : Ord) (x4 : Bool) : (fld (x0.code * 128 + x1.code * 16 + bcode x2 * 8 + x3.code * 2 + bcode x4) 3 1 == 1) = x2 := by
  have := x0.code_lt; have := x1.code_lt; have := bcode_lt x2; have := x3.code_lt; have := bcode_lt x4; refine Eq.trans (congrArg (· == 1) (?_ : _ = bcode x2)) (bcode_eq x2)
  unfold fld; omega

theorem piece_196 (x0 : AtomOp) (x1 : Scope) (x2 : Bool) (x3 : Ord) (x4 : Bool) : (fld (x0.code * 128 + x1.code * 16 + bcode x2 * 8 + x3.code * 2 + bcode x4) 0 1 == 1) = x4 := by
  have := x0.code_lt; have := x1.code_lt; have := bcode_lt x2; have := x3.code_lt; have := bcode_lt x4; refine Eq.trans (congrArg (· == 1) (?_ : _ = bcode x4)) (bcode_eq x4)
  unfold fld; omega

theorem piece_197 (x0 : Bool) (x1 : Ord) (x2 : Bool) : bcode x0 * 8 + x1.code * 2 + bcode x2 < 2 ^ 4 := by cases x0 <;> cases x1 <;> cases x2 <;> decide

theorem piece_198 (x0 : Bool) (x1 : Ord) (x2 : Bool) : fld (bcode x0 * 8 + x1.code * 2 + bcode x2) 1 2 = x1.code := by cases x0 <;> cases x1 <;> cases x2 <;> rfl

theorem piece_199 (x0 : Bool) (x1 : Ord) (x2 : Bool) : (fld (bcode x0 * 8 + x1.code * 2 + bcode x2) 3 1 == 1) = x0 := by cases x0 <;> cases x1 <;> cases x2 <;> rfl

theorem piece_200 (x0 : Bool) (x1 : Ord) (x2 : Bool) : (fld (bcode x0 * 8 + x1.code * 2 + bcode x2) 0 1 == 1) = x2 := by cases x0 <;> cases x1 <;> cases x2 <;> rfl

theorem piece_201 (x0 : AtomOp) (x1 : Scope) (x2 : Bool) (x3 : Bool) (x4 : Bool) (x5 : Bool) : x0.code * 128 + x1.code * 16 + bcode x2 * 8 + bcode x3 * 4 + bcode x4 * 2 + bcode x5 < 2 ^ 11 := by have := x0.code_lt; have := x1.code_lt; have := bcode_lt x2; have := bcode_lt x3; have := bcode_lt x4; have := bcode_lt x5; omega

theorem piece_202 (x0 : AtomOp) (x1 : Scope) (x2 : Bool) (x3 : Bool) (x4 : Bool) (x5 : Bool) : fld (x0.code * 128 + x1.code * 16 + bcode x2 * 8 + bcode x3 * 4 + bcode x4 * 2 + bcode x5) 7 4 = x0.code := by have := x0.code_lt; have := x1.code_lt; have := bcode_lt x2; have := bcode_lt x3; have := bcode_lt x4; have := bcode_lt x5; unfold fld; omega

theorem piece_203 (x0 : AtomOp) (x1 : Scope) (x2 : Bool) (x3 : Bool) (x4 : Bool) (x5 : Bool) : fld (x0.code * 128 + x1.code * 16 + bcode x2 * 8 + bcode x3 * 4 + bcode x4 * 2 + bcode x5) 4 3 = x1.code := by have := x0.code_lt; have := x1.code_lt; have := bcode_lt x2; have := bcode_lt x3; have := bcode_lt x4; have := bcode_lt x5; unfold fld; omega

theorem piece_204 (x0 : AtomOp) (x1 : Scope) (x2 : Bool) (x3 : Bool) (x4 : Bool) (x5 : Bool) : (fld (x0.code * 128 + x1.code * 16 + bcode x2 * 8 + bcode x3 * 4 + bcode x4 * 2 + bcode x5) 3 1 == 1) = x2 := by
  have := x0.code_lt; have := x1.code_lt; have := bcode_lt x2; have := bcode_lt x3; have := bcode_lt x4; have := bcode_lt x5; refine Eq.trans (congrArg (· == 1) (?_ : _ = bcode x2)) (bcode_eq x2)
  unfold fld; omega

theorem piece_205 (x0 : AtomOp) (x1 : Scope) (x2 : Bool) (x3 : Bool) (x4 : Bool) (x5 : Bool) : (fld (x0.code * 128 + x1.code * 16 + bcode x2 * 8 + bcode x3 * 4 + bcode x4 * 2 + bcode x5) 2 1 == 1) = x3 := by
  have := x0.code_lt; have := x1.code_lt; have := bcode_lt x2; have := bcode_lt x3; have := bcode_lt x4; have := bcode_lt x5; refine Eq.trans (congrArg (· == 1) (?_ : _ = bcode x3)) (bcode_eq x3)
  unfold fld; omega

theorem piece_206 (x0 : AtomOp) (x1 : Scope) (x2 : Bool) (x3 : Bool) (x4 : Bool) (x5 : Bool) : (fld (x0.code * 128 + x1.code * 16 + bcode x2 * 8 + bcode x3 * 4 + bcode x4 * 2 + bcode x5) 1 1 == 1) = x4 := by
  have := x0.code_lt; have := x1.code_lt; have := bcode_lt x2; have := bcode_lt x3; have := bcode_lt x4; have := bcode_lt x5; refine Eq.trans (congrArg (· == 1) (?_ : _ = bcode x4)) (bcode_eq x4)
  unfold fld; omega

theorem piece_207 (x0 : AtomOp) (x1 : Scope) (x2 : Bool) (x3 : Bool) (x4 : Bool) (x5 : Bool) : (fld (x0.code * 128 + x1.code * 16 + bcode x2 * 8 + bcode x3 * 4 + bcode x4 * 2 + bcode x5) 0 1 == 1) = x5 := by
  have := x0.code_lt; have := x1.code_lt; have := bcode_lt x2; have := bcode_lt x3; have := bcode_lt x4; have := bcode_lt x5; refine Eq.trans (congrArg (· == 1) (?_ : _ = bcode x5)) (bcode_eq x5)
  unfold fld; omega

theorem piece_208 (x0 : Bool) (x1 : FenceK) : bcode x0 * 8 + x1.code < 2 ^ 4 := by cases x0 <;> cases x1 <;> decide

theorem piece_209 (x0 : Bool) (x1 : FenceK) : fld (bcode x0 * 8 + x1.code) 2 1 = 0 := by cases x0 <;> cases x1 <;> rfl

theorem piece_210 (x0 : Scope) (x1 : Bool) (x2 : FenceK) : fld (0 * 2 ^ 18 + (0 * 2 ^ 11 + (x0.code * 2 ^ 4 + (bcode x1 * 8 + x2.code)))) 7 18 = 0 := by have := x0.code_lt; have := bcode_lt x1; have := x2.code_lt; unfold fld; omega

theorem piece_211 (x0 : Bool) (x1 : FenceK) : fld (bcode x0 * 8 + x1.code) 0 2 = x1.code := by cases x0 <;> cases x1 <;> rfl

theorem piece_212 (x0 : Bool) (x1 : FenceK) : (fld (bcode x0 * 8 + x1.code) 3 1 == 1) = x0 := by cases x0 <;> cases x1 <;> rfl

theorem piece_213 (x0 : Bool) : fld (0 * 2 ^ 18 + (0 * 2 ^ 11 + (0 * 2 ^ 4 + (bcode x0 * 8 + 1)))) 4 21 = 0 := by cases x0 <;> rfl

theorem piece_214 (x0 : Bool) (x1 : Bool) : fld (0 * 2 ^ 11 + (0 * 2 ^ 4 + (bcode x0 * 8 + bcode x1 * 4))) 4 14 = 0 := by cases x0 <;> cases x1 <;> rfl

theorem piece_215 (x0 : Bool) : fld (0 * 2 ^ 18 + (0 * 2 ^ 11 + (0 * 2 ^ 4 + (bcode x0 * 8 + 3)))) 4 21 = 0 := by cases x0 <;> rfl

theorem piece_216 (x0 : Bool) (x1 : Bool) (x2 : Bool) : bcode x0 * 8 + bcode x1 * 4 + bcode x2 < 2 ^ 4 := by cases x0 <;> cases x1 <;> cases x2 <;> decide

theorem piece_217 (x0 : Bool) (x1 : Bool) (x2 : Bool) : fld (bcode x0 * 8 + bcode x1 * 4 + bcode x2) 1 1 = 0 := by cases x0 <;> cases x1 <;> cases x2 <;> rfl

theorem piece_218 (x0 : Bool) (x1 : Bool) (x2 : Bool) : (fld (bcode x0 * 8 + bcode x1 * 4 + bcode x2) 3 1 == 1) = x0 := by cases x0 <;> cases x1 <;> cases x2 <;> rfl

theorem piece_219 (x0 : Bool) (x1 : Bool) (x2 : Bool) : (fld (bcode x0 * 8 + bcode x1 * 4 + bcode x2) 2 1 == 1) = x1 := by cases x0 <;> cases x1 <;> cases x2 <;> rfl

theorem piece_220 (x0 : Bool) (x1 : Bool) (x2 : Bool) : (fld (bcode x0 * 8 + bcode x1 * 4 + bcode x2) 0 1 == 1) = x2 := by cases x0 <;> cases x1 <;> cases x2 <;> rfl

theorem piece_221 (x0 : Bool) : bcode x0 < 2 ^ 7 := by cases x0 <;> decide

theorem piece_222 (x0 : FeMode) (x1 : SpadW) : x0.code * 4 + x1.code < 2 ^ 4 := by cases x0 <;> cases x1 <;> decide

theorem piece_223 (x0 : Bool) : fld (bcode x0) 1 6 = 0 := by cases x0 <;> rfl

theorem piece_224 (x0 : FeMode) (x1 : SpadW) : fld (x0.code * 4 + x1.code) 2 2 = x0.code := by cases x0 <;> cases x1 <;> rfl

theorem piece_225 (x0 : FeMode) (x1 : SpadW) : fld (x0.code * 4 + x1.code) 0 2 = x1.code := by cases x0 <;> cases x1 <;> rfl

theorem piece_226 (x0 : AtomsOp) : x0.code < 2 ^ 7 := by cases x0 <;> decide

theorem piece_227 (x0 : Src) (x1 : Bool) : fld (0 * 2 ^ 18 + (0 * 2 ^ 11 + (x0.code * 2 ^ 4 + (bcode x1 * 8)))) 11 14 = 0 := by have := x0.code_lt; have := bcode_lt x1; unfold fld; omega

theorem piece_228 (x0 : Bool) : fld (0 * 2 ^ 11 + (0 * 2 ^ 4 + (bcode x0 * 8))) 4 14 = 0 := by cases x0 <;> rfl

theorem piece_229 (x0 : Bool) (x1 : BitVec 5) (x2 : BarScope) : bcode x0 * 512 + x1.toNat * 16 + x2.code * 4 < 2 ^ 11 := by have := bcode_lt x0; have := x1.isLt; have := x2.code_lt; omega

theorem piece_230 (x0 : Bool) (x1 : BitVec 5) (x2 : BarScope) : fld (bcode x0 * 512 + x1.toNat * 16 + x2.code * 4) 0 2 = 0 := by have := bcode_lt x0; have := x1.isLt; have := x2.code_lt; unfold fld; omega

theorem piece_231 (x0 : Bool) (x1 : BitVec 5) (x2 : BarScope) : fld (bcode x0 * 512 + x1.toNat * 16 + x2.code * 4) 10 1 = 0 := by have := bcode_lt x0; have := x1.isLt; have := x2.code_lt; unfold fld; omega

theorem piece_232 (x0 : Bool) (x1 : BitVec 5) (x2 : BarScope) : fld (bcode x0 * 512 + x1.toNat * 16 + x2.code * 4) 2 2 = x2.code := by have := bcode_lt x0; have := x1.isLt; have := x2.code_lt; unfold fld; omega

theorem piece_233 (x0 : Bool) (x1 : BitVec 5) (x2 : BarScope) : (fld (bcode x0 * 512 + x1.toNat * 16 + x2.code * 4) 9 1 == 1) = x0 := by
  have := bcode_lt x0; have := x1.isLt; have := x2.code_lt; refine Eq.trans (congrArg (· == 1) (?_ : _ = bcode x0)) (bcode_eq x0)
  unfold fld; omega

theorem piece_234 (x0 : Bool) (x1 : BitVec 5) (x2 : BarScope) : fld (bcode x0 * 512 + x1.toNat * 16 + x2.code * 4) 4 5 = x1.toNat := by have := bcode_lt x0; have := x1.isLt; have := x2.code_lt; unfold fld; omega

theorem piece_235 (x0 : Bool) (x1 : BitVec 5) (x2 : BarScope) : bcode x0 * 512 + x1.toNat * 16 + x2.code * 4 + 1 < 2 ^ 11 := by have := bcode_lt x0; have := x1.isLt; have := x2.code_lt; omega

theorem piece_236 (x0 : Bool) (x1 : BitVec 5) (x2 : BarScope) : fld (bcode x0 * 512 + x1.toNat * 16 + x2.code * 4 + 1) 0 2 ≠ 0 := by have := bcode_lt x0; have := x1.isLt; have := x2.code_lt; unfold fld; omega

theorem piece_237 (x0 : Bool) (x1 : BitVec 5) (x2 : BarScope) : fld (bcode x0 * 512 + x1.toNat * 16 + x2.code * 4 + 1) 0 2 = 1 := by have := bcode_lt x0; have := x1.isLt; have := x2.code_lt; unfold fld; omega

theorem piece_238 (x0 : Bool) (x1 : BitVec 5) (x2 : BarScope) : fld (bcode x0 * 512 + x1.toNat * 16 + x2.code * 4 + 1) 10 1 = 0 := by have := bcode_lt x0; have := x1.isLt; have := x2.code_lt; unfold fld; omega

theorem piece_239 (x0 : Bool) (x1 : BitVec 5) (x2 : BarScope) : fld (bcode x0 * 512 + x1.toNat * 16 + x2.code * 4 + 1) 2 2 = x2.code := by have := bcode_lt x0; have := x1.isLt; have := x2.code_lt; unfold fld; omega

theorem piece_240 (x0 : Bool) (x1 : BitVec 5) (x2 : BarScope) : (fld (bcode x0 * 512 + x1.toNat * 16 + x2.code * 4 + 1) 9 1 == 1) = x0 := by
  have := bcode_lt x0; have := x1.isLt; have := x2.code_lt; refine Eq.trans (congrArg (· == 1) (?_ : _ = bcode x0)) (bcode_eq x0)
  unfold fld; omega

theorem piece_241 (x0 : Bool) (x1 : BitVec 5) (x2 : BarScope) : fld (bcode x0 * 512 + x1.toNat * 16 + x2.code * 4 + 1) 4 5 = x1.toNat := by have := bcode_lt x0; have := x1.isLt; have := x2.code_lt; unfold fld; omega

theorem piece_242 (x0 : Bool) (x1 : BitVec 5) (x2 : BarScope) : bcode x0 * 512 + x1.toNat * 16 + x2.code * 4 + 2 < 2 ^ 11 := by have := bcode_lt x0; have := x1.isLt; have := x2.code_lt; omega

theorem piece_243 (x0 : Bool) (x1 : BitVec 5) (x2 : BarScope) : fld (bcode x0 * 512 + x1.toNat * 16 + x2.code * 4 + 2) 0 2 ≠ 0 := by have := bcode_lt x0; have := x1.isLt; have := x2.code_lt; unfold fld; omega

theorem piece_244 (x0 : Bool) (x1 : BitVec 5) (x2 : BarScope) : fld (bcode x0 * 512 + x1.toNat * 16 + x2.code * 4 + 2) 0 2 ≠ 1 := by have := bcode_lt x0; have := x1.isLt; have := x2.code_lt; unfold fld; omega

theorem piece_245 (x0 : Bool) (x1 : BitVec 5) (x2 : BarScope) : fld (bcode x0 * 512 + x1.toNat * 16 + x2.code * 4 + 2) 0 2 = 2 := by have := bcode_lt x0; have := x1.isLt; have := x2.code_lt; unfold fld; omega

theorem piece_246 (x0 : Bool) (x1 : BitVec 5) (x2 : BarScope) : fld (bcode x0 * 512 + x1.toNat * 16 + x2.code * 4 + 2) 10 1 = 0 := by have := bcode_lt x0; have := x1.isLt; have := x2.code_lt; unfold fld; omega

theorem piece_247 (x0 : Bool) (x1 : BitVec 5) (x2 : BarScope) : fld (bcode x0 * 512 + x1.toNat * 16 + x2.code * 4 + 2) 2 2 = x2.code := by have := bcode_lt x0; have := x1.isLt; have := x2.code_lt; unfold fld; omega

theorem piece_248 (x0 : Bool) (x1 : BitVec 5) (x2 : BarScope) : (fld (bcode x0 * 512 + x1.toNat * 16 + x2.code * 4 + 2) 9 1 == 1) = x0 := by
  have := bcode_lt x0; have := x1.isLt; have := x2.code_lt; refine Eq.trans (congrArg (· == 1) (?_ : _ = bcode x0)) (bcode_eq x0)
  unfold fld; omega

theorem piece_249 (x0 : Bool) (x1 : BitVec 5) (x2 : BarScope) : fld (bcode x0 * 512 + x1.toNat * 16 + x2.code * 4 + 2) 4 5 = x1.toNat := by have := bcode_lt x0; have := x1.isLt; have := x2.code_lt; unfold fld; omega

theorem piece_250 (x0 : Bool) (x1 : BitVec 5) (x2 : BarScope) : bcode x0 * 512 + x1.toNat * 16 + x2.code * 4 + 3 < 2 ^ 11 := by have := bcode_lt x0; have := x1.isLt; have := x2.code_lt; omega

theorem piece_251 (x0 : Bool) (x1 : BitVec 5) (x2 : BarScope) : fld (bcode x0 * 512 + x1.toNat * 16 + x2.code * 4 + 3) 0 2 ≠ 0 := by have := bcode_lt x0; have := x1.isLt; have := x2.code_lt; unfold fld; omega

theorem piece_252 (x0 : Bool) (x1 : BitVec 5) (x2 : BarScope) : fld (bcode x0 * 512 + x1.toNat * 16 + x2.code * 4 + 3) 0 2 ≠ 1 := by have := bcode_lt x0; have := x1.isLt; have := x2.code_lt; unfold fld; omega

theorem piece_253 (x0 : Bool) (x1 : BitVec 5) (x2 : BarScope) : fld (bcode x0 * 512 + x1.toNat * 16 + x2.code * 4 + 3) 0 2 ≠ 2 := by have := bcode_lt x0; have := x1.isLt; have := x2.code_lt; unfold fld; omega

theorem piece_254 (x0 : Bool) (x1 : BitVec 5) (x2 : BarScope) : fld (bcode x0 * 512 + x1.toNat * 16 + x2.code * 4 + 3) 0 2 = 3 := by have := bcode_lt x0; have := x1.isLt; have := x2.code_lt; unfold fld; omega

theorem piece_255 (x0 : Bool) (x1 : BitVec 5) (x2 : BarScope) : fld (0 * 2 ^ 11 + (bcode x0 * 512 + x1.toNat * 16 + x2.code * 4 + 3)) 10 8 = 0 := by have := bcode_lt x0; have := x1.isLt; have := x2.code_lt; unfold fld; omega

theorem piece_256 (x0 : Bool) (x1 : BitVec 5) (x2 : BarScope) : fld (bcode x0 * 512 + x1.toNat * 16 + x2.code * 4 + 3) 2 2 = x2.code := by have := bcode_lt x0; have := x1.isLt; have := x2.code_lt; unfold fld; omega

theorem piece_257 (x0 : Bool) (x1 : BitVec 5) (x2 : BarScope) : (fld (bcode x0 * 512 + x1.toNat * 16 + x2.code * 4 + 3) 9 1 == 1) = x0 := by
  have := bcode_lt x0; have := x1.isLt; have := x2.code_lt; refine Eq.trans (congrArg (· == 1) (?_ : _ = bcode x0)) (bcode_eq x0)
  unfold fld; omega

theorem piece_258 (x0 : Bool) (x1 : BitVec 5) (x2 : BarScope) : fld (bcode x0 * 512 + x1.toNat * 16 + x2.code * 4 + 3) 4 5 = x1.toNat := by have := bcode_lt x0; have := x1.isLt; have := x2.code_lt; unfold fld; omega

theorem piece_259 (x0 : BitVec 4) : fld x0.toNat 4 3 = 0 := by have := x0.isLt; unfold fld; omega

theorem piece_260 (x0 : Bool) (x1 : Bool) : bcode x0 * 8 + bcode x1 * 4 + 1 < 2 ^ 4 := by cases x0 <;> cases x1 <;> decide

theorem piece_261 (x0 : Bool) (x1 : Bool) : fld (bcode x0 * 8 + bcode x1 * 4 + 1) 0 2 ≠ 0 := by cases x0 <;> cases x1 <;> decide

theorem piece_262 (x0 : Bool) (x1 : Bool) : fld (bcode x0 * 8 + bcode x1 * 4 + 1) 0 2 = 1 := by cases x0 <;> cases x1 <;> rfl

theorem piece_263 (x0 : BitVec 4) (x1 : Bool) (x2 : Bool) : fld (0 * 2 ^ 11 + (x0.toNat * 2 ^ 4 + (bcode x1 * 8 + bcode x2 * 4 + 1))) 8 10 = 0 := by have := x0.isLt; have := bcode_lt x1; have := bcode_lt x2; unfold fld; omega

theorem piece_264 (x0 : Bool) (x1 : Bool) : (fld (bcode x0 * 8 + bcode x1 * 4 + 1) 3 1 == 1) = x0 := by cases x0 <;> cases x1 <;> rfl

theorem piece_265 (x0 : Bool) (x1 : Bool) : (fld (bcode x0 * 8 + bcode x1 * 4 + 1) 2 1 == 1) = x1 := by cases x0 <;> cases x1 <;> rfl

theorem piece_266 (x0 : Bool) (x1 : Bool) : bcode x0 * 8 + bcode x1 * 4 + 2 < 2 ^ 4 := by cases x0 <;> cases x1 <;> decide

theorem piece_267 (x0 : Bool) (x1 : Bool) : fld (bcode x0 * 8 + bcode x1 * 4 + 2) 0 2 ≠ 0 := by cases x0 <;> cases x1 <;> decide

theorem piece_268 (x0 : Bool) (x1 : Bool) : fld (bcode x0 * 8 + bcode x1 * 4 + 2) 0 2 ≠ 1 := by cases x0 <;> cases x1 <;> decide

theorem piece_269 (x0 : Bool) (x1 : Bool) : fld (bcode x0 * 8 + bcode x1 * 4 + 2) 0 2 = 2 := by cases x0 <;> cases x1 <;> rfl

theorem piece_270 (x0 : BitVec 4) (x1 : Bool) (x2 : Bool) : fld (0 * 2 ^ 11 + (x0.toNat * 2 ^ 4 + (bcode x1 * 8 + bcode x2 * 4 + 2))) 8 10 = 0 := by have := x0.isLt; have := bcode_lt x1; have := bcode_lt x2; unfold fld; omega

theorem piece_271 (x0 : Bool) (x1 : Bool) : (fld (bcode x0 * 8 + bcode x1 * 4 + 2) 3 1 == 1) = x0 := by cases x0 <;> cases x1 <;> rfl

theorem piece_272 (x0 : Bool) (x1 : Bool) : (fld (bcode x0 * 8 + bcode x1 * 4 + 2) 2 1 == 1) = x1 := by cases x0 <;> cases x1 <;> rfl

theorem piece_273 (x0 : Bool) : fld (bcode x0 * 8 + 3) 0 2 ≠ 0 := by cases x0 <;> decide

theorem piece_274 (x0 : Bool) : fld (bcode x0 * 8 + 3) 0 2 ≠ 1 := by cases x0 <;> decide

theorem piece_275 (x0 : Bool) : fld (bcode x0 * 8 + 3) 0 2 ≠ 2 := by cases x0 <;> decide

theorem piece_276 (x0 : BitVec 4) (x1 : Bool) : fld (0 * 2 ^ 11 + (x0.toNat * 2 ^ 4 + (bcode x1 * 8 + 3))) 8 10 = 0 := by have := x0.isLt; have := bcode_lt x1; unfold fld; omega

theorem piece_277 (x0 : Bool) : fld (0 * 2 ^ 11 + (0 * 2 ^ 4 + (bcode x0 * 8 + 1))) 4 14 = 0 := by cases x0 <;> rfl

theorem piece_278 (x0 : Src) : fld (x0.code * 2 ^ 11 + (1 * 2 ^ 4 + 0)) 0 18 ≠ 1 := by have := x0.code_lt; unfold fld; omega

theorem piece_279 (x0 : Src) : fld (x0.code * 2 ^ 11 + (2 * 2 ^ 4 + 0)) 0 18 ≠ 1 := by have := x0.code_lt; unfold fld; omega

theorem piece_280 (x0 : Src) : fld (x0.code * 2 ^ 11 + (2 * 2 ^ 4 + 0)) 0 18 ≠ 17 := by have := x0.code_lt; unfold fld; omega

theorem piece_281 (x0 : Src) : fld (x0.code * 2 ^ 11 + (2 * 2 ^ 4 + 0)) 0 18 ≠ 18 := by have := x0.code_lt; unfold fld; omega

theorem piece_282 (x0 : Src) : fld (x0.code * 2 ^ 11 + (2 * 2 ^ 4 + 1)) 0 18 ≠ 1 := by have := x0.code_lt; unfold fld; omega

theorem piece_283 (x0 : Src) : fld (x0.code * 2 ^ 11 + (2 * 2 ^ 4 + 1)) 0 18 ≠ 17 := by have := x0.code_lt; unfold fld; omega

theorem piece_284 (x0 : Src) : fld (x0.code * 2 ^ 11 + (2 * 2 ^ 4 + 1)) 0 18 ≠ 18 := by have := x0.code_lt; unfold fld; omega

theorem piece_285 (x0 : Bool) : fld (3 * 2 ^ 4 + (bcode x0)) 0 11 ≠ 0 := by cases x0 <;> decide

theorem piece_286 (x0 : Src) (x1 : Bool) : fld (x0.code * 2 ^ 11 + (3 * 2 ^ 4 + (bcode x1))) 0 18 ≠ 1 := by have := x0.code_lt; have := bcode_lt x1; unfold fld; omega

theorem piece_287 (x0 : Bool) : fld (3 * 2 ^ 4 + (bcode x0)) 0 11 ≠ 16 := by cases x0 <;> decide

theorem piece_288 (x0 : Src) (x1 : Bool) : fld (x0.code * 2 ^ 11 + (3 * 2 ^ 4 + (bcode x1))) 0 18 ≠ 17 := by have := x0.code_lt; have := bcode_lt x1; unfold fld; omega

theorem piece_289 (x0 : Src) (x1 : Bool) : fld (x0.code * 2 ^ 11 + (3 * 2 ^ 4 + (bcode x1))) 0 18 ≠ 18 := by have := x0.code_lt; have := bcode_lt x1; unfold fld; omega

theorem piece_290 (x0 : Bool) : fld (3 * 2 ^ 4 + (bcode x0)) 0 11 ≠ 32 := by cases x0 <;> decide

theorem piece_291 (x0 : Bool) : fld (3 * 2 ^ 4 + (bcode x0)) 0 11 ≠ 33 := by cases x0 <;> decide

theorem piece_292 (x0 : Bool) : fld (3 * 2 ^ 4 + (bcode x0)) 1 10 = 24 := by cases x0 <;> rfl

theorem piece_293 (x0 : Src) : fld (x0.code * 2 ^ 11 + (4 * 2 ^ 4 + 0)) 0 18 ≠ 1 := by have := x0.code_lt; unfold fld; omega

theorem piece_294 (x0 : Src) : fld (x0.code * 2 ^ 11 + (4 * 2 ^ 4 + 0)) 0 18 ≠ 17 := by have := x0.code_lt; unfold fld; omega

theorem piece_295 (x0 : Src) : fld (x0.code * 2 ^ 11 + (4 * 2 ^ 4 + 0)) 0 18 ≠ 18 := by have := x0.code_lt; unfold fld; omega

theorem piece_296 (x0 : Src) : fld (x0.code * 2 ^ 11 + (4 * 2 ^ 4 + 1)) 0 18 ≠ 1 := by have := x0.code_lt; unfold fld; omega

theorem piece_297 (x0 : Src) : fld (x0.code * 2 ^ 11 + (4 * 2 ^ 4 + 1)) 0 18 ≠ 17 := by have := x0.code_lt; unfold fld; omega

theorem piece_298 (x0 : Src) : fld (x0.code * 2 ^ 11 + (4 * 2 ^ 4 + 1)) 0 18 ≠ 18 := by have := x0.code_lt; unfold fld; omega

theorem piece_299 (x0 : Src) : fld (x0.code * 2 ^ 11 + (5 * 2 ^ 4 + 0)) 0 18 ≠ 1 := by have := x0.code_lt; unfold fld; omega

theorem piece_300 (x0 : Src) : fld (x0.code * 2 ^ 11 + (5 * 2 ^ 4 + 0)) 0 18 ≠ 17 := by have := x0.code_lt; unfold fld; omega

theorem piece_301 (x0 : Src) : fld (x0.code * 2 ^ 11 + (5 * 2 ^ 4 + 0)) 0 18 ≠ 18 := by have := x0.code_lt; unfold fld; omega

theorem piece_302 (x0 : Src) : fld (x0.code * 2 ^ 11 + (6 * 2 ^ 4 + 0)) 0 18 ≠ 1 := by have := x0.code_lt; unfold fld; omega

theorem piece_303 (x0 : Src) : fld (x0.code * 2 ^ 11 + (6 * 2 ^ 4 + 0)) 0 18 ≠ 17 := by have := x0.code_lt; unfold fld; omega

theorem piece_304 (x0 : Src) : fld (x0.code * 2 ^ 11 + (6 * 2 ^ 4 + 0)) 0 18 ≠ 18 := by have := x0.code_lt; unfold fld; omega

theorem piece_305 (x0 : Src) : fld (x0.code * 2 ^ 11 + (7 * 2 ^ 4 + 0)) 0 18 ≠ 1 := by have := x0.code_lt; unfold fld; omega

theorem piece_306 (x0 : Src) : fld (x0.code * 2 ^ 11 + (7 * 2 ^ 4 + 0)) 0 18 ≠ 17 := by have := x0.code_lt; unfold fld; omega

theorem piece_307 (x0 : Src) : fld (x0.code * 2 ^ 11 + (7 * 2 ^ 4 + 0)) 0 18 ≠ 18 := by have := x0.code_lt; unfold fld; omega

theorem piece_308 (x0 : Src) : fld (x0.code * 2 ^ 11 + (8 * 2 ^ 4 + 0)) 0 18 ≠ 1 := by have := x0.code_lt; unfold fld; omega

theorem piece_309 (x0 : Src) : fld (x0.code * 2 ^ 11 + (8 * 2 ^ 4 + 0)) 0 18 ≠ 17 := by have := x0.code_lt; unfold fld; omega

theorem piece_310 (x0 : Src) : fld (x0.code * 2 ^ 11 + (8 * 2 ^ 4 + 0)) 0 18 ≠ 18 := by have := x0.code_lt; unfold fld; omega

end Sys2Proof
end

