-- ==== Sys2Proof/Laws/PerInstr.lean ====
section
/-!
SUPPORT. Per-instruction families. RoundTrip: a well-formed instruction that has an encoding is what
the decoder reads from its words, whatever words follow.
-/
namespace Sys2Proof.Laws.RoundTrip

/-- Decoding the encoding of a well-formed instruction gives the instruction and leaves what follows it. -/
def Statement (i : Instr) : Prop :=
  i.hasEncoding = true → i.wellFormed = true →
    ∀ ls, decode (BitVec.ofNat 32 i.wordNat) (i.lits ++ ls) = .ok (i, ls)

theorem bra (c : BraCond) (k : BitVec 18) : Statement (.bra c k) :=
  roundTrips18 (L := fun ls => ls) rfl (fun _ => rfl) (by decide) c.code_lt k.isLt fun x ls X => by
    show decode0x01 x _ = _
    unfold decode0x01
    rw [X.fc, ((X.fk 0 18 (by decide)).trans (fld_self k.isLt))]
    simp only [BraCond.ofCode_code, ofNat_toNat_self, takeOpt]

theorem brx (c : CSrc) (k : BitVec 18) : Statement (.brx c k) :=
  roundTrips18 (L := fun ls => ls) rfl (fun _ => rfl) (by decide) c.code_lt k.isLt fun x ls X => by
    show decode0x02 x _ = _
    unfold decode0x02
    rw [X.fc, ((X.fk 0 18 (by decide)).trans (fld_self k.isLt))]
    simp only [takeCSrc_code, ofNat_toNat_self]

theorem brz (c : CSrc) (k : BitVec 18) : Statement (.brz c k) :=
  roundTrips18 (L := fun ls => ls) rfl (fun _ => rfl) (by decide) c.code_lt k.isLt fun x ls X => by
    show decode0x03 x _ = _
    unfold decode0x03
    rw [X.fc, ((X.fk 0 18 (by decide)).trans (fld_self k.isLt))]
    simp only [takeCSrc_code, ofNat_toNat_self]

theorem call (c : VReg) (k : BitVec 18) : Statement (.call c k) :=
  roundTrips18 (L := fun ls => ls) rfl (fun _ => rfl) (by decide) (piece_0 c) k.isLt fun x ls X => by
    show decode0x04 x _ = _
    unfold decode0x04
    rw [X.fc, ((X.fk 0 18 (by decide)).trans (fld_self k.isLt))]
    simp only [takeVReg_code, ofNat_toNat_self]

theorem jmpi (a : Src) : Statement (.jmpi a) :=
  roundTrips4 (L := fun ls => a.lits ++ ls) rfl (fun _ => rfl) (by decide) (by decide) a.code_lt (by decide) (by decide) fun x ls X => by
    show decode0x05 x _ = _
    unfold decode0x05
    rw [if_pos ⟨(X.flow 0 11 (by decide)).trans (by decide), X.fc.trans (by decide)⟩]
    rw [X.fa]
    simp only [takeSrc_code]

theorem exit (c : ExitCond) : Statement (.exit c) :=
  roundTrips4 (L := fun ls => ls) rfl (fun _ => rfl) (by decide) (by decide) (by decide) (by decide) c.code_lt fun x ls X => by
    show decode0x06 x _ = _
    unfold decode0x06
    rw [if_pos ((X.fall 4 21 (by decide)).trans (piece_1 c))]
    rw [(X.fm 0 4 (by decide)).trans (piece_2 c)]
    simp only [ExitCond.ofCode_code, takeOpt]

theorem yield : Statement (.yield) :=
  roundTrips4 (L := fun ls => ls) rfl (fun _ => rfl) (by decide) (by decide) (by decide) (by decide) (by decide) fun x ls X => by
    show decode0x07 x _ = _
    unfold decode0x07
    rw [if_pos ((X.fall 0 25 (by decide)).trans (by decide))]

theorem nop : Statement (.nop) :=
  roundTrips4 (L := fun ls => ls) rfl (fun _ => rfl) (by decide) (by decide) (by decide) (by decide) (by decide) fun x ls X => by
    show decode0x08 x _ = _
    unfold decode0x08
    rw [if_pos ((X.fall 0 25 (by decide)).trans (by decide))]

theorem winb (s : BitVec 4) (v : BitVec 4) : Statement (.winb s v) :=
  roundTrips4 (L := fun ls => ls) rfl (fun _ => rfl) (by decide) (by decide) (by decide) (piece_3 s) v.isLt fun x ls X => by
    show decode0x09 x _ = _
    unfold decode0x09
    rw [if_pos ((X.fall 8 17 (by decide)).trans (piece_4 s v))]
    rw [((X.fbhi 0 4 (by decide)).trans (fld_self s.isLt)), ((X.fm 0 4 (by decide)).trans (fld_self v.isLt))]
    simp only [ofNat_toNat_self]

theorem ipref (c : BitVec 7) (k : BitVec 18) : Statement (.ipref c k) :=
  roundTrips18 (L := fun ls => ls) rfl (fun _ => rfl) (by decide) c.isLt k.isLt fun x ls X => by
    show decode0x0A x _ = _
    unfold decode0x0A
    rw [(X.fc), ((X.fk 0 18 (by decide)).trans (fld_self k.isLt))]
    simp only [ofNat_toNat_self]

theorem trap (n : BitVec 8) : Statement (.trap n) :=
  roundTrips11 (L := fun ls => ls) rfl (fun _ => rfl) (by decide) (by decide) (by decide) (piece_5 n) fun x ls X => by
    show decode0x0B x _ = _
    unfold decode0x0B
    rw [if_pos ((X.fall 8 17 (by decide)).trans (piece_6 n))]
    rw [((X.flow 0 8 (by decide)).trans (fld_self n.isLt))]
    simp only [ofNat_toNat_self]

theorem elect (p : PReg) : Statement (.elect p) :=
  roundTrips4 (L := fun ls => ls) rfl (fun _ => rfl) (by decide) (piece_7 p) (by decide) (by decide) (by decide) fun x ls X => by
    show decode0x0C x _ = _
    unfold decode0x0C
    rw [if_pos ⟨(X.fk 0 18 (by decide)).trans (by decide), (X.fchi 3 4 (by decide)).trans (piece_8 p)⟩]
    rw [(X.fchi 0 3 (by decide)).trans (piece_9 p)]
    simp only [takePReg_code]

theorem csrr (d : Dst) (c : BitVec 12) : Statement (.csrr d c) :=
  roundTrips18 (L := fun ls => ls) rfl (fun _ => rfl) (by decide) d.code_lt (piece_10 c) fun x ls X => by
    show decode0x0D x _ = _
    unfold decode0x0D
    rw [if_pos ((X.fk 12 6 (by decide)).trans (piece_11 c))]
    rw [X.fc, ((X.fk 0 12 (by decide)).trans (fld_self c.isLt))]
    simp only [takeDst_code, ofNat_toNat_self]

theorem csrw (d : CSrc) (c : BitVec 12) : Statement (.csrw d c) :=
  roundTrips18 (L := fun ls => ls) rfl (fun _ => rfl) (by decide) d.code_lt (piece_10 c) fun x ls X => by
    show decode0x0E x _ = _
    unfold decode0x0E
    rw [if_pos ((X.fk 12 6 (by decide)).trans (piece_11 c))]
    rw [X.fc, ((X.fk 0 12 (by decide)).trans (fld_self c.isLt))]
    simp only [takeCSrc_code, ofNat_toNat_self]

theorem eret : Statement (.eret) :=
  roundTrips4 (L := fun ls => ls) rfl (fun _ => rfl) (by decide) (by decide) (by decide) (by decide) (by decide) fun x ls X => by
    show decode0x0F x _ = _
    unfold decode0x0F
    rw [if_pos ((X.fall 0 25 (by decide)).trans (by decide))]

theorem iadd (d : Dst) (a : Src) (b : Src) (s : Bool) (u : Bool) (w : Bool) : Statement (.iadd d a b s u w) :=
  roundTrips4 (L := fun ls => a.lits ++ (b.lits ++ ls)) rfl (fun _ => List.append_assoc ..) (by decide) d.code_lt a.code_lt b.code_lt (piece_12 s u w) fun x ls X => by
    show decode0x10 x _ = _
    unfold decode0x10
    rw [if_pos ((X.fm 3 1 (by decide)).trans (piece_13 s u w))]
    rw [X.fc, X.fa, X.fb, (show fbit x 2 = s from (congrArg (· == 1) (X.fm 2 1 (by decide))).trans (piece_14 s u w)), (show fbit x 1 = u from (congrArg (· == 1) (X.fm 1 1 (by decide))).trans (piece_15 s u w)), (show fbit x 0 = w from (congrArg (· == 1) (X.fm 0 1 (by decide))).trans (piece_16 s u w))]
    simp only [takeDst_code, takeSrc_code]

theorem isub (d : Dst) (a : Src) (b : Src) (s : Bool) (u : Bool) (w : Bool) : Statement (.isub d a b s u w) :=
  roundTrips4 (L := fun ls => a.lits ++ (b.lits ++ ls)) rfl (fun _ => List.append_assoc ..) (by decide) d.code_lt a.code_lt b.code_lt (piece_12 s u w) fun x ls X => by
    show decode0x11 x _ = _
    unfold decode0x11
    rw [if_pos ((X.fm 3 1 (by decide)).trans (piece_13 s u w))]
    rw [X.fc, X.fa, X.fb, (show fbit x 2 = s from (congrArg (· == 1) (X.fm 2 1 (by decide))).trans (piece_14 s u w)), (show fbit x 1 = u from (congrArg (· == 1) (X.fm 1 1 (by decide))).trans (piece_15 s u w)), (show fbit x 0 = w from (congrArg (· == 1) (X.fm 0 1 (by decide))).trans (piece_16 s u w))]
    simp only [takeDst_code, takeSrc_code]

theorem imul (d : Dst) (a : Src) (b : Src) (s : Bool) (u : Bool) (w : Bool) : Statement (.imul d a b s u w) :=
  roundTrips4 (L := fun ls => a.lits ++ (b.lits ++ ls)) rfl (fun _ => List.append_assoc ..) (by decide) d.code_lt a.code_lt b.code_lt (piece_12 s u w) fun x ls X => by
    show decode0x12 x _ = _
    unfold decode0x12
    rw [if_pos ((X.fm 3 1 (by decide)).trans (piece_13 s u w))]
    rw [X.fc, X.fa, X.fb, (show fbit x 2 = s from (congrArg (· == 1) (X.fm 2 1 (by decide))).trans (piece_14 s u w)), (show fbit x 1 = u from (congrArg (· == 1) (X.fm 1 1 (by decide))).trans (piece_15 s u w)), (show fbit x 0 = w from (congrArg (· == 1) (X.fm 0 1 (by decide))).trans (piece_16 s u w))]
    simp only [takeDst_code, takeSrc_code]

theorem imulh (d : Dst) (a : Src) (b : Src) (u : Bool) (w : Bool) : Statement (.imulh d a b u w) :=
  roundTrips4 (L := fun ls => a.lits ++ (b.lits ++ ls)) rfl (fun _ => List.append_assoc ..) (by decide) d.code_lt a.code_lt b.code_lt (piece_17 u w) fun x ls X => by
    show decode0x13 x _ = _
    unfold decode0x13
    rw [if_pos ((X.fm 2 2 (by decide)).trans (piece_18 u w))]
    rw [X.fc, X.fa, X.fb, (show fbit x 1 = u from (congrArg (· == 1) (X.fm 1 1 (by decide))).trans (piece_19 u w)), (show fbit x 0 = w from (congrArg (· == 1) (X.fm 0 1 (by decide))).trans (piece_20 u w))]
    simp only [takeDst_code, takeSrc_code]

theorem imad (d : Dst) (a : Src) (b : Src) (s : Bool) (u : Bool) (w : Bool) : Statement (.imad d a b s u w) :=
  roundTrips4 (L := fun ls => a.lits ++ (b.lits ++ ls)) rfl (fun _ => List.append_assoc ..) (by decide) d.code_lt a.code_lt b.code_lt (piece_12 s u w) fun x ls X => by
    show decode0x14 x _ = _
    unfold decode0x14
    rw [if_pos ((X.fm 3 1 (by decide)).trans (piece_13 s u w))]
    rw [X.fc, X.fa, X.fb, (show fbit x 2 = s from (congrArg (· == 1) (X.fm 2 1 (by decide))).trans (piece_14 s u w)), (show fbit x 1 = u from (congrArg (· == 1) (X.fm 1 1 (by decide))).trans (piece_15 s u w)), (show fbit x 0 = w from (congrArg (· == 1) (X.fm 0 1 (by decide))).trans (piece_16 s u w))]
    simp only [takeDst_code, takeSrc_code]

theorem imin (d : Dst) (a : Src) (b : Src) (u : Bool) (w : Bool) : Statement (.imin d a b u w) :=
  roundTrips4 (L := fun ls => a.lits ++ (b.lits ++ ls)) rfl (fun _ => List.append_assoc ..) (by decide) d.code_lt a.code_lt b.code_lt (piece_17 u w) fun x ls X => by
    show decode0x15 x _ = _
    unfold decode0x15
    rw [if_pos ((X.fm 2 2 (by decide)).trans (piece_18 u w))]
    rw [X.fc, X.fa, X.fb, (show fbit x 1 = u from (congrArg (· == 1) (X.fm 1 1 (by decide))).trans (piece_19 u w)), (show fbit x 0 = w from (congrArg (· == 1) (X.fm 0 1 (by decide))).trans (piece_20 u w))]
    simp only [takeDst_code, takeSrc_code]

theorem imax (d : Dst) (a : Src) (b : Src) (u : Bool) (w : Bool) : Statement (.imax d a b u w) :=
  roundTrips4 (L := fun ls => a.lits ++ (b.lits ++ ls)) rfl (fun _ => List.append_assoc ..) (by decide) d.code_lt a.code_lt b.code_lt (piece_17 u w) fun x ls X => by
    show decode0x16 x _ = _
    unfold decode0x16
    rw [if_pos ((X.fm 2 2 (by decide)).trans (piece_18 u w))]
    rw [X.fc, X.fa, X.fb, (show fbit x 1 = u from (congrArg (· == 1) (X.fm 1 1 (by decide))).trans (piece_19 u w)), (show fbit x 0 = w from (congrArg (· == 1) (X.fm 0 1 (by decide))).trans (piece_20 u w))]
    simp only [takeDst_code, takeSrc_code]

theorem iabs (d : Dst) (a : Src) (s : Bool) (w : Bool) : Statement (.iabs d a s w) :=
  roundTrips4 (L := fun ls => a.lits ++ ls) rfl (fun _ => rfl) (by decide) d.code_lt a.code_lt (by decide) (piece_21 s w) fun x ls X => by
    show decode0x17 x _ = _
    unfold decode0x17
    rw [if_pos ⟨(X.fm 1 1 (by decide)).trans (piece_22 s w), (X.flow 3 8 (by decide)).trans (piece_23 s w)⟩]
    rw [X.fc, X.fa, (show fbit x 2 = s from (congrArg (· == 1) (X.fm 2 1 (by decide))).trans (piece_24 s w)), (show fbit x 0 = w from (congrArg (· == 1) (X.fm 0 1 (by decide))).trans (piece_25 s w))]
    simp only [takeDst_code, takeSrc_code]

theorem ineg (d : Dst) (a : Src) (s : Bool) (w : Bool) : Statement (.ineg d a s w) :=
  roundTrips4 (L := fun ls => a.lits ++ ls) rfl (fun _ => rfl) (by decide) d.code_lt a.code_lt (by decide) (piece_21 s w) fun x ls X => by
    show decode0x17 x _ = _
    unfold decode0x17
    rw [if_neg (fun h => absurd ((X.flow 3 8 (by decide)).symm.trans h.2) (piece_26 s w))]
    rw [if_pos ⟨(X.fm 1 1 (by decide)).trans (piece_22 s w), (X.flow 3 8 (by decide)).trans (piece_27 s w)⟩]
    rw [X.fc, X.fa, (show fbit x 2 = s from (congrArg (· == 1) (X.fm 2 1 (by decide))).trans (piece_24 s w)), (show fbit x 0 = w from (congrArg (· == 1) (X.fm 0 1 (by decide))).trans (piece_25 s w))]
    simp only [takeDst_code, takeSrc_code]

theorem not (d : Dst) (a : Src) (w : Bool) : Statement (.not d a w) :=
  roundTrips4 (L := fun ls => a.lits ++ ls) rfl (fun _ => rfl) (by decide) d.code_lt a.code_lt (by decide) (piece_28 w) fun x ls X => by
    show decode0x17 x _ = _
    unfold decode0x17
    rw [if_neg (fun h => absurd ((X.flow 3 8 (by decide)).symm.trans h.2) (piece_29 w))]
    rw [if_neg (fun h => absurd ((X.flow 3 8 (by decide)).symm.trans h.2) (piece_30 w))]
    rw [if_pos ((X.flow 1 10 (by decide)).trans (piece_31 w))]
    rw [X.fc, X.fa, (show fbit x 0 = w from (congrArg (· == 1) (X.fm 0 1 (by decide))).trans (piece_32 w))]
    simp only [takeDst_code, takeSrc_code]

theorem popc (d : Dst) (a : Src) : Statement (.popc d a) :=
  roundTrips4 (L := fun ls => a.lits ++ ls) rfl (fun _ => rfl) (by decide) d.code_lt a.code_lt (by decide) (by decide) fun x ls X => by
    show decode0x17 x _ = _
    unfold decode0x17
    rw [if_neg (fun h => absurd ((X.flow 3 8 (by decide)).symm.trans h.2) (by decide))]
    rw [if_neg (fun h => absurd ((X.flow 3 8 (by decide)).symm.trans h.2) (by decide))]
    rw [if_neg (fun h => absurd ((X.flow 1 10 (by decide)).symm.trans h) (by decide))]
    rw [if_pos ((X.flow 0 11 (by decide)).trans (by decide))]
    rw [X.fc, X.fa]
    simp only [takeDst_code, takeSrc_code]

theorem clz (d : Dst) (a : Src) : Statement (.clz d a) :=
  roundTrips4 (L := fun ls => a.lits ++ ls) rfl (fun _ => rfl) (by decide) d.code_lt a.code_lt (by decide) (by decide) fun x ls X => by
    show decode0x17 x _ = _
    unfold decode0x17
    rw [if_neg (fun h => absurd ((X.flow 3 8 (by decide)).symm.trans h.2) (by decide))]
    rw [if_neg (fun h => absurd ((X.flow 3 8 (by decide)).symm.trans h.2) (by decide))]
    rw [if_neg (fun h => absurd ((X.flow 1 10 (by decide)).symm.trans h) (by decide))]
    rw [if_neg (fun h => absurd ((X.flow 0 11 (by decide)).symm.trans h) (by decide))]
    rw [if_pos ((X.flow 0 11 (by decide)).trans (by decide))]
    rw [X.fc, X.fa]
    simp only [takeDst_code, takeSrc_code]

theorem brev (d : Dst) (a : Src) : Statement (.brev d a) :=
  roundTrips4 (L := fun ls => a.lits ++ ls) rfl (fun _ => rfl) (by decide) d.code_lt a.code_lt (by decide) (by decide) fun x ls X => by
    show decode0x17 x _ = _
    unfold decode0x17
    rw [if_neg (fun h => absurd ((X.flow 3 8 (by decide)).symm.trans h.2) (by decide))]
    rw [if_neg (fun h => absurd ((X.flow 3 8 (by decide)).symm.trans h.2) (by decide))]
    rw [if_neg (fun h => absurd ((X.flow 1 10 (by decide)).symm.trans h) (by decide))]
    rw [if_neg (fun h => absurd ((X.flow 0 11 (by decide)).symm.trans h) (by decide))]
    rw [if_neg (fun h => absurd ((X.flow 0 11 (by decide)).symm.trans h) (by decide))]
    rw [if_pos ((X.flow 0 11 (by decide)).trans (by decide))]
    rw [X.fc, X.fa]
    simp only [takeDst_code, takeSrc_code]

theorem sxb (d : Dst) (a : Src) : Statement (.sxb d a) :=
  roundTrips4 (L := fun ls => a.lits ++ ls) rfl (fun _ => rfl) (by decide) d.code_lt a.code_lt (by decide) (by decide) fun x ls X => by
    show decode0x17 x _ = _
    unfold decode0x17
    rw [if_neg (fun h => absurd ((X.flow 3 8 (by decide)).symm.trans h.2) (by decide))]
    rw [if_neg (fun h => absurd ((X.flow 3 8 (by decide)).symm.trans h.2) (by decide))]
    rw [if_neg (fun h => absurd ((X.flow 1 10 (by decide)).symm.trans h) (by decide))]
    rw [if_neg (fun h => absurd ((X.flow 0 11 (by decide)).symm.trans h) (by decide))]
    rw [if_neg (fun h => absurd ((X.flow 0 11 (by decide)).symm.trans h) (by decide))]
    rw [if_neg (fun h => absurd ((X.flow 0 11 (by decide)).symm.trans h) (by decide))]
    rw [if_pos ((X.flow 0 11 (by decide)).trans (by decide))]
    rw [X.fc, X.fa]
    simp only [takeDst_code, takeSrc_code]

theorem sxh (d : Dst) (a : Src) : Statement (.sxh d a) :=
  roundTrips4 (L := fun ls => a.lits ++ ls) rfl (fun _ => rfl) (by decide) d.code_lt a.code_lt (by decide) (by decide) fun x ls X => by
    show decode0x17 x _ = _
    unfold decode0x17
    rw [if_neg (fun h => absurd ((X.flow 3 8 (by decide)).symm.trans h.2) (by decide))]
    rw [if_neg (fun h => absurd ((X.flow 3 8 (by decide)).symm.trans h.2) (by decide))]
    rw [if_neg (fun h => absurd ((X.flow 1 10 (by decide)).symm.trans h) (by decide))]
    rw [if_neg (fun h => absurd ((X.flow 0 11 (by decide)).symm.trans h) (by decide))]
    rw [if_neg (fun h => absurd ((X.flow 0 11 (by decide)).symm.trans h) (by decide))]
    rw [if_neg (fun h => absurd ((X.flow 0 11 (by decide)).symm.trans h) (by decide))]
    rw [if_neg (fun h => absurd ((X.flow 0 11 (by decide)).symm.trans h) (by decide))]
    rw [if_pos ((X.flow 0 11 (by decide)).trans (by decide))]
    rw [X.fc, X.fa]
    simp only [takeDst_code, takeSrc_code]

theorem zxb (d : Dst) (a : Src) : Statement (.zxb d a) :=
  roundTrips4 (L := fun ls => a.lits ++ ls) rfl (fun _ => rfl) (by decide) d.code_lt a.code_lt (by decide) (by decide) fun x ls X => by
    show decode0x17 x _ = _
    unfold decode0x17
    rw [if_neg (fun h => absurd ((X.flow 3 8 (by decide)).symm.trans h.2) (by decide))]
    rw [if_neg (fun h => absurd ((X.flow 3 8 (by decide)).symm.trans h.2) (by decide))]
    rw [if_neg (fun h => absurd ((X.flow 1 10 (by decide)).symm.trans h) (by decide))]
    rw [if_neg (fun h => absurd ((X.flow 0 11 (by decide)).symm.trans h) (by decide))]
    rw [if_neg (fun h => absurd ((X.flow 0 11 (by decide)).symm.trans h) (by decide))]
    rw [if_neg (fun h => absurd ((X.flow 0 11 (by decide)).symm.trans h) (by decide))]
    rw [if_neg (fun h => absurd ((X.flow 0 11 (by decide)).symm.trans h) (by decide))]
    rw [if_neg (fun h => absurd ((X.flow 0 11 (by decide)).symm.trans h) (by decide))]
    rw [if_pos ((X.flow 0 11 (by decide)).trans (by decide))]
    rw [X.fc, X.fa]
    simp only [takeDst_code, takeSrc_code]

theorem zxh (d : Dst) (a : Src) : Statement (.zxh d a) :=
  roundTrips4 (L := fun ls => a.lits ++ ls) rfl (fun _ => rfl) (by decide) d.code_lt a.code_lt (by decide) (by decide) fun x ls X => by
    show decode0x17 x _ = _
    unfold decode0x17
    rw [if_neg (fun h => absurd ((X.flow 3 8 (by decide)).symm.trans h.2) (by decide))]
    rw [if_neg (fun h => absurd ((X.flow 3 8 (by decide)).symm.trans h.2) (by decide))]
    rw [if_neg (fun h => absurd ((X.flow 1 10 (by decide)).symm.trans h) (by decide))]
    rw [if_neg (fun h => absurd ((X.flow 0 11 (by decide)).symm.trans h) (by decide))]
    rw [if_neg (fun h => absurd ((X.flow 0 11 (by decide)).symm.trans h) (by decide))]
    rw [if_neg (fun h => absurd ((X.flow 0 11 (by decide)).symm.trans h) (by decide))]
    rw [if_neg (fun h => absurd ((X.flow 0 11 (by decide)).symm.trans h) (by decide))]
    rw [if_neg (fun h => absurd ((X.flow 0 11 (by decide)).symm.trans h) (by decide))]
    rw [if_neg (fun h => absurd ((X.flow 0 11 (by decide)).symm.trans h) (by decide))]
    rw [if_pos ((X.flow 0 11 (by decide)).trans (by decide))]
    rw [X.fc, X.fa]
    simp only [takeDst_code, takeSrc_code]

theorem ffs (d : Dst) (a : Src) : Statement (.ffs d a) :=
  roundTrips4 (L := fun ls => a.lits ++ ls) rfl (fun _ => rfl) (by decide) d.code_lt a.code_lt (by decide) (by decide) fun x ls X => by
    show decode0x17 x _ = _
    unfold decode0x17
    rw [if_neg (fun h => absurd ((X.flow 3 8 (by decide)).symm.trans h.2) (by decide))]
    rw [if_neg (fun h => absurd ((X.flow 3 8 (by decide)).symm.trans h.2) (by decide))]
    rw [if_neg (fun h => absurd ((X.flow 1 10 (by decide)).symm.trans h) (by decide))]
    rw [if_neg (fun h => absurd ((X.flow 0 11 (by decide)).symm.trans h) (by decide))]
    rw [if_neg (fun h => absurd ((X.flow 0 11 (by decide)).symm.trans h) (by decide))]
    rw [if_neg (fun h => absurd ((X.flow 0 11 (by decide)).symm.trans h) (by decide))]
    rw [if_neg (fun h => absurd ((X.flow 0 11 (by decide)).symm.trans h) (by decide))]
    rw [if_neg (fun h => absurd ((X.flow 0 11 (by decide)).symm.trans h) (by decide))]
    rw [if_neg (fun h => absurd ((X.flow 0 11 (by decide)).symm.trans h) (by decide))]
    rw [if_neg (fun h => absurd ((X.flow 0 11 (by decide)).symm.trans h) (by decide))]
    rw [if_pos ((X.flow 0 11 (by decide)).trans (by decide))]
    rw [X.fc, X.fa]
    simp only [takeDst_code, takeSrc_code]

theorem and (d : Dst) (a : Src) (b : Src) (w : Bool) : Statement (.and d a b w) :=
  roundTrips4 (L := fun ls => a.lits ++ (b.lits ++ ls)) rfl (fun _ => List.append_assoc ..) (by decide) d.code_lt a.code_lt b.code_lt (piece_28 w) fun x ls X => by
    show decode0x18 x _ = _
    unfold decode0x18
    rw [if_pos ((X.fm 1 3 (by decide)).trans (piece_33 w))]
    rw [X.fc, X.fa, X.fb, (show fbit x 0 = w from (congrArg (· == 1) (X.fm 0 1 (by decide))).trans (piece_32 w))]
    simp only [takeDst_code, takeSrc_code]

theorem or (d : Dst) (a : Src) (b : Src) (w : Bool) : Statement (.or d a b w) :=
  roundTrips4 (L := fun ls => a.lits ++ (b.lits ++ ls)) rfl (fun _ => List.append_assoc ..) (by decide) d.code_lt a.code_lt b.code_lt (piece_28 w) fun x ls X => by
    show decode0x19 x _ = _
    unfold decode0x19
    rw [if_pos ((X.fm 1 3 (by decide)).trans (piece_33 w))]
    rw [X.fc, X.fa, X.fb, (show fbit x 0 = w from (congrArg (· == 1) (X.fm 0 1 (by decide))).trans (piece_32 w))]
    simp only [takeDst_code, takeSrc_code]

theorem xor (d : Dst) (a : Src) (b : Src) (w : Bool) : Statement (.xor d a b w) :=
  roundTrips4 (L := fun ls => a.lits ++ (b.lits ++ ls)) rfl (fun _ => List.append_assoc ..) (by decide) d.code_lt a.code_lt b.code_lt (piece_28 w) fun x ls X => by
    show decode0x1A x _ = _
    unfold decode0x1A
    rw [if_pos ((X.fm 1 3 (by decide)).trans (piece_33 w))]
    rw [X.fc, X.fa, X.fb, (show fbit x 0 = w from (congrArg (· == 1) (X.fm 0 1 (by decide))).trans (piece_32 w))]
    simp only [takeDst_code, takeSrc_code]

theorem andn (d : Dst) (a : Src) (b : Src) (w : Bool) : Statement (.andn d a b w) :=
  roundTrips4 (L := fun ls => a.lits ++ (b.lits ++ ls)) rfl (fun _ => List.append_assoc ..) (by decide) d.code_lt a.code_lt b.code_lt (piece_28 w) fun x ls X => by
    show decode0x1B x _ = _
    unfold decode0x1B
    rw [if_pos ((X.fm 1 3 (by decide)).trans (piece_33 w))]
    rw [X.fc, X.fa, X.fb, (show fbit x 0 = w from (congrArg (· == 1) (X.fm 0 1 (by decide))).trans (piece_32 w))]
    simp only [takeDst_code, takeSrc_code]

theorem shl (d : Dst) (a : Src) (b : Src) (w : Bool) : Statement (.shl d a b w) :=
  roundTrips4 (L := fun ls => a.lits ++ (b.lits ++ ls)) rfl (fun _ => List.append_assoc ..) (by decide) d.code_lt a.code_lt b.code_lt (piece_28 w) fun x ls X => by
    show decode0x1C x _ = _
    unfold decode0x1C
    rw [if_pos ((X.fm 1 3 (by decide)).trans (piece_33 w))]
    rw [X.fc, X.fa, X.fb, (show fbit x 0 = w from (congrArg (· == 1) (X.fm 0 1 (by decide))).trans (piece_32 w))]
    simp only [takeDst_code, takeSrc_code]

theorem shr (d : Dst) (a : Src) (b : Src) (w : Bool) : Statement (.shr d a b w) :=
  roundTrips4 (L := fun ls => a.lits ++ (b.lits ++ ls)) rfl (fun _ => List.append_assoc ..) (by decide) d.code_lt a.code_lt b.code_lt (piece_28 w) fun x ls X => by
    show decode0x1D x _ = _
    unfold decode0x1D
    rw [if_pos ((X.fm 1 3 (by decide)).trans (piece_33 w))]
    rw [X.fc, X.fa, X.fb, (show fbit x 0 = w from (congrArg (· == 1) (X.fm 0 1 (by decide))).trans (piece_32 w))]
    simp only [takeDst_code, takeSrc_code]

theorem sra (d : Dst) (a : Src) (b : Src) (w : Bool) : Statement (.sra d a b w) :=
  roundTrips4 (L := fun ls => a.lits ++ (b.lits ++ ls)) rfl (fun _ => List.append_assoc ..) (by decide) d.code_lt a.code_lt b.code_lt (piece_28 w) fun x ls X => by
    show decode0x1E x _ = _
    unfold decode0x1E
    rw [if_pos ((X.fm 1 3 (by decide)).trans (piece_33 w))]
    rw [X.fc, X.fa, X.fb, (show fbit x 0 = w from (congrArg (· == 1) (X.fm 0 1 (by decide))).trans (piece_32 w))]
    simp only [takeDst_code, takeSrc_code]

theorem rol (d : Dst) (a : Src) (b : Src) (w : Bool) : Statement (.rol d a b w) :=
  roundTrips4 (L := fun ls => a.lits ++ (b.lits ++ ls)) rfl (fun _ => List.append_assoc ..) (by decide) d.code_lt a.code_lt b.code_lt (piece_28 w) fun x ls X => by
    show decode0x1F x _ = _
    unfold decode0x1F
    rw [if_pos ((X.fm 1 3 (by decide)).trans (piece_33 w))]
    rw [X.fc, X.fa, X.fb, (show fbit x 0 = w from (congrArg (· == 1) (X.fm 0 1 (by decide))).trans (piece_32 w))]
    simp only [takeDst_code, takeSrc_code]

theorem bfx (d : Dst) (a : Src) (b : Src) (u : Bool) : Statement (.bfx d a b u) :=
  roundTrips4 (L := fun ls => a.lits ++ (b.lits ++ ls)) rfl (fun _ => List.append_assoc ..) (by decide) d.code_lt a.code_lt b.code_lt (piece_34 u) fun x ls X => by
    show decode0x20 x _ = _
    unfold decode0x20
    rw [if_pos ⟨(X.fm 0 1 (by decide)).trans (piece_35 u), (X.fm 2 2 (by decide)).trans (piece_36 u)⟩]
    rw [X.fc, X.fa, X.fb, (show fbit x 1 = u from (congrArg (· == 1) (X.fm 1 1 (by decide))).trans (piece_37 u))]
    simp only [takeDst_code, takeSrc_code]

theorem bfi (d : Dst) (a : Src) (b : Src) : Statement (.bfi d a b) :=
  roundTrips4 (L := fun ls => a.lits ++ (b.lits ++ ls)) rfl (fun _ => List.append_assoc ..) (by decide) d.code_lt a.code_lt b.code_lt (by decide) fun x ls X => by
    show decode0x21 x _ = _
    unfold decode0x21
    rw [if_pos ((X.fm 0 4 (by decide)).trans (by decide))]
    rw [X.fc, X.fa, X.fb]
    simp only [takeDst_code, takeSrc_code]

theorem icmp (p : PReg) (a : Src) (b : Src) (c : Cond) : Statement (.icmp p a b c) :=
  roundTrips4 (L := fun ls => a.lits ++ (b.lits ++ ls)) rfl (fun _ => List.append_assoc ..) (by decide) (piece_7 p) a.code_lt b.code_lt (piece_38 c) fun x ls X => by
    show decode0x22 x _ = _
    unfold decode0x22
    rw [if_pos ((X.fchi 3 4 (by decide)).trans (piece_8 p))]
    rw [(X.fchi 0 3 (by decide)).trans (piece_9 p), X.fa, X.fb, (X.fm 0 4 (by decide)).trans (piece_39 c)]
    simp only [takePReg_code, takeSrc_code, Cond.ofCode_code, takeOpt]

theorem sel (d : Dst) (a : Src) (b : Src) (i : Bool) (p : PReg) : Statement (.sel d a b i p) :=
  roundTrips4 (L := fun ls => a.lits ++ (b.lits ++ ls)) rfl (fun _ => List.append_assoc ..) (by decide) d.code_lt a.code_lt b.code_lt (piece_40 i p) fun x ls X => by
    show decode0x23 x _ = _
    unfold decode0x23
    rw [X.fc, X.fa, X.fb, (X.fm 0 3 (by decide)).trans (piece_41 i p), (show fbit x 3 = i from (congrArg (· == 1) (X.fm 3 1 (by decide))).trans (piece_42 i p))]
    simp only [takeDst_code, takeSrc_code, takePReg_code]

theorem lea (d : Dst) (a : Src) (b : Src) (l : Bool) (s : BitVec 2) : Statement (.lea d a b l s) :=
  roundTrips4 (L := fun ls => a.lits ++ (b.lits ++ ls)) rfl (fun _ => List.append_assoc ..) (by decide) d.code_lt a.code_lt b.code_lt (piece_43 l s) fun x ls X => by
    show decode0x24 x _ = _
    unfold decode0x24
    rw [if_pos ((X.fm 3 1 (by decide)).trans (piece_44 l s))]
    rw [X.fc, X.fa, X.fb, (show fbit x 2 = l from (congrArg (· == 1) (X.fm 2 1 (by decide))).trans (piece_45 l s)), ((X.fm 0 2 (by decide)).trans (piece_46 l s))]
    simp only [takeDst_code, takeSrc_code, ofNat_toNat_self]

theorem mov (d : Dst) (a : Src) (w : Bool) : Statement (.mov d a w) :=
  roundTrips4 (L := fun ls => a.lits ++ ls) rfl (fun _ => rfl) (by decide) d.code_lt a.code_lt (by decide) (piece_28 w) fun x ls X => by
    show decode0x25 x _ = _
    unfold decode0x25
    rw [if_pos ((X.flow 1 10 (by decide)).trans (piece_47 w))]
    rw [X.fc, X.fa, (show fbit x 0 = w from (congrArg (· == 1) (X.fm 0 1 (by decide))).trans (piece_32 w))]
    simp only [takeDst_code, takeSrc_code]

theorem iaddi (d : Dst) (a : Src) (k : BitVec 11) : Statement (.iaddi d a k) :=
  roundTrips11 (L := fun ls => a.lits ++ ls) rfl (fun _ => rfl) (by decide) d.code_lt a.code_lt k.isLt fun x ls X => by
    show decode0x26 x _ = _
    unfold decode0x26
    rw [X.fc, X.fa, ((X.flow 0 11 (by decide)).trans (fld_self k.isLt))]
    simp only [takeDst_code, takeSrc_code, ofNat_toNat_self]

theorem andi (d : Dst) (a : Src) (k : BitVec 11) : Statement (.andi d a k) :=
  roundTrips11 (L := fun ls => a.lits ++ ls) rfl (fun _ => rfl) (by decide) d.code_lt a.code_lt k.isLt fun x ls X => by
    show decode0x27 x _ = _
    unfold decode0x27
    rw [X.fc, X.fa, ((X.flow 0 11 (by decide)).trans (fld_self k.isLt))]
    simp only [takeDst_code, takeSrc_code, ofNat_toNat_self]

theorem ori (d : Dst) (a : Src) (k : BitVec 11) : Statement (.ori d a k) :=
  roundTrips11 (L := fun ls => a.lits ++ ls) rfl (fun _ => rfl) (by decide) d.code_lt a.code_lt k.isLt fun x ls X => by
    show decode0x28 x _ = _
    unfold decode0x28
    rw [X.fc, X.fa, ((X.flow 0 11 (by decide)).trans (fld_self k.isLt))]
    simp only [takeDst_code, takeSrc_code, ofNat_toNat_self]

theorem xori (d : Dst) (a : Src) (k : BitVec 11) : Statement (.xori d a k) :=
  roundTrips11 (L := fun ls => a.lits ++ ls) rfl (fun _ => rfl) (by decide) d.code_lt a.code_lt k.isLt fun x ls X => by
    show decode0x29 x _ = _
    unfold decode0x29
    rw [X.fc, X.fa, ((X.flow 0 11 (by decide)).trans (fld_self k.isLt))]
    simp only [takeDst_code, takeSrc_code, ofNat_toNat_self]

theorem shli (d : Dst) (a : Src) (n : BitVec 5) : Statement (.shli d a n) :=
  roundTrips11 (L := fun ls => a.lits ++ ls) rfl (fun _ => rfl) (by decide) d.code_lt a.code_lt (piece_48 n) fun x ls X => by
    show decode0x2A x _ = _
    unfold decode0x2A
    rw [if_pos ((X.flow 5 6 (by decide)).trans (piece_49 n))]
    rw [X.fc, X.fa, ((X.flow 0 5 (by decide)).trans (fld_self n.isLt))]
    simp only [takeDst_code, takeSrc_code, ofNat_toNat_self]

theorem shri (d : Dst) (a : Src) (n : BitVec 5) : Statement (.shri d a n) :=
  roundTrips11 (L := fun ls => a.lits ++ ls) rfl (fun _ => rfl) (by decide) d.code_lt a.code_lt (piece_50 n) fun x ls X => by
    show decode0x2A x _ = _
    unfold decode0x2A
    rw [if_neg (fun h => absurd ((X.flow 5 6 (by decide)).symm.trans h) (piece_51 n))]
    rw [if_pos ((X.flow 5 6 (by decide)).trans (piece_52 n))]
    rw [X.fc, X.fa, ((X.flow 0 5 (by decide)).trans (piece_53 n))]
    simp only [takeDst_code, takeSrc_code, ofNat_toNat_self]

theorem srai (d : Dst) (a : Src) (n : BitVec 5) : Statement (.srai d a n) :=
  roundTrips11 (L := fun ls => a.lits ++ ls) rfl (fun _ => rfl) (by decide) d.code_lt a.code_lt (piece_54 n) fun x ls X => by
    show decode0x2A x _ = _
    unfold decode0x2A
    rw [if_neg (fun h => absurd ((X.flow 5 6 (by decide)).symm.trans h) (piece_55 n))]
    rw [if_neg (fun h => absurd ((X.flow 5 6 (by decide)).symm.trans h) (piece_56 n))]
    rw [if_pos ((X.flow 5 6 (by decide)).trans (piece_57 n))]
    rw [X.fc, X.fa, ((X.flow 0 5 (by decide)).trans (piece_58 n))]
    simp only [takeDst_code, takeSrc_code, ofNat_toNat_self]

theorem roli (d : Dst) (a : Src) (n : BitVec 5) : Statement (.roli d a n) :=
  roundTrips11 (L := fun ls => a.lits ++ ls) rfl (fun _ => rfl) (by decide) d.code_lt a.code_lt (piece_59 n) fun x ls X => by
    show decode0x2A x _ = _
    unfold decode0x2A
    rw [if_neg (fun h => absurd ((X.flow 5 6 (by decide)).symm.trans h) (piece_60 n))]
    rw [if_neg (fun h => absurd ((X.flow 5 6 (by decide)).symm.trans h) (piece_61 n))]
    rw [if_neg (fun h => absurd ((X.flow 5 6 (by decide)).symm.trans h) (piece_62 n))]
    rw [if_pos ((X.flow 5 6 (by decide)).trans (piece_63 n))]
    rw [X.fc, X.fa, ((X.flow 0 5 (by decide)).trans (piece_64 n))]
    simp only [takeDst_code, takeSrc_code, ofNat_toNat_self]

theorem icmpi (p : PReg) (a : Src) (c : Cond) (k : BitVec 7) : Statement (.icmpi p a c k) :=
  roundTrips11 (L := fun ls => a.lits ++ ls) rfl (fun _ => rfl) (by decide) (piece_7 p) a.code_lt (piece_65 c k) fun x ls X => by
    show decode0x2B x _ = _
    unfold decode0x2B
    rw [if_pos ((X.fchi 3 4 (by decide)).trans (piece_8 p))]
    rw [(X.fchi 0 3 (by decide)).trans (piece_9 p), X.fa, (X.flow 7 4 (by decide)).trans (piece_66 c k), ((X.flow 0 7 (by decide)).trans (piece_67 c k))]
    simp only [takePReg_code, takeSrc_code, Cond.ofCode_code, ofNat_toNat_self, takeOpt]

theorem movi (d : Dst) (k : BitVec 18) : Statement (.movi d k) :=
  roundTrips18 (L := fun ls => ls) rfl (fun _ => rfl) (by decide) d.code_lt k.isLt fun x ls X => by
    show decode0x2C x _ = _
    unfold decode0x2C
    rw [X.fc, ((X.fk 0 18 (by decide)).trans (fld_self k.isLt))]
    simp only [takeDst_code, ofNat_toNat_self]

theorem movhi (d : Dst) (k : BitVec 18) : Statement (.movhi d k) :=
  roundTrips18 (L := fun ls => ls) rfl (fun _ => rfl) (by decide) d.code_lt k.isLt fun x ls X => by
    show decode0x2D x _ = _
    unfold decode0x2D
    rw [X.fc, ((X.fk 0 18 (by decide)).trans (fld_self k.isLt))]
    simp only [takeDst_code, ofNat_toNat_self]

theorem pand (d : PReg) (a : PReg) (b : PReg) : Statement (.pand d a b) :=
  roundTrips4 (L := fun ls => ls) rfl (fun _ => rfl) (by decide) (piece_7 d) (piece_7 a) (piece_7 b) (by decide) fun x ls X => by
    show decode0x2E x _ = _
    unfold decode0x2E
    rw [if_pos ⟨(X.fm 0 4 (by decide)).trans (by decide), (X.fbhi 3 4 (by decide)).trans (piece_8 b), (X.fahi 3 4 (by decide)).trans (piece_8 a), (X.fchi 3 4 (by decide)).trans (piece_8 d)⟩]
    rw [(X.fchi 0 3 (by decide)).trans (piece_9 d), (X.fahi 0 3 (by decide)).trans (piece_9 a), (X.fbhi 0 3 (by decide)).trans (piece_9 b)]
    simp only [takePReg_code]

theorem por (d : PReg) (a : PReg) (b : PReg) : Statement (.por d a b) :=
  roundTrips4 (L := fun ls => ls) rfl (fun _ => rfl) (by decide) (piece_7 d) (piece_7 a) (piece_7 b) (by decide) fun x ls X => by
    show decode0x2E x _ = _
    unfold decode0x2E
    rw [if_neg (fun h => absurd ((X.fm 0 4 (by decide)).symm.trans h.1) (by decide))]
    rw [if_pos ⟨(X.fm 0 4 (by decide)).trans (by decide), (X.fbhi 3 4 (by decide)).trans (piece_8 b), (X.fahi 3 4 (by decide)).trans (piece_8 a), (X.fchi 3 4 (by decide)).trans (piece_8 d)⟩]
    rw [(X.fchi 0 3 (by decide)).trans (piece_9 d), (X.fahi 0 3 (by decide)).trans (piece_9 a), (X.fbhi 0 3 (by decide)).trans (piece_9 b)]
    simp only [takePReg_code]

theorem pxor (d : PReg) (a : PReg) (b : PReg) : Statement (.pxor d a b) :=
  roundTrips4 (L := fun ls => ls) rfl (fun _ => rfl) (by decide) (piece_7 d) (piece_7 a) (piece_7 b) (by decide) fun x ls X => by
    show decode0x2E x _ = _
    unfold decode0x2E
    rw [if_neg (fun h => absurd ((X.fm 0 4 (by decide)).symm.trans h.1) (by decide))]
    rw [if_neg (fun h => absurd ((X.fm 0 4 (by decide)).symm.trans h.1) (by decide))]
    rw [if_pos ⟨(X.fm 0 4 (by decide)).trans (by decide), (X.fbhi 3 4 (by decide)).trans (piece_8 b), (X.fahi 3 4 (by decide)).trans (piece_8 a), (X.fchi 3 4 (by decide)).trans (piece_8 d)⟩]
    rw [(X.fchi 0 3 (by decide)).trans (piece_9 d), (X.fahi 0 3 (by decide)).trans (piece_9 a), (X.fbhi 0 3 (by decide)).trans (piece_9 b)]
    simp only [takePReg_code]

theorem pandn (d : PReg) (a : PReg) (b : PReg) : Statement (.pandn d a b) :=
  roundTrips4 (L := fun ls => ls) rfl (fun _ => rfl) (by decide) (piece_7 d) (piece_7 a) (piece_7 b) (by decide) fun x ls X => by
    show decode0x2E x _ = _
    unfold decode0x2E
    rw [if_neg (fun h => absurd ((X.fm 0 4 (by decide)).symm.trans h.1) (by decide))]
    rw [if_neg (fun h => absurd ((X.fm 0 4 (by decide)).symm.trans h.1) (by decide))]
    rw [if_neg (fun h => absurd ((X.fm 0 4 (by decide)).symm.trans h.1) (by decide))]
    rw [if_pos ⟨(X.fm 0 4 (by decide)).trans (by decide), (X.fbhi 3 4 (by decide)).trans (piece_8 b), (X.fahi 3 4 (by decide)).trans (piece_8 a), (X.fchi 3 4 (by decide)).trans (piece_8 d)⟩]
    rw [(X.fchi 0 3 (by decide)).trans (piece_9 d), (X.fahi 0 3 (by decide)).trans (piece_9 a), (X.fbhi 0 3 (by decide)).trans (piece_9 b)]
    simp only [takePReg_code]

theorem pnot (d : PReg) (a : PReg) : Statement (.pnot d a) :=
  roundTrips4 (L := fun ls => ls) rfl (fun _ => rfl) (by decide) (piece_7 d) (piece_7 a) (by decide) (by decide) fun x ls X => by
    show decode0x2E x _ = _
    unfold decode0x2E
    rw [if_neg (fun h => absurd ((X.fm 0 4 (by decide)).symm.trans h.1) (by decide))]
    rw [if_neg (fun h => absurd ((X.fm 0 4 (by decide)).symm.trans h.1) (by decide))]
    rw [if_neg (fun h => absurd ((X.fm 0 4 (by decide)).symm.trans h.1) (by decide))]
    rw [if_neg (fun h => absurd ((X.fm 0 4 (by decide)).symm.trans h.1) (by decide))]
    rw [if_pos ⟨(X.flow 0 11 (by decide)).trans (by decide), (X.fahi 3 4 (by decide)).trans (piece_8 a), (X.fchi 3 4 (by decide)).trans (piece_8 d)⟩]
    rw [(X.fchi 0 3 (by decide)).trans (piece_9 d), (X.fahi 0 3 (by decide)).trans (piece_9 a)]
    simp only [takePReg_code]

theorem pmov (d : PReg) (a : PReg) : Statement (.pmov d a) :=
  roundTrips4 (L := fun ls => ls) rfl (fun _ => rfl) (by decide) (piece_7 d) (piece_7 a) (by decide) (by decide) fun x ls X => by
    show decode0x2E x _ = _
    unfold decode0x2E
    rw [if_neg (fun h => absurd ((X.fm 0 4 (by decide)).symm.trans h.1) (by decide))]
    rw [if_neg (fun h => absurd ((X.fm 0 4 (by decide)).symm.trans h.1) (by decide))]
    rw [if_neg (fun h => absurd ((X.fm 0 4 (by decide)).symm.trans h.1) (by decide))]
    rw [if_neg (fun h => absurd ((X.fm 0 4 (by decide)).symm.trans h.1) (by decide))]
    rw [if_neg (fun h => absurd ((X.flow 0 11 (by decide)).symm.trans h.1) (by decide))]
    rw [if_pos ⟨(X.flow 0 11 (by decide)).trans (by decide), (X.fahi 3 4 (by decide)).trans (piece_8 a), (X.fchi 3 4 (by decide)).trans (piece_8 d)⟩]
    rw [(X.fchi 0 3 (by decide)).trans (piece_9 d), (X.fahi 0 3 (by decide)).trans (piece_9 a)]
    simp only [takePReg_code]

theorem p2v (d : Dst) : Statement (.p2v d) :=
  roundTrips4 (L := fun ls => ls) rfl (fun _ => rfl) (by decide) d.code_lt (by decide) (by decide) (by decide) fun x ls X => by
    show decode0x2F x _ = _
    unfold decode0x2F
    rw [if_pos ((X.fk 0 18 (by decide)).trans (by decide))]
    rw [X.fc]
    simp only [takeDst_code]

theorem v2p (a : Src) : Statement (.v2p a) :=
  roundTrips4 (L := fun ls => a.lits ++ ls) rfl (fun _ => rfl) (by decide) (by decide) a.code_lt (by decide) (by decide) fun x ls X => by
    show decode0x2F x _ = _
    unfold decode0x2F
    rw [if_neg (fun h => absurd ((X.fk 0 18 (by decide)).symm.trans h) (piece_68 a))]
    rw [if_pos ⟨(X.flow 0 11 (by decide)).trans (by decide), X.fc.trans (by decide)⟩]
    rw [X.fa]
    simp only [takeSrc_code]

theorem fadd (d : Dst) (a : Src) (b : Src) (r : RMode) (t : FType) : Statement (.fadd d a b r t) :=
  roundTrips4 (L := fun ls => a.lits ++ (b.lits ++ ls)) rfl (fun _ => List.append_assoc ..) (by decide) d.code_lt a.code_lt b.code_lt (piece_69 r t) fun x ls X => by
    show decode0x30 x _ = _
    unfold decode0x30
    rw [X.fc, X.fa, X.fb, (X.fm 2 2 (by decide)).trans (piece_70 r t), (X.fm 0 2 (by decide)).trans (piece_71 r t)]
    simp only [takeDst_code, takeSrc_code, RMode.ofCode_code, FType.ofCode_code, takeOpt]

theorem fsub (d : Dst) (a : Src) (b : Src) (r : RMode) (t : FType) : Statement (.fsub d a b r t) :=
  roundTrips4 (L := fun ls => a.lits ++ (b.lits ++ ls)) rfl (fun _ => List.append_assoc ..) (by decide) d.code_lt a.code_lt b.code_lt (piece_69 r t) fun x ls X => by
    show decode0x31 x _ = _
    unfold decode0x31
    rw [X.fc, X.fa, X.fb, (X.fm 2 2 (by decide)).trans (piece_70 r t), (X.fm 0 2 (by decide)).trans (piece_71 r t)]
    simp only [takeDst_code, takeSrc_code, RMode.ofCode_code, FType.ofCode_code, takeOpt]

theorem fmul (d : Dst) (a : Src) (b : Src) (r : RMode) (t : FType) : Statement (.fmul d a b r t) :=
  roundTrips4 (L := fun ls => a.lits ++ (b.lits ++ ls)) rfl (fun _ => List.append_assoc ..) (by decide) d.code_lt a.code_lt b.code_lt (piece_69 r t) fun x ls X => by
    show decode0x32 x _ = _
    unfold decode0x32
    rw [X.fc, X.fa, X.fb, (X.fm 2 2 (by decide)).trans (piece_70 r t), (X.fm 0 2 (by decide)).trans (piece_71 r t)]
    simp only [takeDst_code, takeSrc_code, RMode.ofCode_code, FType.ofCode_code, takeOpt]

theorem ffma (d : Dst) (a : Src) (b : Src) (r : RMode) (t : FType) : Statement (.ffma d a b r t) :=
  roundTrips4 (L := fun ls => a.lits ++ (b.lits ++ ls)) rfl (fun _ => List.append_assoc ..) (by decide) d.code_lt a.code_lt b.code_lt (piece_69 r t) fun x ls X => by
    show decode0x33 x _ = _
    unfold decode0x33
    rw [X.fc, X.fa, X.fb, (X.fm 2 2 (by decide)).trans (piece_70 r t), (X.fm 0 2 (by decide)).trans (piece_71 r t)]
    simp only [takeDst_code, takeSrc_code, RMode.ofCode_code, FType.ofCode_code, takeOpt]

theorem fmin (d : Dst) (a : Src) (b : Src) (t : FType) : Statement (.fmin d a b t) :=
  roundTrips4 (L := fun ls => a.lits ++ (b.lits ++ ls)) rfl (fun _ => List.append_assoc ..) (by decide) d.code_lt a.code_lt b.code_lt (piece_72 t) fun x ls X => by
    show decode0x34 x _ = _
    unfold decode0x34
    rw [if_pos ((X.fm 2 2 (by decide)).trans (piece_73 t))]
    rw [X.fc, X.fa, X.fb, (X.fm 0 2 (by decide)).trans (piece_74 t)]
    simp only [takeDst_code, takeSrc_code, FType.ofCode_code, takeOpt]

theorem fmax (d : Dst) (a : Src) (b : Src) (t : FType) : Statement (.fmax d a b t) :=
  roundTrips4 (L := fun ls => a.lits ++ (b.lits ++ ls)) rfl (fun _ => List.append_assoc ..) (by decide) d.code_lt a.code_lt b.code_lt (piece_72 t) fun x ls X => by
    show decode0x35 x _ = _
    unfold decode0x35
    rw [if_pos ((X.fm 2 2 (by decide)).trans (piece_73 t))]
    rw [X.fc, X.fa, X.fb, (X.fm 0 2 (by decide)).trans (piece_74 t)]
    simp only [takeDst_code, takeSrc_code, FType.ofCode_code, takeOpt]

theorem fabs (d : Dst) (a : Src) (t : FType) : Statement (.fabs d a t) :=
  roundTrips4 (L := fun ls => a.lits ++ ls) rfl (fun _ => rfl) (by decide) d.code_lt a.code_lt (by decide) (piece_72 t) fun x ls X => by
    show decode0x36 x _ = _
    unfold decode0x36
    rw [if_pos ((X.flow 2 9 (by decide)).trans (piece_75 t))]
    rw [X.fc, X.fa, (X.fm 0 2 (by decide)).trans (piece_74 t)]
    simp only [takeDst_code, takeSrc_code, FType.ofCode_code, takeOpt]

theorem fneg (d : Dst) (a : Src) (t : FType) : Statement (.fneg d a t) :=
  roundTrips4 (L := fun ls => a.lits ++ ls) rfl (fun _ => rfl) (by decide) d.code_lt a.code_lt (by decide) (piece_72 t) fun x ls X => by
    show decode0x36 x _ = _
    unfold decode0x36
    rw [if_neg (fun h => absurd ((X.flow 2 9 (by decide)).symm.trans h) (piece_76 t))]
    rw [if_pos ((X.flow 2 9 (by decide)).trans (piece_77 t))]
    rw [X.fc, X.fa, (X.fm 0 2 (by decide)).trans (piece_74 t)]
    simp only [takeDst_code, takeSrc_code, FType.ofCode_code, takeOpt]

theorem frnd (d : Dst) (a : Src) (r : RMode) (t : FType) : Statement (.frnd d a r t) :=
  roundTrips4 (L := fun ls => a.lits ++ ls) rfl (fun _ => rfl) (by decide) d.code_lt a.code_lt (by decide) (piece_69 r t) fun x ls X => by
    show decode0x36 x _ = _
    unfold decode0x36
    rw [if_neg (fun h => absurd ((X.flow 2 9 (by decide)).symm.trans h) (piece_78 r t))]
    rw [if_neg (fun h => absurd ((X.flow 2 9 (by decide)).symm.trans h) (piece_79 r t))]
    rw [if_pos (X.fb.trans (by decide))]
    rw [X.fc, X.fa, (X.fm 2 2 (by decide)).trans (piece_70 r t), (X.fm 0 2 (by decide)).trans (piece_71 r t)]
    simp only [takeDst_code, takeSrc_code, RMode.ofCode_code, FType.ofCode_code, takeOpt]

theorem fcls (d : Dst) (a : Src) (t : FType) : Statement (.fcls d a t) :=
  roundTrips4 (L := fun ls => a.lits ++ ls) rfl (fun _ => rfl) (by decide) d.code_lt a.code_lt (by decide) (piece_72 t) fun x ls X => by
    show decode0x36 x _ = _
    unfold decode0x36
    rw [if_neg (fun h => absurd ((X.flow 2 9 (by decide)).symm.trans h) (piece_80 t))]
    rw [if_neg (fun h => absurd ((X.flow 2 9 (by decide)).symm.trans h) (piece_81 t))]
    rw [if_neg (fun h => absurd (X.fb.symm.trans h) (by decide))]
    rw [if_pos ((X.flow 2 9 (by decide)).trans (piece_82 t))]
    rw [X.fc, X.fa, (X.fm 0 2 (by decide)).trans (piece_74 t)]
    simp only [takeDst_code, takeSrc_code, FType.ofCode_code, takeOpt]

theorem fexp (d : Dst) (a : Src) (t : FType) : Statement (.fexp d a t) :=
  roundTrips4 (L := fun ls => a.lits ++ ls) rfl (fun _ => rfl) (by decide) d.code_lt a.code_lt (by decide) (piece_72 t) fun x ls X => by
    show decode0x36 x _ = _
    unfold decode0x36
    rw [if_neg (fun h => absurd ((X.flow 2 9 (by decide)).symm.trans h) (piece_83 t))]
    rw [if_neg (fun h => absurd ((X.flow 2 9 (by decide)).symm.trans h) (piece_84 t))]
    rw [if_neg (fun h => absurd (X.fb.symm.trans h) (by decide))]
    rw [if_neg (fun h => absurd ((X.flow 2 9 (by decide)).symm.trans h) (piece_85 t))]
    rw [if_pos ((X.flow 2 9 (by decide)).trans (piece_86 t))]
    rw [X.fc, X.fa, (X.fm 0 2 (by decide)).trans (piece_74 t)]
    simp only [takeDst_code, takeSrc_code, FType.ofCode_code, takeOpt]

theorem fmant (d : Dst) (a : Src) (t : FType) : Statement (.fmant d a t) :=
  roundTrips4 (L := fun ls => a.lits ++ ls) rfl (fun _ => rfl) (by decide) d.code_lt a.code_lt (by decide) (piece_72 t) fun x ls X => by
    show decode0x36 x _ = _
    unfold decode0x36
    rw [if_neg (fun h => absurd ((X.flow 2 9 (by decide)).symm.trans h) (piece_87 t))]
    rw [if_neg (fun h => absurd ((X.flow 2 9 (by decide)).symm.trans h) (piece_88 t))]
    rw [if_neg (fun h => absurd (X.fb.symm.trans h) (by decide))]
    rw [if_neg (fun h => absurd ((X.flow 2 9 (by decide)).symm.trans h) (piece_89 t))]
    rw [if_neg (fun h => absurd ((X.flow 2 9 (by decide)).symm.trans h) (piece_90 t))]
    rw [if_pos ((X.flow 2 9 (by decide)).trans (piece_91 t))]
    rw [X.fc, X.fa, (X.fm 0 2 (by decide)).trans (piece_74 t)]
    simp only [takeDst_code, takeSrc_code, FType.ofCode_code, takeOpt]

theorem fcmp (p : PReg) (a : Src) (b : Src) (w : Bool) (c : FCond) : Statement (.fcmp p a b w c) :=
  roundTrips4 (L := fun ls => a.lits ++ (b.lits ++ ls)) rfl (fun _ => List.append_assoc ..) (by decide) (piece_7 p) a.code_lt b.code_lt (piece_92 w c) fun x ls X => by
    show decode0x37 x _ = _
    unfold decode0x37
    rw [if_pos ((X.fchi 3 4 (by decide)).trans (piece_8 p))]
    rw [(X.fchi 0 3 (by decide)).trans (piece_9 p), X.fa, X.fb, (X.fm 0 3 (by decide)).trans (piece_93 w c), (show fbit x 3 = w from (congrArg (· == 1) (X.fm 3 1 (by decide))).trans (piece_94 w c))]
    simp only [takePReg_code, takeSrc_code, FCond.ofCode_code, takeOpt]

theorem fcvt (d : Dst) (a : Src) (x : Conv) (r : RMode) (s : Bool) : Statement (.fcvt d a x r s) :=
  roundTrips4 (L := fun ls => a.lits ++ ls) rfl (fun _ => rfl) (by decide) d.code_lt a.code_lt (piece_95 x) (piece_96 r s) fun x ls X => by
    show decode0x38 x _ = _
    unfold decode0x38
    rw [if_pos ((X.fm 1 1 (by decide)).trans (piece_97 r s))]
    rw [X.fc, X.fa, X.fb, (X.fm 2 2 (by decide)).trans (piece_98 r s), (show fbit x 0 = s from (congrArg (· == 1) (X.fm 0 1 (by decide))).trans (piece_99 r s))]
    simp only [takeDst_code, takeSrc_code, Conv.ofCode_code, RMode.ofCode_code, takeOpt]

theorem rcp (d : Dst) (a : Src) : Statement (.rcp d a) :=
  roundTrips4 (L := fun ls => a.lits ++ ls) rfl (fun _ => rfl) (by decide) d.code_lt a.code_lt (by decide) (by decide) fun x ls X => by
    show decode0x39 x _ = _
    unfold decode0x39
    rw [if_pos ((X.flow 0 11 (by decide)).trans (by decide))]
    rw [X.fc, X.fa]
    simp only [takeDst_code, takeSrc_code]

theorem rsq (d : Dst) (a : Src) : Statement (.rsq d a) :=
  roundTrips4 (L := fun ls => a.lits ++ ls) rfl (fun _ => rfl) (by decide) d.code_lt a.code_lt (by decide) (by decide) fun x ls X => by
    show decode0x39 x _ = _
    unfold decode0x39
    rw [if_neg (fun h => absurd ((X.flow 0 11 (by decide)).symm.trans h) (by decide))]
    rw [if_pos ((X.flow 0 11 (by decide)).trans (by decide))]
    rw [X.fc, X.fa]
    simp only [takeDst_code, takeSrc_code]

theorem sqrt (d : Dst) (a : Src) : Statement (.sqrt d a) :=
  roundTrips4 (L := fun ls => a.lits ++ ls) rfl (fun _ => rfl) (by decide) d.code_lt a.code_lt (by decide) (by decide) fun x ls X => by
    show decode0x39 x _ = _
    unfold decode0x39
    rw [if_neg (fun h => absurd ((X.flow 0 11 (by decide)).symm.trans h) (by decide))]
    rw [if_neg (fun h => absurd ((X.flow 0 11 (by decide)).symm.trans h) (by decide))]
    rw [if_pos ((X.flow 0 11 (by decide)).trans (by decide))]
    rw [X.fc, X.fa]
    simp only [takeDst_code, takeSrc_code]

theorem ex2 (d : Dst) (a : Src) : Statement (.ex2 d a) :=
  roundTrips4 (L := fun ls => a.lits ++ ls) rfl (fun _ => rfl) (by decide) d.code_lt a.code_lt (by decide) (by decide) fun x ls X => by
    show decode0x39 x _ = _
    unfold decode0x39
    rw [if_neg (fun h => absurd ((X.flow 0 11 (by decide)).symm.trans h) (by decide))]
    rw [if_neg (fun h => absurd ((X.flow 0 11 (by decide)).symm.trans h) (by decide))]
    rw [if_neg (fun h => absurd ((X.flow 0 11 (by decide)).symm.trans h) (by decide))]
    rw [if_pos ((X.flow 0 11 (by decide)).trans (by decide))]
    rw [X.fc, X.fa]
    simp only [takeDst_code, takeSrc_code]

theorem lg2 (d : Dst) (a : Src) : Statement (.lg2 d a) :=
  roundTrips4 (L := fun ls => a.lits ++ ls) rfl (fun _ => rfl) (by decide) d.code_lt a.code_lt (by decide) (by decide) fun x ls X => by
    show decode0x39 x _ = _
    unfold decode0x39
    rw [if_neg (fun h => absurd ((X.flow 0 11 (by decide)).symm.trans h) (by decide))]
    rw [if_neg (fun h => absurd ((X.flow 0 11 (by decide)).symm.trans h) (by decide))]
    rw [if_neg (fun h => absurd ((X.flow 0 11 (by decide)).symm.trans h) (by decide))]
    rw [if_neg (fun h => absurd ((X.flow 0 11 (by decide)).symm.trans h) (by decide))]
    rw [if_pos ((X.flow 0 11 (by decide)).trans (by decide))]
    rw [X.fc, X.fa]
    simp only [takeDst_code, takeSrc_code]

theorem sinpi (d : Dst) (a : Src) : Statement (.sinpi d a) :=
  roundTrips4 (L := fun ls => a.lits ++ ls) rfl (fun _ => rfl) (by decide) d.code_lt a.code_lt (by decide) (by decide) fun x ls X => by
    show decode0x39 x _ = _
    unfold decode0x39
    rw [if_neg (fun h => absurd ((X.flow 0 11 (by decide)).symm.trans h) (by decide))]
    rw [if_neg (fun h => absurd ((X.flow 0 11 (by decide)).symm.trans h) (by decide))]
    rw [if_neg (fun h => absurd ((X.flow 0 11 (by decide)).symm.trans h) (by decide))]
    rw [if_neg (fun h => absurd ((X.flow 0 11 (by decide)).symm.trans h) (by decide))]
    rw [if_neg (fun h => absurd ((X.flow 0 11 (by decide)).symm.trans h) (by decide))]
    rw [if_pos ((X.flow 0 11 (by decide)).trans (by decide))]
    rw [X.fc, X.fa]
    simp only [takeDst_code, takeSrc_code]

theorem cospi (d : Dst) (a : Src) : Statement (.cospi d a) :=
  roundTrips4 (L := fun ls => a.lits ++ ls) rfl (fun _ => rfl) (by decide) d.code_lt a.code_lt (by decide) (by decide) fun x ls X => by
    show decode0x39 x _ = _
    unfold decode0x39
    rw [if_neg (fun h => absurd ((X.flow 0 11 (by decide)).symm.trans h) (by decide))]
    rw [if_neg (fun h => absurd ((X.flow 0 11 (by decide)).symm.trans h) (by decide))]
    rw [if_neg (fun h => absurd ((X.flow 0 11 (by decide)).symm.trans h) (by decide))]
    rw [if_neg (fun h => absurd ((X.flow 0 11 (by decide)).symm.trans h) (by decide))]
    rw [if_neg (fun h => absurd ((X.flow 0 11 (by decide)).symm.trans h) (by decide))]
    rw [if_neg (fun h => absurd ((X.flow 0 11 (by decide)).symm.trans h) (by decide))]
    rw [if_pos ((X.flow 0 11 (by decide)).trans (by decide))]
    rw [X.fc, X.fa]
    simp only [takeDst_code, takeSrc_code]

theorem tanh (d : Dst) (a : Src) : Statement (.tanh d a) :=
  roundTrips4 (L := fun ls => a.lits ++ ls) rfl (fun _ => rfl) (by decide) d.code_lt a.code_lt (by decide) (by decide) fun x ls X => by
    show decode0x39 x _ = _
    unfold decode0x39
    rw [if_neg (fun h => absurd ((X.flow 0 11 (by decide)).symm.trans h) (by decide))]
    rw [if_neg (fun h => absurd ((X.flow 0 11 (by decide)).symm.trans h) (by decide))]
    rw [if_neg (fun h => absurd ((X.flow 0 11 (by decide)).symm.trans h) (by decide))]
    rw [if_neg (fun h => absurd ((X.flow 0 11 (by decide)).symm.trans h) (by decide))]
    rw [if_neg (fun h => absurd ((X.flow 0 11 (by decide)).symm.trans h) (by decide))]
    rw [if_neg (fun h => absurd ((X.flow 0 11 (by decide)).symm.trans h) (by decide))]
    rw [if_neg (fun h => absurd ((X.flow 0 11 (by decide)).symm.trans h) (by decide))]
    rw [if_pos ((X.flow 0 11 (by decide)).trans (by decide))]
    rw [X.fc, X.fa]
    simp only [takeDst_code, takeSrc_code]

theorem twosum (d : Dst) (a : Src) (b : Src) : Statement (.twosum d a b) :=
  roundTrips4 (L := fun ls => a.lits ++ (b.lits ++ ls)) rfl (fun _ => List.append_assoc ..) (by decide) d.code_lt a.code_lt b.code_lt (by decide) fun x ls X => by
    show decode0x3A x _ = _
    unfold decode0x3A
    rw [if_pos ((X.fm 0 4 (by decide)).trans (by decide))]
    rw [X.fc, X.fa, X.fb]
    simp only [takeDst_code, takeSrc_code]

theorem twoprod (d : Dst) (a : Src) (b : Src) : Statement (.twoprod d a b) :=
  roundTrips4 (L := fun ls => a.lits ++ (b.lits ++ ls)) rfl (fun _ => List.append_assoc ..) (by decide) d.code_lt a.code_lt b.code_lt (by decide) fun x ls X => by
    show decode0x3B x _ = _
    unfold decode0x3B
    rw [if_pos ((X.fm 0 4 (by decide)).trans (by decide))]
    rw [X.fc, X.fa, X.fb]
    simp only [takeDst_code, takeSrc_code]

theorem cmul (d : Dst) (a : Src) (b : Src) : Statement (.cmul d a b) :=
  roundTrips4 (L := fun ls => a.lits ++ (b.lits ++ ls)) rfl (fun _ => List.append_assoc ..) (by decide) d.code_lt a.code_lt b.code_lt (by decide) fun x ls X => by
    show decode0x3C x _ = _
    unfold decode0x3C
    rw [if_pos ((X.fm 0 4 (by decide)).trans (by decide))]
    rw [X.fc, X.fa, X.fb]
    simp only [takeDst_code, takeSrc_code]

theorem cfma (d : Dst) (a : Src) (b : Src) : Statement (.cfma d a b) :=
  roundTrips4 (L := fun ls => a.lits ++ (b.lits ++ ls)) rfl (fun _ => List.append_assoc ..) (by decide) d.code_lt a.code_lt b.code_lt (by decide) fun x ls X => by
    show decode0x3D x _ = _
    unfold decode0x3D
    rw [if_pos ((X.fm 0 4 (by decide)).trans (by decide))]
    rw [X.fc, X.fa, X.fb]
    simp only [takeDst_code, takeSrc_code]

theorem cacc (d : Dst) (a : Src) : Statement (.cacc d a) :=
  roundTrips4 (L := fun ls => a.lits ++ ls) rfl (fun _ => rfl) (by decide) d.code_lt a.code_lt (by decide) (by decide) fun x ls X => by
    show decode0x3E x _ = _
    unfold decode0x3E
    rw [if_pos ((X.flow 0 11 (by decide)).trans (by decide))]
    rw [X.fc, X.fa]
    simp only [takeDst_code, takeSrc_code]

theorem fdiv (d : Dst) (a : Src) (b : Src) : Statement (.fdiv d a b) :=
  roundTrips4 (L := fun ls => a.lits ++ (b.lits ++ ls)) rfl (fun _ => List.append_assoc ..) (by decide) d.code_lt a.code_lt b.code_lt (by decide) fun x ls X => by
    show decode0x3F x _ = _
    unfold decode0x3F
    rw [if_pos ((X.fm 0 4 (by decide)).trans (by decide))]
    rw [X.fc, X.fa, X.fb]
    simp only [takeDst_code, takeSrc_code]

theorem shfl (d : Dst) (a : Src) (b : Src) (w : Bool) (m : ShflMode) : Statement (.shfl d a b w m) :=
  roundTrips4 (L := fun ls => a.lits ++ (b.lits ++ ls)) rfl (fun _ => List.append_assoc ..) (by decide) d.code_lt a.code_lt b.code_lt (piece_100 w m) fun x ls X => by
    show decode0x40 x _ = _
    unfold decode0x40
    rw [if_pos ((X.fm 3 1 (by decide)).trans (piece_101 w m))]
    rw [X.fc, X.fa, X.fb, (X.fm 0 2 (by decide)).trans (piece_102 w m), (show fbit x 2 = w from (congrArg (· == 1) (X.fm 2 1 (by decide))).trans (piece_103 w m))]
    simp only [takeDst_code, takeSrc_code, ShflMode.ofCode_code, takeOpt]

theorem voteAny (d : PReg) (a : PReg) (i : Bool) : Statement (.voteAny d a i) :=
  roundTrips4 (L := fun ls => ls) rfl (fun _ => rfl) (by decide) (piece_7 d) (piece_7 a) (by decide) (piece_104 i) fun x ls X => by
    show decode0x41 x _ = _
    unfold decode0x41
    rw [if_pos ⟨(X.fm 0 2 (by decide)).trans (piece_105 i), (X.flow 3 8 (by decide)).trans (piece_106 i), (X.fahi 3 4 (by decide)).trans (piece_8 a), (X.fchi 3 4 (by decide)).trans (piece_8 d)⟩]
    rw [(X.fchi 0 3 (by decide)).trans (piece_9 d), (X.fahi 0 3 (by decide)).trans (piece_9 a), (show fbit x 2 = i from (congrArg (· == 1) (X.fm 2 1 (by decide))).trans (piece_107 i))]
    simp only [takePReg_code]

theorem voteAll (d : PReg) (a : PReg) (i : Bool) : Statement (.voteAll d a i) :=
  roundTrips4 (L := fun ls => ls) rfl (fun _ => rfl) (by decide) (piece_7 d) (piece_7 a) (by decide) (piece_108 i) fun x ls X => by
    show decode0x41 x _ = _
    unfold decode0x41
    rw [if_neg (fun h => absurd ((X.fm 0 2 (by decide)).symm.trans h.1) (piece_109 i))]
    rw [if_pos ⟨(X.fm 0 2 (by decide)).trans (piece_110 i), (X.flow 3 8 (by decide)).trans (piece_111 i), (X.fahi 3 4 (by decide)).trans (piece_8 a), (X.fchi 3 4 (by decide)).trans (piece_8 d)⟩]
    rw [(X.fchi 0 3 (by decide)).trans (piece_9 d), (X.fahi 0 3 (by decide)).trans (piece_9 a), (show fbit x 2 = i from (congrArg (· == 1) (X.fm 2 1 (by decide))).trans (piece_112 i))]
    simp only [takePReg_code]

theorem voteBallot (d : Dst) (a : PReg) (i : Bool) : Statement (.voteBallot d a i) :=
  roundTrips4 (L := fun ls => ls) rfl (fun _ => rfl) (by decide) d.code_lt (piece_7 a) (by decide) (piece_113 i) fun x ls X => by
    show decode0x41 x _ = _
    unfold decode0x41
    rw [if_neg (fun h => absurd ((X.fm 0 2 (by decide)).symm.trans h.1) (piece_114 i))]
    rw [if_neg (fun h => absurd ((X.fm 0 2 (by decide)).symm.trans h.1) (piece_115 i))]
    rw [if_pos ⟨(X.fm 0 2 (by decide)).trans (piece_116 i), (X.flow 3 8 (by decide)).trans (piece_117 i), (X.fahi 3 4 (by decide)).trans (piece_8 a)⟩]
    rw [X.fc, (X.fahi 0 3 (by decide)).trans (piece_9 a), (show fbit x 2 = i from (congrArg (· == 1) (X.fm 2 1 (by decide))).trans (piece_118 i))]
    simp only [takeDst_code, takePReg_code]

theorem voteUniform (d : PReg) (a : Src) : Statement (.voteUniform d a) :=
  roundTrips4 (L := fun ls => a.lits ++ ls) rfl (fun _ => rfl) (by decide) (piece_7 d) a.code_lt (by decide) (by decide) fun x ls X => by
    show decode0x41 x _ = _
    unfold decode0x41
    rw [if_neg (fun h => absurd ((X.fm 0 2 (by decide)).symm.trans h.1) (by decide))]
    rw [if_neg (fun h => absurd ((X.fm 0 2 (by decide)).symm.trans h.1) (by decide))]
    rw [if_neg (fun h => absurd ((X.fm 0 2 (by decide)).symm.trans h.1) (by decide))]
    rw [if_pos ⟨(X.flow 0 11 (by decide)).trans (by decide), (X.fchi 3 4 (by decide)).trans (piece_8 d)⟩]
    rw [(X.fchi 0 3 (by decide)).trans (piece_9 d), X.fa]
    simp only [takePReg_code, takeSrc_code]

theorem scan (d : Dst) (a : Src) (e : Bool) (o : ScanOp) : Statement (.scan d a e o) :=
  roundTrips4 (L := fun ls => a.lits ++ ls) rfl (fun _ => rfl) (by decide) d.code_lt a.code_lt (by decide) (piece_119 e o) fun x ls X => by
    show decode0x42 x _ = _
    unfold decode0x42
    rw [if_pos ((X.flow 3 8 (by decide)).trans (piece_120 e o))]
    rw [X.fc, X.fa, (X.fm 0 2 (by decide)).trans (piece_121 e o), (show fbit x 2 = e from (congrArg (· == 1) (X.fm 2 1 (by decide))).trans (piece_122 e o))]
    simp only [takeDst_code, takeSrc_code, ScanOp.ofCode_code, takeOpt]

theorem redw (d : Dst) (a : Src) (o : ScanOp) : Statement (.redw d a o) :=
  roundTrips4 (L := fun ls => a.lits ++ ls) rfl (fun _ => rfl) (by decide) d.code_lt a.code_lt (by decide) (piece_123 o) fun x ls X => by
    show decode0x43 x _ = _
    unfold decode0x43
    rw [if_pos ((X.flow 2 9 (by decide)).trans (piece_124 o))]
    rw [X.fc, X.fa, (X.fm 0 2 (by decide)).trans (piece_125 o)]
    simp only [takeDst_code, takeSrc_code, ScanOp.ofCode_code, takeOpt]

theorem matchLanes (d : Dst) (a : Src) (w : Bool) : Statement (.matchLanes d a w) :=
  roundTrips4 (L := fun ls => a.lits ++ ls) rfl (fun _ => rfl) (by decide) d.code_lt a.code_lt (by decide) (piece_28 w) fun x ls X => by
    show decode0x44 x _ = _
    unfold decode0x44
    rw [if_pos ((X.flow 1 10 (by decide)).trans (piece_47 w))]
    rw [X.fc, X.fa, (show fbit x 0 = w from (congrArg (· == 1) (X.fm 0 1 (by decide))).trans (piece_32 w))]
    simp only [takeDst_code, takeSrc_code]

theorem lget (d : Dst) (a : Src) (b : Src) (w : Bool) : Statement (.lget d a b w) :=
  roundTrips4 (L := fun ls => a.lits ++ (b.lits ++ ls)) rfl (fun _ => List.append_assoc ..) (by decide) d.code_lt a.code_lt b.code_lt (piece_28 w) fun x ls X => by
    show decode0x45 x _ = _
    unfold decode0x45
    rw [if_pos ((X.fm 1 3 (by decide)).trans (piece_33 w))]
    rw [X.fc, X.fa, X.fb, (show fbit x 0 = w from (congrArg (· == 1) (X.fm 0 1 (by decide))).trans (piece_32 w))]
    simp only [takeDst_code, takeSrc_code]

theorem prmt (d : Dst) (a : Src) (b : Src) : Statement (.prmt d a b) :=
  roundTrips4 (L := fun ls => a.lits ++ (b.lits ++ ls)) rfl (fun _ => List.append_assoc ..) (by decide) d.code_lt a.code_lt b.code_lt (by decide) fun x ls X => by
    show decode0x46 x _ = _
    unfold decode0x46
    rw [if_pos ((X.fm 0 4 (by decide)).trans (by decide))]
    rw [X.fc, X.fa, X.fb]
    simp only [takeDst_code, takeSrc_code]

theorem lset (d : Dst) (a : Src) (b : Src) (w : Bool) : Statement (.lset d a b w) :=
  roundTrips4 (L := fun ls => a.lits ++ (b.lits ++ ls)) rfl (fun _ => List.append_assoc ..) (by decide) d.code_lt a.code_lt b.code_lt (piece_28 w) fun x ls X => by
    show decode0x47 x _ = _
    unfold decode0x47
    rw [if_pos ((X.fm 1 3 (by decide)).trans (piece_33 w))]
    rw [X.fc, X.fa, X.fb, (show fbit x 0 = w from (congrArg (· == 1) (X.fm 0 1 (by decide))).trans (piece_32 w))]
    simp only [takeDst_code, takeSrc_code]

theorem neg (a : Src) (b : Src) (f : Bool) (c : Bool) : Statement (.neg a b f c) :=
  roundTrips4 (L := fun ls => a.lits ++ (b.lits ++ ls)) rfl (fun _ => List.append_assoc ..) (by decide) (by decide) a.code_lt b.code_lt (piece_126 f c) fun x ls X => by
    show decode0x48 x _ = _
    unfold decode0x48
    rw [if_pos ⟨(X.fm 1 2 (by decide)).trans (piece_127 f c), X.fc.trans (by decide)⟩]
    rw [X.fa, X.fb, (show fbit x 3 = f from (congrArg (· == 1) (X.fm 3 1 (by decide))).trans (piece_128 f c)), (show fbit x 0 = c from (congrArg (· == 1) (X.fm 0 1 (by decide))).trans (piece_129 f c))]
    simp only [takeSrc_code]

theorem expo (a : Src) (b : Src) (f : Bool) (u : Bool) : Statement (.expo a b f u) :=
  roundTrips4 (L := fun ls => a.lits ++ (b.lits ++ ls)) rfl (fun _ => List.append_assoc ..) (by decide) (by decide) a.code_lt b.code_lt (piece_130 f u) fun x ls X => by
    show decode0x49 x _ = _
    unfold decode0x49
    rw [if_pos ⟨(X.fm 0 2 (by decide)).trans (piece_131 f u), X.fc.trans (by decide)⟩]
    rw [X.fa, X.fb, (show fbit x 3 = f from (congrArg (· == 1) (X.fm 3 1 (by decide))).trans (piece_132 f u)), (show fbit x 2 = u from (congrArg (· == 1) (X.fm 2 1 (by decide))).trans (piece_133 f u))]
    simp only [takeSrc_code]

theorem cexpo (a : Src) (b : Src) (f : Bool) (u : Bool) : Statement (.cexpo a b f u) :=
  roundTrips4 (L := fun ls => a.lits ++ (b.lits ++ ls)) rfl (fun _ => List.append_assoc ..) (by decide) (by decide) a.code_lt b.code_lt (piece_130 f u) fun x ls X => by
    show decode0x4A x _ = _
    unfold decode0x4A
    rw [if_pos ⟨(X.fm 0 2 (by decide)).trans (piece_131 f u), X.fc.trans (by decide)⟩]
    rw [X.fa, X.fb, (show fbit x 3 = f from (congrArg (· == 1) (X.fm 3 1 (by decide))).trans (piece_132 f u)), (show fbit x 2 = u from (congrArg (· == 1) (X.fm 2 1 (by decide))).trans (piece_133 f u))]
    simp only [takeSrc_code]

theorem had (a : Src) (b : Src) (f : Bool) (c : Bool) (n : Bool) (h : Bool) : Statement (.had a b f c n h) :=
  roundTrips4 (L := fun ls => a.lits ++ (b.lits ++ ls)) rfl (fun _ => List.append_assoc ..) (by decide) (by decide) a.code_lt b.code_lt (piece_134 f c n h) fun x ls X => by
    show decode0x4B x _ = _
    unfold decode0x4B
    rw [if_pos (X.fc.trans (by decide))]
    rw [X.fa, X.fb, (show fbit x 3 = f from (congrArg (· == 1) (X.fm 3 1 (by decide))).trans (piece_135 f c n h)), (show fbit x 2 = c from (congrArg (· == 1) (X.fm 2 1 (by decide))).trans (piece_136 f c n h)), (show fbit x 1 = n from (congrArg (· == 1) (X.fm 1 1 (by decide))).trans (piece_137 f c n h)), (show fbit x 0 = h from (congrArg (· == 1) (X.fm 0 1 (by decide))).trans (piece_138 f c n h))]
    simp only [takeSrc_code]

theorem accz (a : Src) (f : Bool) (u : Bool) : Statement (.accz a f u) :=
  roundTrips4 (L := fun ls => a.lits ++ ls) rfl (fun _ => rfl) (by decide) (by decide) a.code_lt (by decide) (piece_130 f u) fun x ls X => by
    show decode0x4C x _ = _
    unfold decode0x4C
    rw [if_pos ⟨(X.fm 0 2 (by decide)).trans (piece_131 f u), X.fb.trans (by decide), X.fc.trans (by decide)⟩]
    rw [X.fa, (show fbit x 3 = f from (congrArg (· == 1) (X.fm 3 1 (by decide))).trans (piece_132 f u)), (show fbit x 2 = u from (congrArg (· == 1) (X.fm 2 1 (by decide))).trans (piece_133 f u))]
    simp only [takeSrc_code]

theorem accrdReg (d : Dst) (a : Src) (f : Bool) : Statement (.accrdReg d a f) :=
  roundTrips4 (L := fun ls => a.lits ++ ls) rfl (fun _ => rfl) (by decide) d.code_lt a.code_lt (by decide) (piece_139 f) fun x ls X => by
    show decode0x4D x _ = _
    unfold decode0x4D
    rw [if_pos ⟨(X.fm 0 3 (by decide)).trans (piece_140 f), X.fb.trans (by decide)⟩]
    rw [X.fc, X.fa, (show fbit x 3 = f from (congrArg (· == 1) (X.fm 3 1 (by decide))).trans (piece_141 f))]
    simp only [takeDst_code, takeSrc_code]

theorem accrdF32 (a : Src) (b : Src) (f : Bool) : Statement (.accrdF32 a b f) :=
  roundTrips4 (L := fun ls => a.lits ++ (b.lits ++ ls)) rfl (fun _ => List.append_assoc ..) (by decide) (by decide) a.code_lt b.code_lt (piece_142 f) fun x ls X => by
    show decode0x4D x _ = _
    unfold decode0x4D
    rw [if_neg (fun h => absurd ((X.fm 0 3 (by decide)).symm.trans h.1) (piece_143 f))]
    rw [if_pos ⟨(X.fm 0 3 (by decide)).trans (piece_144 f), X.fc.trans (by decide)⟩]
    rw [X.fa, X.fb, (show fbit x 3 = f from (congrArg (· == 1) (X.fm 3 1 (by decide))).trans (piece_145 f))]
    simp only [takeSrc_code]

theorem accrdBf16 (a : Src) (b : Src) (f : Bool) : Statement (.accrdBf16 a b f) :=
  roundTrips4 (L := fun ls => a.lits ++ (b.lits ++ ls)) rfl (fun _ => List.append_assoc ..) (by decide) (by decide) a.code_lt b.code_lt (piece_146 f) fun x ls X => by
    show decode0x4D x _ = _
    unfold decode0x4D
    rw [if_neg (fun h => absurd ((X.fm 0 3 (by decide)).symm.trans h.1) (piece_147 f))]
    rw [if_neg (fun h => absurd ((X.fm 0 3 (by decide)).symm.trans h.1) (piece_148 f))]
    rw [if_pos ⟨(X.fm 0 3 (by decide)).trans (piece_149 f), X.fc.trans (by decide)⟩]
    rw [X.fa, X.fb, (show fbit x 3 = f from (congrArg (· == 1) (X.fm 3 1 (by decide))).trans (piece_150 f))]
    simp only [takeSrc_code]

theorem accrdE4m3 (a : Src) (b : Src) (f : Bool) : Statement (.accrdE4m3 a b f) :=
  roundTrips4 (L := fun ls => a.lits ++ (b.lits ++ ls)) rfl (fun _ => List.append_assoc ..) (by decide) (by decide) a.code_lt b.code_lt (piece_151 f) fun x ls X => by
    show decode0x4D x _ = _
    unfold decode0x4D
    rw [if_neg (fun h => absurd ((X.fm 0 3 (by decide)).symm.trans h.1) (piece_152 f))]
    rw [if_neg (fun h => absurd ((X.fm 0 3 (by decide)).symm.trans h.1) (piece_153 f))]
    rw [if_neg (fun h => absurd ((X.fm 0 3 (by decide)).symm.trans h.1) (piece_154 f))]
    rw [if_pos ⟨(X.fm 0 3 (by decide)).trans (piece_155 f), X.fc.trans (by decide)⟩]
    rw [X.fa, X.fb, (show fbit x 3 = f from (congrArg (· == 1) (X.fm 3 1 (by decide))).trans (piece_156 f))]
    simp only [takeSrc_code]

theorem accrdE5m2 (a : Src) (b : Src) (f : Bool) : Statement (.accrdE5m2 a b f) :=
  roundTrips4 (L := fun ls => a.lits ++ (b.lits ++ ls)) rfl (fun _ => List.append_assoc ..) (by decide) (by decide) a.code_lt b.code_lt (piece_157 f) fun x ls X => by
    show decode0x4D x _ = _
    unfold decode0x4D
    rw [if_neg (fun h => absurd ((X.fm 0 3 (by decide)).symm.trans h.1) (piece_158 f))]
    rw [if_neg (fun h => absurd ((X.fm 0 3 (by decide)).symm.trans h.1) (piece_159 f))]
    rw [if_neg (fun h => absurd ((X.fm 0 3 (by decide)).symm.trans h.1) (piece_160 f))]
    rw [if_neg (fun h => absurd ((X.fm 0 3 (by decide)).symm.trans h.1) (piece_161 f))]
    rw [if_pos ⟨(X.fm 0 3 (by decide)).trans (piece_162 f), X.fc.trans (by decide)⟩]
    rw [X.fa, X.fb, (show fbit x 3 = f from (congrArg (· == 1) (X.fm 3 1 (by decide))).trans (piece_163 f))]
    simp only [takeSrc_code]

theorem accrdStat (d : Dst) (a : Src) (f : Bool) : Statement (.accrdStat d a f) :=
  roundTrips4 (L := fun ls => a.lits ++ ls) rfl (fun _ => rfl) (by decide) d.code_lt a.code_lt (by decide) (piece_164 f) fun x ls X => by
    show decode0x4D x _ = _
    unfold decode0x4D
    rw [if_neg (fun h => absurd ((X.fm 0 3 (by decide)).symm.trans h.1) (piece_165 f))]
    rw [if_neg (fun h => absurd ((X.fm 0 3 (by decide)).symm.trans h.1) (piece_166 f))]
    rw [if_neg (fun h => absurd ((X.fm 0 3 (by decide)).symm.trans h.1) (piece_167 f))]
    rw [if_neg (fun h => absurd ((X.fm 0 3 (by decide)).symm.trans h.1) (piece_168 f))]
    rw [if_neg (fun h => absurd ((X.fm 0 3 (by decide)).symm.trans h.1) (piece_169 f))]
    rw [if_pos ⟨(X.fm 0 3 (by decide)).trans (piece_170 f), X.fb.trans (by decide)⟩]
    rw [X.fc, X.fa, (show fbit x 3 = f from (congrArg (· == 1) (X.fm 3 1 (by decide))).trans (piece_171 f))]
    simp only [takeDst_code, takeSrc_code]

theorem accld (a : Src) (b : Src) (f : Bool) (u : Bool) (m : AccldMode) : Statement (.accld a b f u m) :=
  roundTrips4 (L := fun ls => a.lits ++ (b.lits ++ ls)) rfl (fun _ => List.append_assoc ..) (by decide) (by decide) a.code_lt b.code_lt (piece_172 f u m) fun x ls X => by
    show decode0x4E x _ = _
    unfold decode0x4E
    rw [if_pos (X.fc.trans (by decide))]
    rw [X.fa, X.fb, (X.fm 0 2 (by decide)).trans (piece_173 f u m), (show fbit x 3 = f from (congrArg (· == 1) (X.fm 3 1 (by decide))).trans (piece_174 f u m)), (show fbit x 2 = u from (congrArg (· == 1) (X.fm 2 1 (by decide))).trans (piece_175 f u m))]
    simp only [takeSrc_code, AccldMode.ofCode_code, takeOpt]

theorem negrel (a : Src) (f : Bool) : Statement (.negrel a f) :=
  roundTrips4 (L := fun ls => a.lits ++ ls) rfl (fun _ => rfl) (by decide) (by decide) a.code_lt (by decide) (piece_139 f) fun x ls X => by
    show decode0x4F x _ = _
    unfold decode0x4F
    rw [if_pos ⟨(X.fm 0 3 (by decide)).trans (piece_140 f), X.fb.trans (by decide), X.fc.trans (by decide)⟩]
    rw [X.fa, (show fbit x 3 = f from (congrArg (· == 1) (X.fm 3 1 (by decide))).trans (piece_141 f))]
    simp only [takeSrc_code]

theorem ld (d : Dst) (a : Src) (b : Src) (f : Bool) (s : Bool) (w : MemW) : Statement (.ld d a b f s w) :=
  roundTrips4 (L := fun ls => a.lits ++ (b.lits ++ ls)) rfl (fun _ => List.append_assoc ..) (by decide) d.code_lt a.code_lt b.code_lt (piece_176 f s w) fun x ls X => by
    show decode0x50 x _ = _
    unfold decode0x50
    rw [X.fc, X.fa, X.fb, (X.fm 0 2 (by decide)).trans (piece_177 f s w), (show fbit x 3 = f from (congrArg (· == 1) (X.fm 3 1 (by decide))).trans (piece_178 f s w)), (show fbit x 2 = s from (congrArg (· == 1) (X.fm 2 1 (by decide))).trans (piece_179 f s w))]
    simp only [takeDst_code, takeSrc_code, MemW.ofCode_code, takeOpt]

theorem ldq (d : Dst) (a : Src) (b : Src) (f : Bool) : Statement (.ldq d a b f) :=
  roundTrips4 (L := fun ls => a.lits ++ (b.lits ++ ls)) rfl (fun _ => List.append_assoc ..) (by decide) d.code_lt a.code_lt b.code_lt (piece_139 f) fun x ls X => by
    show decode0x51 x _ = _
    unfold decode0x51
    rw [if_pos ((X.fm 0 3 (by decide)).trans (piece_140 f))]
    rw [X.fc, X.fa, X.fb, (show fbit x 3 = f from (congrArg (· == 1) (X.fm 3 1 (by decide))).trans (piece_141 f))]
    simp only [takeDst_code, takeSrc_code]

theorem st (d : CSrc) (a : Src) (b : Src) (f : Bool) (w : MemW) : Statement (.st d a b f w) :=
  roundTrips4 (L := fun ls => a.lits ++ (b.lits ++ ls)) rfl (fun _ => List.append_assoc ..) (by decide) d.code_lt a.code_lt b.code_lt (piece_180 f w) fun x ls X => by
    show decode0x52 x _ = _
    unfold decode0x52
    rw [if_pos ((X.fm 2 1 (by decide)).trans (piece_181 f w))]
    rw [X.fc, X.fa, X.fb, (X.fm 0 2 (by decide)).trans (piece_182 f w), (show fbit x 3 = f from (congrArg (· == 1) (X.fm 3 1 (by decide))).trans (piece_183 f w))]
    simp only [takeCSrc_code, takeSrc_code, MemW.ofCode_code, takeOpt]

theorem stq (d : CSrc) (a : Src) (b : Src) (f : Bool) : Statement (.stq d a b f) :=
  roundTrips4 (L := fun ls => a.lits ++ (b.lits ++ ls)) rfl (fun _ => List.append_assoc ..) (by decide) d.code_lt a.code_lt b.code_lt (piece_139 f) fun x ls X => by
    show decode0x53 x _ = _
    unfold decode0x53
    rw [if_pos ((X.fm 0 3 (by decide)).trans (piece_140 f))]
    rw [X.fc, X.fa, X.fb, (show fbit x 3 = f from (congrArg (· == 1) (X.fm 3 1 (by decide))).trans (piece_141 f))]
    simp only [takeCSrc_code, takeSrc_code]

theorem ldacq (d : Dst) (a : Src) (s : Scope) (f : Bool) (w : AcqW) : Statement (.ldacq d a s f w) :=
  roundTrips4 (L := fun ls => a.lits ++ ls) rfl (fun _ => rfl) (by decide) d.code_lt a.code_lt (piece_184 s) (piece_185 f w) fun x ls X => by
    show decode0x54 x _ = _
    unfold decode0x54
    rw [if_pos ⟨(X.fm 2 1 (by decide)).trans (piece_186 f w), (X.fbhi 3 4 (by decide)).trans (piece_187 s)⟩]
    rw [X.fc, X.fa, (X.fbhi 0 3 (by decide)).trans (piece_188 s), (X.fm 0 2 (by decide)).trans (piece_189 f w), (show fbit x 3 = f from (congrArg (· == 1) (X.fm 3 1 (by decide))).trans (piece_190 f w))]
    simp only [takeDst_code, takeSrc_code, Scope.ofCode_code, AcqW.ofCode_code, takeOpt]

theorem strel (d : CSrc) (a : Src) (s : Scope) (f : Bool) (w : AcqW) : Statement (.strel d a s f w) :=
  roundTrips4 (L := fun ls => a.lits ++ ls) rfl (fun _ => rfl) (by decide) d.code_lt a.code_lt (piece_184 s) (piece_185 f w) fun x ls X => by
    show decode0x55 x _ = _
    unfold decode0x55
    rw [if_pos ⟨(X.fm 2 1 (by decide)).trans (piece_186 f w), (X.fbhi 3 4 (by decide)).trans (piece_187 s)⟩]
    rw [X.fc, X.fa, (X.fbhi 0 3 (by decide)).trans (piece_188 s), (X.fm 0 2 (by decide)).trans (piece_189 f w), (show fbit x 3 = f from (congrArg (· == 1) (X.fm 3 1 (by decide))).trans (piece_190 f w))]
    simp only [takeCSrc_code, takeSrc_code, Scope.ofCode_code, AcqW.ofCode_code, takeOpt]

theorem atom (d : Dst) (a : Src) (o : AtomOp) (s : Scope) (f : Bool) (c : Ord) (w : Bool) : Statement (.atom d a o s f c w) :=
  roundTrips11 (L := fun ls => a.lits ++ ls) rfl (fun _ => rfl) (by decide) d.code_lt a.code_lt (piece_191 o s f c w) fun x ls X => by
    show decode0x56 x _ = _
    unfold decode0x56
    rw [X.fc, X.fa, (X.flow 7 4 (by decide)).trans (piece_192 o s f c w), (X.flow 4 3 (by decide)).trans (piece_193 o s f c w), (X.flow 1 2 (by decide)).trans (piece_194 o s f c w), (show fbit x 3 = f from (congrArg (· == 1) (X.flow 3 1 (by decide))).trans (piece_195 o s f c w)), (show fbit x 0 = w from (congrArg (· == 1) (X.flow 0 1 (by decide))).trans (piece_196 o s f c w))]
    simp only [takeDst_code, takeSrc_code, AtomOp.ofCode_code, Scope.ofCode_code, Ord.ofCode_code, takeOpt]

theorem cas (d : Dst) (a : Src) (s : Scope) (f : Bool) (c : Ord) (w : Bool) : Statement (.cas d a s f c w) :=
  roundTrips4 (L := fun ls => a.lits ++ ls) rfl (fun _ => rfl) (by decide) d.code_lt a.code_lt (piece_184 s) (piece_197 f c w) fun x ls X => by
    show decode0x57 x _ = _
    unfold decode0x57
    rw [if_pos ((X.fbhi 3 4 (by decide)).trans (piece_187 s))]
    rw [X.fc, X.fa, (X.fbhi 0 3 (by decide)).trans (piece_188 s), (X.fm 1 2 (by decide)).trans (piece_198 f c w), (show fbit x 3 = f from (congrArg (· == 1) (X.fm 3 1 (by decide))).trans (piece_199 f c w)), (show fbit x 0 = w from (congrArg (· == 1) (X.fm 0 1 (by decide))).trans (piece_200 f c w))]
    simp only [takeDst_code, takeSrc_code, Scope.ofCode_code, Ord.ofCode_code, takeOpt]

theorem red (d : CSrc) (a : Src) (o : AtomOp) (s : Scope) (f : Bool) (n : Bool) (y : Bool) (w : Bool) : Statement (.red d a o s f n y w) :=
  roundTrips11 (L := fun ls => a.lits ++ ls) rfl (fun _ => rfl) (by decide) d.code_lt a.code_lt (piece_201 o s f n y w) fun x ls X => by
    show decode0x58 x _ = _
    unfold decode0x58
    rw [X.fc, X.fa, (X.flow 7 4 (by decide)).trans (piece_202 o s f n y w), (X.flow 4 3 (by decide)).trans (piece_203 o s f n y w), (show fbit x 3 = f from (congrArg (· == 1) (X.flow 3 1 (by decide))).trans (piece_204 o s f n y w)), (show fbit x 2 = n from (congrArg (· == 1) (X.flow 2 1 (by decide))).trans (piece_205 o s f n y w)), (show fbit x 1 = y from (congrArg (· == 1) (X.flow 1 1 (by decide))).trans (piece_206 o s f n y w)), (show fbit x 0 = w from (congrArg (· == 1) (X.flow 0 1 (by decide))).trans (piece_207 o s f n y w))]
    simp only [takeCSrc_code, takeSrc_code, AtomOp.ofCode_code, Scope.ofCode_code, takeOpt]

theorem fence (s : Scope) (f : Bool) (k : FenceK) : Statement (.fence s f k) :=
  roundTrips4 (L := fun ls => ls) rfl (fun _ => rfl) (by decide) (by decide) (by decide) (piece_184 s) (piece_208 f k) fun x ls X => by
    show decode0x59 x _ = _
    unfold decode0x59
    rw [if_pos ⟨(X.fm 2 1 (by decide)).trans (piece_209 f k), (X.fall 7 18 (by decide)).trans (piece_210 s f k)⟩]
    rw [(X.fbhi 0 3 (by decide)).trans (piece_188 s), (X.fm 0 2 (by decide)).trans (piece_211 f k), (show fbit x 3 = f from (congrArg (· == 1) (X.fm 3 1 (by decide))).trans (piece_212 f k))]
    simp only [Scope.ofCode_code, FenceK.ofCode_code, takeOpt]

theorem watch (a : Src) (f : Bool) : Statement (.watch a f) :=
  roundTrips4 (L := fun ls => a.lits ++ ls) rfl (fun _ => rfl) (by decide) (by decide) a.code_lt (by decide) (piece_139 f) fun x ls X => by
    show decode0x5A x _ = _
    unfold decode0x5A
    rw [if_pos ⟨(X.fm 0 3 (by decide)).trans (piece_140 f), X.fb.trans (by decide), X.fc.trans (by decide)⟩]
    rw [X.fa, (show fbit x 3 = f from (congrArg (· == 1) (X.fm 3 1 (by decide))).trans (piece_141 f))]
    simp only [takeSrc_code]

theorem watchClr (f : Bool) : Statement (.watchClr f) :=
  roundTrips4 (L := fun ls => ls) rfl (fun _ => rfl) (by decide) (by decide) (by decide) (by decide) (piece_142 f) fun x ls X => by
    show decode0x5A x _ = _
    unfold decode0x5A
    rw [if_neg (fun h => absurd ((X.fm 0 3 (by decide)).symm.trans h.1) (piece_143 f))]
    rw [if_pos ⟨(X.fm 0 3 (by decide)).trans (piece_144 f), (X.fall 4 21 (by decide)).trans (piece_213 f)⟩]
    rw [(show fbit x 3 = f from (congrArg (· == 1) (X.fm 3 1 (by decide))).trans (piece_145 f))]

theorem waitw (d : Dst) (f : Bool) (n : Bool) : Statement (.waitw d f n) :=
  roundTrips4 (L := fun ls => ls) rfl (fun _ => rfl) (by decide) d.code_lt (by decide) (by decide) (piece_130 f n) fun x ls X => by
    show decode0x5B x _ = _
    unfold decode0x5B
    rw [if_pos ⟨(X.fm 0 2 (by decide)).trans (piece_131 f n), (X.fk 4 14 (by decide)).trans (piece_214 f n)⟩]
    rw [X.fc, (show fbit x 3 = f from (congrArg (· == 1) (X.fm 3 1 (by decide))).trans (piece_132 f n)), (show fbit x 2 = n from (congrArg (· == 1) (X.fm 2 1 (by decide))).trans (piece_133 f n))]
    simp only [takeDst_code]

theorem pref (a : Src) (b : Src) (w : Bool) : Statement (.pref a b w) :=
  roundTrips4 (L := fun ls => a.lits ++ (b.lits ++ ls)) rfl (fun _ => List.append_assoc ..) (by decide) (by decide) a.code_lt b.code_lt (piece_28 w) fun x ls X => by
    show decode0x5C x _ = _
    unfold decode0x5C
    rw [if_pos ⟨(X.fm 1 3 (by decide)).trans (piece_33 w), X.fc.trans (by decide)⟩]
    rw [X.fa, X.fb, (show fbit x 0 = w from (congrArg (· == 1) (X.fm 0 1 (by decide))).trans (piece_32 w))]
    simp only [takeSrc_code]

theorem cctlWb (a : Src) (f : Bool) : Statement (.cctlWb a f) :=
  roundTrips4 (L := fun ls => a.lits ++ ls) rfl (fun _ => rfl) (by decide) (by decide) a.code_lt (by decide) (piece_139 f) fun x ls X => by
    show decode0x5D x _ = _
    unfold decode0x5D
    rw [if_pos ⟨(X.fm 0 3 (by decide)).trans (piece_140 f), X.fb.trans (by decide), X.fc.trans (by decide)⟩]
    rw [X.fa, (show fbit x 3 = f from (congrArg (· == 1) (X.fm 3 1 (by decide))).trans (piece_141 f))]
    simp only [takeSrc_code]

theorem cctlInv (a : Src) (f : Bool) : Statement (.cctlInv a f) :=
  roundTrips4 (L := fun ls => a.lits ++ ls) rfl (fun _ => rfl) (by decide) (by decide) a.code_lt (by decide) (piece_142 f) fun x ls X => by
    show decode0x5D x _ = _
    unfold decode0x5D
    rw [if_neg (fun h => absurd ((X.fm 0 3 (by decide)).symm.trans h.1) (piece_143 f))]
    rw [if_pos ⟨(X.fm 0 3 (by decide)).trans (piece_144 f), X.fb.trans (by decide), X.fc.trans (by decide)⟩]
    rw [X.fa, (show fbit x 3 = f from (congrArg (· == 1) (X.fm 3 1 (by decide))).trans (piece_145 f))]
    simp only [takeSrc_code]

theorem cctlDemote (a : Src) (f : Bool) : Statement (.cctlDemote a f) :=
  roundTrips4 (L := fun ls => a.lits ++ ls) rfl (fun _ => rfl) (by decide) (by decide) a.code_lt (by decide) (piece_146 f) fun x ls X => by
    show decode0x5D x _ = _
    unfold decode0x5D
    rw [if_neg (fun h => absurd ((X.fm 0 3 (by decide)).symm.trans h.1) (piece_147 f))]
    rw [if_neg (fun h => absurd ((X.fm 0 3 (by decide)).symm.trans h.1) (piece_148 f))]
    rw [if_pos ⟨(X.fm 0 3 (by decide)).trans (piece_149 f), X.fb.trans (by decide), X.fc.trans (by decide)⟩]
    rw [X.fa, (show fbit x 3 = f from (congrArg (· == 1) (X.fm 3 1 (by decide))).trans (piece_150 f))]
    simp only [takeSrc_code]

theorem cctlIinv (f : Bool) : Statement (.cctlIinv f) :=
  roundTrips4 (L := fun ls => ls) rfl (fun _ => rfl) (by decide) (by decide) (by decide) (by decide) (piece_151 f) fun x ls X => by
    show decode0x5D x _ = _
    unfold decode0x5D
    rw [if_neg (fun h => absurd ((X.fm 0 3 (by decide)).symm.trans h.1) (piece_152 f))]
    rw [if_neg (fun h => absurd ((X.fm 0 3 (by decide)).symm.trans h.1) (piece_153 f))]
    rw [if_neg (fun h => absurd ((X.fm 0 3 (by decide)).symm.trans h.1) (piece_154 f))]
    rw [if_pos ⟨(X.fm 0 3 (by decide)).trans (piece_155 f), (X.fall 4 21 (by decide)).trans (piece_215 f)⟩]
    rw [(show fbit x 3 = f from (congrArg (· == 1) (X.fm 3 1 (by decide))).trans (piece_156 f))]

theorem vld (d : Dst) (a : Src) (b : Src) (f : Bool) (n : Bool) (l : Bool) (w : Bool) : Statement (.vld d a b f n l w) :=
  roundTrips4 (L := fun ls => a.lits ++ (b.lits ++ ls)) rfl (fun _ => List.append_assoc ..) (by decide) d.code_lt a.code_lt b.code_lt (piece_134 f n l w) fun x ls X => by
    show decode0x60 x _ = _
    unfold decode0x60
    rw [X.fc, X.fa, X.fb, (show fbit x 3 = f from (congrArg (· == 1) (X.fm 3 1 (by decide))).trans (piece_135 f n l w)), (show fbit x 2 = n from (congrArg (· == 1) (X.fm 2 1 (by decide))).trans (piece_136 f n l w)), (show fbit x 1 = l from (congrArg (· == 1) (X.fm 1 1 (by decide))).trans (piece_137 f n l w)), (show fbit x 0 = w from (congrArg (· == 1) (X.fm 0 1 (by decide))).trans (piece_138 f n l w))]
    simp only [takeDst_code, takeSrc_code]

theorem vst (d : CSrc) (a : Src) (b : Src) (f : Bool) (n : Bool) (w : Bool) : Statement (.vst d a b f n w) :=
  roundTrips4 (L := fun ls => a.lits ++ (b.lits ++ ls)) rfl (fun _ => List.append_assoc ..) (by decide) d.code_lt a.code_lt b.code_lt (piece_216 f n w) fun x ls X => by
    show decode0x61 x _ = _
    unfold decode0x61
    rw [if_pos ((X.fm 1 1 (by decide)).trans (piece_217 f n w))]
    rw [X.fc, X.fa, X.fb, (show fbit x 3 = f from (congrArg (· == 1) (X.fm 3 1 (by decide))).trans (piece_218 f n w)), (show fbit x 2 = n from (congrArg (· == 1) (X.fm 2 1 (by decide))).trans (piece_219 f n w)), (show fbit x 0 = w from (congrArg (· == 1) (X.fm 0 1 (by decide))).trans (piece_220 f n w))]
    simp only [takeCSrc_code, takeSrc_code]

theorem vfloor (a : Src) (b : Src) (f : Bool) : Statement (.vfloor a b f) :=
  roundTrips4 (L := fun ls => a.lits ++ (b.lits ++ ls)) rfl (fun _ => List.append_assoc ..) (by decide) (by decide) a.code_lt b.code_lt (piece_139 f) fun x ls X => by
    show decode0x62 x _ = _
    unfold decode0x62
    rw [if_pos ⟨(X.fm 0 3 (by decide)).trans (piece_140 f), X.fc.trans (by decide)⟩]
    rw [X.fa, X.fb, (show fbit x 3 = f from (congrArg (· == 1) (X.fm 3 1 (by decide))).trans (piece_141 f))]
    simp only [takeSrc_code]

theorem vqry (d : Dst) (a : Src) (f : Bool) : Statement (.vqry d a f) :=
  roundTrips4 (L := fun ls => a.lits ++ ls) rfl (fun _ => rfl) (by decide) d.code_lt a.code_lt (by decide) (piece_139 f) fun x ls X => by
    show decode0x63 x _ = _
    unfold decode0x63
    rw [if_pos ⟨(X.fm 0 3 (by decide)).trans (piece_140 f), X.fb.trans (by decide)⟩]
    rw [X.fc, X.fa, (show fbit x 3 = f from (congrArg (· == 1) (X.fm 3 1 (by decide))).trans (piece_141 f))]
    simp only [takeDst_code, takeSrc_code]

theorem lds (d : Dst) (a : Src) (f : Bool) (m : FeMode) (w : SpadW) : Statement (.lds d a f m w) :=
  roundTrips4 (L := fun ls => a.lits ++ ls) rfl (fun _ => rfl) (by decide) d.code_lt a.code_lt (piece_221 f) (piece_222 m w) fun x ls X => by
    show decode0x68 x _ = _
    unfold decode0x68
    rw [if_pos ((X.fbhi 1 6 (by decide)).trans (piece_223 f))]
    rw [X.fc, X.fa, (X.fm 2 2 (by decide)).trans (piece_224 m w), (X.fm 0 2 (by decide)).trans (piece_225 m w), (show fbit x 4 = f from (congrArg (· == 1) (X.fbhi 0 1 (by decide))).trans (piece_32 f))]
    simp only [takeDst_code, takeSrc_code, FeMode.ofCode_code, SpadW.ofCode_code, takeOpt]

theorem sts (d : CSrc) (a : Src) (f : Bool) (m : FeMode) (w : SpadW) : Statement (.sts d a f m w) :=
  roundTrips4 (L := fun ls => a.lits ++ ls) rfl (fun _ => rfl) (by decide) d.code_lt a.code_lt (piece_221 f) (piece_222 m w) fun x ls X => by
    show decode0x69 x _ = _
    unfold decode0x69
    rw [if_pos ((X.fbhi 1 6 (by decide)).trans (piece_223 f))]
    rw [X.fc, X.fa, (X.fm 2 2 (by decide)).trans (piece_224 m w), (X.fm 0 2 (by decide)).trans (piece_225 m w), (show fbit x 4 = f from (congrArg (· == 1) (X.fbhi 0 1 (by decide))).trans (piece_32 f))]
    simp only [takeCSrc_code, takeSrc_code, FeMode.ofCode_code, SpadW.ofCode_code, takeOpt]

theorem feget (d : Dst) (a : Src) (f : Bool) : Statement (.feget d a f) :=
  roundTrips4 (L := fun ls => a.lits ++ ls) rfl (fun _ => rfl) (by decide) d.code_lt a.code_lt (by decide) (piece_139 f) fun x ls X => by
    show decode0x6A x _ = _
    unfold decode0x6A
    rw [if_pos ⟨(X.fm 0 3 (by decide)).trans (piece_140 f), X.fb.trans (by decide)⟩]
    rw [X.fc, X.fa, (show fbit x 3 = f from (congrArg (· == 1) (X.fm 3 1 (by decide))).trans (piece_141 f))]
    simp only [takeDst_code, takeSrc_code]

theorem feset (a : Src) (f : Bool) : Statement (.feset a f) :=
  roundTrips4 (L := fun ls => a.lits ++ ls) rfl (fun _ => rfl) (by decide) (by decide) a.code_lt (by decide) (piece_139 f) fun x ls X => by
    show decode0x6A x _ = _
    unfold decode0x6A
    rw [if_neg (fun h => absurd (X.fb.symm.trans h.2) (by decide))]
    rw [if_pos ⟨(X.fm 0 3 (by decide)).trans (piece_140 f), X.fb.trans (by decide), X.fc.trans (by decide)⟩]
    rw [X.fa, (show fbit x 3 = f from (congrArg (· == 1) (X.fm 3 1 (by decide))).trans (piece_141 f))]
    simp only [takeSrc_code]

theorem feclr (a : Src) (f : Bool) : Statement (.feclr a f) :=
  roundTrips4 (L := fun ls => a.lits ++ ls) rfl (fun _ => rfl) (by decide) (by decide) a.code_lt (by decide) (piece_139 f) fun x ls X => by
    show decode0x6A x _ = _
    unfold decode0x6A
    rw [if_neg (fun h => absurd (X.fb.symm.trans h.2) (by decide))]
    rw [if_neg (fun h => absurd (X.fb.symm.trans h.2.1) (by decide))]
    rw [if_pos ⟨(X.fm 0 3 (by decide)).trans (piece_140 f), X.fb.trans (by decide), X.fc.trans (by decide)⟩]
    rw [X.fa, (show fbit x 3 = f from (congrArg (· == 1) (X.fm 3 1 (by decide))).trans (piece_141 f))]
    simp only [takeSrc_code]

theorem fewait (a : Src) (f : Bool) (e : Bool) : Statement (.fewait a f e) :=
  roundTrips4 (L := fun ls => a.lits ++ ls) rfl (fun _ => rfl) (by decide) (by decide) a.code_lt (by decide) (piece_126 f e) fun x ls X => by
    show decode0x6A x _ = _
    unfold decode0x6A
    rw [if_neg (fun h => absurd (X.fb.symm.trans h.2) (by decide))]
    rw [if_neg (fun h => absurd (X.fb.symm.trans h.2.1) (by decide))]
    rw [if_neg (fun h => absurd (X.fb.symm.trans h.2.1) (by decide))]
    rw [if_pos ⟨(X.fm 1 2 (by decide)).trans (piece_127 f e), X.fb.trans (by decide), X.fc.trans (by decide)⟩]
    rw [X.fa, (show fbit x 3 = f from (congrArg (· == 1) (X.fm 3 1 (by decide))).trans (piece_128 f e)), (show fbit x 0 = e from (congrArg (· == 1) (X.fm 0 1 (by decide))).trans (piece_129 f e))]
    simp only [takeSrc_code]

theorem atoms (d : Dst) (a : Src) (b : AtomsOp) (f : Bool) : Statement (.atoms d a b f) :=
  roundTrips4 (L := fun ls => a.lits ++ ls) rfl (fun _ => rfl) (by decide) d.code_lt a.code_lt (piece_226 b) (piece_139 f) fun x ls X => by
    show decode0x6B x _ = _
    unfold decode0x6B
    rw [if_pos ((X.fm 0 3 (by decide)).trans (piece_140 f))]
    rw [X.fc, X.fa, X.fb, (show fbit x 3 = f from (congrArg (· == 1) (X.fm 3 1 (by decide))).trans (piece_141 f))]
    simp only [takeDst_code, takeSrc_code, AtomsOp.ofCode_code, takeOpt]

theorem splook (d : Dst) (a : Src) (f : Bool) : Statement (.splook d a f) :=
  roundTrips4 (L := fun ls => a.lits ++ ls) rfl (fun _ => rfl) (by decide) d.code_lt a.code_lt (by decide) (piece_139 f) fun x ls X => by
    show decode0x6C x _ = _
    unfold decode0x6C
    rw [if_pos ⟨(X.fm 0 3 (by decide)).trans (piece_140 f), X.fb.trans (by decide)⟩]
    rw [X.fc, X.fa, (show fbit x 3 = f from (congrArg (· == 1) (X.fm 3 1 (by decide))).trans (piece_141 f))]
    simp only [takeDst_code, takeSrc_code]

theorem sptag (d : Dst) (a : Src) (b : Src) (f : Bool) : Statement (.sptag d a b f) :=
  roundTrips4 (L := fun ls => a.lits ++ (b.lits ++ ls)) rfl (fun _ => List.append_assoc ..) (by decide) d.code_lt a.code_lt b.code_lt (piece_139 f) fun x ls X => by
    show decode0x6D x _ = _
    unfold decode0x6D
    rw [if_pos ((X.fm 0 3 (by decide)).trans (piece_140 f))]
    rw [X.fc, X.fa, X.fb, (show fbit x 3 = f from (congrArg (· == 1) (X.fm 3 1 (by decide))).trans (piece_141 f))]
    simp only [takeDst_code, takeSrc_code]

theorem sptagInv (d : Dst) (a : Src) (f : Bool) : Statement (.sptagInv d a f) :=
  roundTrips4 (L := fun ls => a.lits ++ ls) rfl (fun _ => rfl) (by decide) d.code_lt a.code_lt (by decide) (piece_142 f) fun x ls X => by
    show decode0x6D x _ = _
    unfold decode0x6D
    rw [if_neg (fun h => absurd ((X.fm 0 3 (by decide)).symm.trans h) (piece_143 f))]
    rw [if_pos ⟨(X.fm 0 3 (by decide)).trans (piece_144 f), X.fb.trans (by decide)⟩]
    rw [X.fc, X.fa, (show fbit x 3 = f from (congrArg (· == 1) (X.fm 3 1 (by decide))).trans (piece_145 f))]
    simp only [takeDst_code, takeSrc_code]

theorem spdesc (d : Dst) (a : Src) (f : Bool) : Statement (.spdesc d a f) :=
  roundTrips4 (L := fun ls => a.lits ++ ls) rfl (fun _ => rfl) (by decide) d.code_lt a.code_lt (by decide) (piece_139 f) fun x ls X => by
    show decode0x6E x _ = _
    unfold decode0x6E
    rw [if_pos ⟨(X.fm 0 3 (by decide)).trans (piece_140 f), X.fb.trans (by decide)⟩]
    rw [X.fc, X.fa, (show fbit x 3 = f from (congrArg (· == 1) (X.fm 3 1 (by decide))).trans (piece_141 f))]
    simp only [takeDst_code, takeSrc_code]

theorem spdescSet (a : Src) (b : Src) (f : Bool) : Statement (.spdescSet a b f) :=
  roundTrips4 (L := fun ls => a.lits ++ (b.lits ++ ls)) rfl (fun _ => List.append_assoc ..) (by decide) (by decide) a.code_lt b.code_lt (piece_142 f) fun x ls X => by
    show decode0x6E x _ = _
    unfold decode0x6E
    rw [if_neg (fun h => absurd ((X.fm 0 3 (by decide)).symm.trans h.1) (piece_143 f))]
    rw [if_pos ⟨(X.fm 0 3 (by decide)).trans (piece_144 f), X.fc.trans (by decide)⟩]
    rw [X.fa, X.fb, (show fbit x 3 = f from (congrArg (· == 1) (X.fm 3 1 (by decide))).trans (piece_145 f))]
    simp only [takeSrc_code]

theorem shape (d : Dst) (a : Src) (b : Src) (f : Bool) : Statement (.shape d a b f) :=
  roundTrips4 (L := fun ls => a.lits ++ (b.lits ++ ls)) rfl (fun _ => List.append_assoc ..) (by decide) d.code_lt a.code_lt b.code_lt (piece_139 f) fun x ls X => by
    show decode0x70 x _ = _
    unfold decode0x70
    rw [if_pos ((X.fm 0 3 (by decide)).trans (piece_140 f))]
    rw [X.fc, X.fa, X.fb, (show fbit x 3 = f from (congrArg (· == 1) (X.fm 3 1 (by decide))).trans (piece_141 f))]
    simp only [takeDst_code, takeSrc_code]

theorem unshape (b : Src) (f : Bool) : Statement (.unshape b f) :=
  roundTrips4 (L := fun ls => b.lits ++ ls) rfl (fun _ => rfl) (by decide) (by decide) (by decide) b.code_lt (piece_139 f) fun x ls X => by
    show decode0x71 x _ = _
    unfold decode0x71
    rw [if_pos ⟨(X.fm 0 3 (by decide)).trans (piece_140 f), (X.fall 11 14 (by decide)).trans (piece_227 b f)⟩]
    rw [X.fb, (show fbit x 3 = f from (congrArg (· == 1) (X.fm 3 1 (by decide))).trans (piece_141 f))]
    simp only [takeSrc_code]

theorem cpyin (d : Dst) (a : Src) (b : Src) (f : Bool) (r : Bool) : Statement (.cpyin d a b f r) :=
  roundTrips4 (L := fun ls => a.lits ++ (b.lits ++ ls)) rfl (fun _ => List.append_assoc ..) (by decide) d.code_lt a.code_lt b.code_lt (piece_126 f r) fun x ls X => by
    show decode0x72 x _ = _
    unfold decode0x72
    rw [if_pos ((X.fm 1 2 (by decide)).trans (piece_127 f r))]
    rw [X.fc, X.fa, X.fb, (show fbit x 3 = f from (congrArg (· == 1) (X.fm 3 1 (by decide))).trans (piece_128 f r)), (show fbit x 0 = r from (congrArg (· == 1) (X.fm 0 1 (by decide))).trans (piece_129 f r))]
    simp only [takeDst_code, takeSrc_code]

theorem cpyout (d : Dst) (a : Src) (b : Src) (f : Bool) (r : Bool) : Statement (.cpyout d a b f r) :=
  roundTrips4 (L := fun ls => a.lits ++ (b.lits ++ ls)) rfl (fun _ => List.append_assoc ..) (by decide) d.code_lt a.code_lt b.code_lt (piece_126 f r) fun x ls X => by
    show decode0x73 x _ = _
    unfold decode0x73
    rw [if_pos ((X.fm 1 2 (by decide)).trans (piece_127 f r))]
    rw [X.fc, X.fa, X.fb, (show fbit x 3 = f from (congrArg (· == 1) (X.fm 3 1 (by decide))).trans (piece_128 f r)), (show fbit x 0 = r from (congrArg (· == 1) (X.fm 0 1 (by decide))).trans (piece_129 f r))]
    simp only [takeDst_code, takeSrc_code]

theorem gather (d : Dst) (a : Src) (b : Src) (f : Bool) : Statement (.gather d a b f) :=
  roundTrips4 (L := fun ls => a.lits ++ (b.lits ++ ls)) rfl (fun _ => List.append_assoc ..) (by decide) d.code_lt a.code_lt b.code_lt (piece_139 f) fun x ls X => by
    show decode0x74 x _ = _
    unfold decode0x74
    rw [if_pos ((X.fm 0 3 (by decide)).trans (piece_140 f))]
    rw [X.fc, X.fa, X.fb, (show fbit x 3 = f from (congrArg (· == 1) (X.fm 3 1 (by decide))).trans (piece_141 f))]
    simp only [takeDst_code, takeSrc_code]

theorem stage (d : Dst) (f : Bool) : Statement (.stage d f) :=
  roundTrips4 (L := fun ls => ls) rfl (fun _ => rfl) (by decide) d.code_lt (by decide) (by decide) (piece_139 f) fun x ls X => by
    show decode0x75 x _ = _
    unfold decode0x75
    rw [if_pos ⟨(X.fm 0 3 (by decide)).trans (piece_140 f), (X.fk 4 14 (by decide)).trans (piece_228 f)⟩]
    rw [X.fc, (show fbit x 3 = f from (congrArg (· == 1) (X.fm 3 1 (by decide))).trans (piece_141 f))]
    simp only [takeDst_code]

theorem ctab (d : Dst) (a : Src) (b : Src) (f : Bool) : Statement (.ctab d a b f) :=
  roundTrips4 (L := fun ls => a.lits ++ (b.lits ++ ls)) rfl (fun _ => List.append_assoc ..) (by decide) d.code_lt a.code_lt b.code_lt (piece_139 f) fun x ls X => by
    show decode0x76 x _ = _
    unfold decode0x76
    rw [if_pos ((X.fm 0 3 (by decide)).trans (piece_140 f))]
    rw [X.fc, X.fa, X.fb, (show fbit x 3 = f from (congrArg (· == 1) (X.fm 3 1 (by decide))).trans (piece_141 f))]
    simp only [takeDst_code, takeSrc_code]

theorem cpyq (d : Dst) (a : Src) (f : Bool) : Statement (.cpyq d a f) :=
  roundTrips4 (L := fun ls => a.lits ++ ls) rfl (fun _ => rfl) (by decide) d.code_lt a.code_lt (by decide) (piece_139 f) fun x ls X => by
    show decode0x77 x _ = _
    unfold decode0x77
    rw [if_pos ⟨(X.fm 0 3 (by decide)).trans (piece_140 f), X.fb.trans (by decide)⟩]
    rw [X.fc, X.fa, (show fbit x 3 = f from (congrArg (· == 1) (X.fm 3 1 (by decide))).trans (piece_141 f))]
    simp only [takeDst_code, takeSrc_code]

theorem bar (a : Src) (f : Bool) (n : BitVec 5) (s : BarScope) : Statement (.bar a f n s) :=
  roundTrips11 (L := fun ls => a.lits ++ ls) rfl (fun _ => rfl) (by decide) (by decide) a.code_lt (piece_229 f n s) fun x ls X => by
    show decode0x78 x _ = _
    unfold decode0x78
    rw [if_pos ⟨(X.flow 0 2 (by decide)).trans (piece_230 f n s), (X.flow 10 1 (by decide)).trans (piece_231 f n s), X.fc.trans (by decide)⟩]
    rw [X.fa, (X.flow 2 2 (by decide)).trans (piece_232 f n s), (show fbit x 9 = f from (congrArg (· == 1) (X.flow 9 1 (by decide))).trans (piece_233 f n s)), ((X.flow 4 5 (by decide)).trans (piece_234 f n s))]
    simp only [takeSrc_code, BarScope.ofCode_code, ofNat_toNat_self, takeOpt]

theorem bara (d : Dst) (a : Src) (f : Bool) (n : BitVec 5) (s : BarScope) : Statement (.bara d a f n s) :=
  roundTrips11 (L := fun ls => a.lits ++ ls) rfl (fun _ => rfl) (by decide) d.code_lt a.code_lt (piece_235 f n s) fun x ls X => by
    show decode0x78 x _ = _
    unfold decode0x78
    rw [if_neg (fun h => absurd ((X.flow 0 2 (by decide)).symm.trans h.1) (piece_236 f n s))]
    rw [if_pos ⟨(X.flow 0 2 (by decide)).trans (piece_237 f n s), (X.flow 10 1 (by decide)).trans (piece_238 f n s)⟩]
    rw [X.fc, X.fa, (X.flow 2 2 (by decide)).trans (piece_239 f n s), (show fbit x 9 = f from (congrArg (· == 1) (X.flow 9 1 (by decide))).trans (piece_240 f n s)), ((X.flow 4 5 (by decide)).trans (piece_241 f n s))]
    simp only [takeDst_code, takeSrc_code, BarScope.ofCode_code, ofNat_toNat_self, takeOpt]

theorem barw (a : Src) (f : Bool) (n : BitVec 5) (s : BarScope) : Statement (.barw a f n s) :=
  roundTrips11 (L := fun ls => a.lits ++ ls) rfl (fun _ => rfl) (by decide) (by decide) a.code_lt (piece_242 f n s) fun x ls X => by
    show decode0x78 x _ = _
    unfold decode0x78
    rw [if_neg (fun h => absurd ((X.flow 0 2 (by decide)).symm.trans h.1) (piece_243 f n s))]
    rw [if_neg (fun h => absurd ((X.flow 0 2 (by decide)).symm.trans h.1) (piece_244 f n s))]
    rw [if_pos ⟨(X.flow 0 2 (by decide)).trans (piece_245 f n s), (X.flow 10 1 (by decide)).trans (piece_246 f n s), X.fc.trans (by decide)⟩]
    rw [X.fa, (X.flow 2 2 (by decide)).trans (piece_247 f n s), (show fbit x 9 = f from (congrArg (· == 1) (X.flow 9 1 (by decide))).trans (piece_248 f n s)), ((X.flow 4 5 (by decide)).trans (piece_249 f n s))]
    simp only [takeSrc_code, BarScope.ofCode_code, ofNat_toNat_self, takeOpt]

theorem barq (d : Dst) (f : Bool) (n : BitVec 5) (s : BarScope) : Statement (.barq d f n s) :=
  roundTrips11 (L := fun ls => ls) rfl (fun _ => rfl) (by decide) d.code_lt (by decide) (piece_250 f n s) fun x ls X => by
    show decode0x78 x _ = _
    unfold decode0x78
    rw [if_neg (fun h => absurd ((X.flow 0 2 (by decide)).symm.trans h.1) (piece_251 f n s))]
    rw [if_neg (fun h => absurd ((X.flow 0 2 (by decide)).symm.trans h.1) (piece_252 f n s))]
    rw [if_neg (fun h => absurd ((X.flow 0 2 (by decide)).symm.trans h.1) (piece_253 f n s))]
    rw [if_pos ⟨(X.flow 0 2 (by decide)).trans (piece_254 f n s), (X.fk 10 8 (by decide)).trans (piece_255 f n s)⟩]
    rw [X.fc, (X.flow 2 2 (by decide)).trans (piece_256 f n s), (show fbit x 9 = f from (congrArg (· == 1) (X.flow 9 1 (by decide))).trans (piece_257 f n s)), ((X.flow 4 5 (by decide)).trans (piece_258 f n s))]
    simp only [takeDst_code, BarScope.ofCode_code, ofNat_toNat_self, takeOpt]

theorem qpush (a : Src) (q : BitVec 4) (f : Bool) (n : Bool) : Statement (.qpush a q f n) :=
  roundTrips4 (L := fun ls => a.lits ++ ls) rfl (fun _ => rfl) (by decide) (by decide) a.code_lt (piece_3 q) (piece_130 f n) fun x ls X => by
    show decode0x79 x _ = _
    unfold decode0x79
    rw [if_pos ⟨(X.fm 0 2 (by decide)).trans (piece_131 f n), (X.fbhi 4 3 (by decide)).trans (piece_259 q), X.fc.trans (by decide)⟩]
    rw [X.fa, ((X.fbhi 0 4 (by decide)).trans (fld_self q.isLt)), (show fbit x 3 = f from (congrArg (· == 1) (X.fm 3 1 (by decide))).trans (piece_132 f n)), (show fbit x 2 = n from (congrArg (· == 1) (X.fm 2 1 (by decide))).trans (piece_133 f n))]
    simp only [takeSrc_code, ofNat_toNat_self]

theorem qpop (d : Dst) (q : BitVec 4) (f : Bool) (n : Bool) : Statement (.qpop d q f n) :=
  roundTrips4 (L := fun ls => ls) rfl (fun _ => rfl) (by decide) d.code_lt (by decide) (piece_3 q) (piece_260 f n) fun x ls X => by
    show decode0x79 x _ = _
    unfold decode0x79
    rw [if_neg (fun h => absurd ((X.fm 0 2 (by decide)).symm.trans h.1) (piece_261 f n))]
    rw [if_pos ⟨(X.fm 0 2 (by decide)).trans (piece_262 f n), (X.fk 8 10 (by decide)).trans (piece_263 q f n)⟩]
    rw [X.fc, ((X.fbhi 0 4 (by decide)).trans (fld_self q.isLt)), (show fbit x 3 = f from (congrArg (· == 1) (X.fm 3 1 (by decide))).trans (piece_264 f n)), (show fbit x 2 = n from (congrArg (· == 1) (X.fm 2 1 (by decide))).trans (piece_265 f n))]
    simp only [takeDst_code, ofNat_toNat_self]

theorem qpeek (d : Dst) (q : BitVec 4) (f : Bool) (n : Bool) : Statement (.qpeek d q f n) :=
  roundTrips4 (L := fun ls => ls) rfl (fun _ => rfl) (by decide) d.code_lt (by decide) (piece_3 q) (piece_266 f n) fun x ls X => by
    show decode0x79 x _ = _
    unfold decode0x79
    rw [if_neg (fun h => absurd ((X.fm 0 2 (by decide)).symm.trans h.1) (piece_267 f n))]
    rw [if_neg (fun h => absurd ((X.fm 0 2 (by decide)).symm.trans h.1) (piece_268 f n))]
    rw [if_pos ⟨(X.fm 0 2 (by decide)).trans (piece_269 f n), (X.fk 8 10 (by decide)).trans (piece_270 q f n)⟩]
    rw [X.fc, ((X.fbhi 0 4 (by decide)).trans (fld_self q.isLt)), (show fbit x 3 = f from (congrArg (· == 1) (X.fm 3 1 (by decide))).trans (piece_271 f n)), (show fbit x 2 = n from (congrArg (· == 1) (X.fm 2 1 (by decide))).trans (piece_272 f n))]
    simp only [takeDst_code, ofNat_toNat_self]

theorem qlen (d : Dst) (q : BitVec 4) (f : Bool) : Statement (.qlen d q f) :=
  roundTrips4 (L := fun ls => ls) rfl (fun _ => rfl) (by decide) d.code_lt (by decide) (piece_3 q) (piece_151 f) fun x ls X => by
    show decode0x79 x _ = _
    unfold decode0x79
    rw [if_neg (fun h => absurd ((X.fm 0 2 (by decide)).symm.trans h.1) (piece_273 f))]
    rw [if_neg (fun h => absurd ((X.fm 0 2 (by decide)).symm.trans h.1) (piece_274 f))]
    rw [if_neg (fun h => absurd ((X.fm 0 2 (by decide)).symm.trans h.1) (piece_275 f))]
    rw [if_pos ⟨(X.fm 0 3 (by decide)).trans (piece_155 f), (X.fk 8 10 (by decide)).trans (piece_276 q f)⟩]
    rw [X.fc, ((X.fbhi 0 4 (by decide)).trans (fld_self q.isLt)), (show fbit x 3 = f from (congrArg (· == 1) (X.fm 3 1 (by decide))).trans (piece_156 f))]
    simp only [takeDst_code, ofNat_toNat_self]

theorem tspawn (a : Src) (b : Src) (f : Bool) : Statement (.tspawn a b f) :=
  roundTrips4 (L := fun ls => a.lits ++ (b.lits ++ ls)) rfl (fun _ => List.append_assoc ..) (by decide) (by decide) a.code_lt b.code_lt (piece_139 f) fun x ls X => by
    show decode0x7A x _ = _
    unfold decode0x7A
    rw [if_pos ⟨(X.fm 0 3 (by decide)).trans (piece_140 f), X.fc.trans (by decide)⟩]
    rw [X.fa, X.fb, (show fbit x 3 = f from (congrArg (· == 1) (X.fm 3 1 (by decide))).trans (piece_141 f))]
    simp only [takeSrc_code]

theorem tcount (d : Dst) (f : Bool) : Statement (.tcount d f) :=
  roundTrips4 (L := fun ls => ls) rfl (fun _ => rfl) (by decide) d.code_lt (by decide) (by decide) (piece_142 f) fun x ls X => by
    show decode0x7A x _ = _
    unfold decode0x7A
    rw [if_neg (fun h => absurd ((X.fm 0 3 (by decide)).symm.trans h.1) (piece_143 f))]
    rw [if_pos ⟨(X.fm 0 3 (by decide)).trans (piece_144 f), (X.fk 4 14 (by decide)).trans (piece_277 f)⟩]
    rw [X.fc, (show fbit x 3 = f from (congrArg (· == 1) (X.fm 3 1 (by decide))).trans (piece_145 f))]
    simp only [takeDst_code]

theorem dlset (a : Src) (b : Src) : Statement (.dlset a b) :=
  roundTrips4 (L := fun ls => a.lits ++ (b.lits ++ ls)) rfl (fun _ => List.append_assoc ..) (by decide) (by decide) a.code_lt b.code_lt (by decide) fun x ls X => by
    show decode0x7C x _ = _
    unfold decode0x7C
    rw [if_pos ⟨(X.fm 0 4 (by decide)).trans (by decide), X.fc.trans (by decide)⟩]
    rw [X.fa, X.fb]
    simp only [takeSrc_code]

theorem dlstep (a : Src) (b : Src) : Statement (.dlstep a b) :=
  roundTrips4 (L := fun ls => a.lits ++ (b.lits ++ ls)) rfl (fun _ => List.append_assoc ..) (by decide) (by decide) a.code_lt b.code_lt (by decide) fun x ls X => by
    show decode0x7C x _ = _
    unfold decode0x7C
    rw [if_neg (fun h => absurd ((X.fm 0 4 (by decide)).symm.trans h.1) (by decide))]
    rw [if_pos ⟨(X.fm 0 4 (by decide)).trans (by decide), X.fc.trans (by decide)⟩]
    rw [X.fa, X.fb]
    simp only [takeSrc_code]

theorem dlq (d : Dst) : Statement (.dlq d) :=
  roundTrips4 (L := fun ls => ls) rfl (fun _ => rfl) (by decide) d.code_lt (by decide) (by decide) (by decide) fun x ls X => by
    show decode0x7C x _ = _
    unfold decode0x7C
    rw [if_neg (fun h => absurd ((X.fm 0 4 (by decide)).symm.trans h.1) (by decide))]
    rw [if_neg (fun h => absurd ((X.fm 0 4 (by decide)).symm.trans h.1) (by decide))]
    rw [if_pos ((X.fk 0 18 (by decide)).trans (by decide))]
    rw [X.fc]
    simp only [takeDst_code]

theorem dlend : Statement (.dlend) :=
  roundTrips4 (L := fun ls => ls) rfl (fun _ => rfl) (by decide) (by decide) (by decide) (by decide) (by decide) fun x ls X => by
    show decode0x7C x _ = _
    unfold decode0x7C
    rw [if_neg (fun h => absurd ((X.fm 0 4 (by decide)).symm.trans h.1) (by decide))]
    rw [if_neg (fun h => absurd ((X.fm 0 4 (by decide)).symm.trans h.1) (by decide))]
    rw [if_neg (fun h => absurd ((X.fk 0 18 (by decide)).symm.trans h) (by decide))]
    rw [if_pos ((X.fall 0 25 (by decide)).trans (by decide))]

theorem enrd (d : Dst) (f : Bool) : Statement (.enrd d f) :=
  roundTrips4 (L := fun ls => ls) rfl (fun _ => rfl) (by decide) d.code_lt (by decide) (by decide) (piece_139 f) fun x ls X => by
    show decode0x7D x _ = _
    unfold decode0x7D
    rw [if_pos ⟨(X.fm 0 3 (by decide)).trans (piece_140 f), (X.fk 4 14 (by decide)).trans (piece_228 f)⟩]
    rw [X.fc, (show fbit x 3 = f from (congrArg (· == 1) (X.fm 3 1 (by decide))).trans (piece_141 f))]
    simp only [takeDst_code]

theorem ensave (d : Dst) (a : Src) (f : Bool) : Statement (.ensave d a f) :=
  roundTrips4 (L := fun ls => a.lits ++ ls) rfl (fun _ => rfl) (by decide) d.code_lt a.code_lt (by decide) (piece_142 f) fun x ls X => by
    show decode0x7D x _ = _
    unfold decode0x7D
    rw [if_neg (fun h => absurd ((X.fm 0 3 (by decide)).symm.trans h.1) (piece_143 f))]
    rw [if_pos ⟨(X.fm 0 3 (by decide)).trans (piece_144 f), X.fb.trans (by decide)⟩]
    rw [X.fc, X.fa, (show fbit x 3 = f from (congrArg (· == 1) (X.fm 3 1 (by decide))).trans (piece_145 f))]
    simp only [takeDst_code, takeSrc_code]

theorem enload (d : Dst) (a : Src) (b : Src) (f : Bool) : Statement (.enload d a b f) :=
  roundTrips4 (L := fun ls => a.lits ++ (b.lits ++ ls)) rfl (fun _ => List.append_assoc ..) (by decide) d.code_lt a.code_lt b.code_lt (piece_146 f) fun x ls X => by
    show decode0x7D x _ = _
    unfold decode0x7D
    rw [if_neg (fun h => absurd ((X.fm 0 3 (by decide)).symm.trans h.1) (piece_147 f))]
    rw [if_neg (fun h => absurd ((X.fm 0 3 (by decide)).symm.trans h.1) (piece_148 f))]
    rw [if_pos ((X.fm 0 3 (by decide)).trans (piece_149 f))]
    rw [X.fc, X.fa, X.fb, (show fbit x 3 = f from (congrArg (· == 1) (X.fm 3 1 (by decide))).trans (piece_150 f))]
    simp only [takeDst_code, takeSrc_code]

theorem xperm (d : Dst) (a : Src) (b : Src) (f : Bool) : Statement (.xperm d a b f) :=
  roundTrips4 (L := fun ls => a.lits ++ (b.lits ++ ls)) rfl (fun _ => List.append_assoc ..) (by decide) d.code_lt a.code_lt b.code_lt (piece_139 f) fun x ls X => by
    show decode0x7E x _ = _
    unfold decode0x7E
    rw [if_pos ((X.fm 0 3 (by decide)).trans (piece_140 f))]
    rw [X.fc, X.fa, X.fb, (show fbit x 3 = f from (congrArg (· == 1) (X.fm 3 1 (by decide))).trans (piece_141 f))]
    simp only [takeDst_code, takeSrc_code]

theorem xred (d : Dst) (a : Src) (f : Bool) : Statement (.xred d a f) :=
  roundTrips4 (L := fun ls => a.lits ++ ls) rfl (fun _ => rfl) (by decide) d.code_lt a.code_lt (by decide) (piece_142 f) fun x ls X => by
    show decode0x7E x _ = _
    unfold decode0x7E
    rw [if_neg (fun h => absurd ((X.fm 0 3 (by decide)).symm.trans h) (piece_143 f))]
    rw [if_pos ⟨(X.fm 0 3 (by decide)).trans (piece_144 f), X.fb.trans (by decide)⟩]
    rw [X.fc, X.fa, (show fbit x 3 = f from (congrArg (· == 1) (X.fm 3 1 (by decide))).trans (piece_145 f))]
    simp only [takeDst_code, takeSrc_code]

theorem xbc (d : Dst) (a : Src) (f : Bool) : Statement (.xbc d a f) :=
  roundTrips4 (L := fun ls => a.lits ++ ls) rfl (fun _ => rfl) (by decide) d.code_lt a.code_lt (by decide) (piece_146 f) fun x ls X => by
    show decode0x7E x _ = _
    unfold decode0x7E
    rw [if_neg (fun h => absurd ((X.fm 0 3 (by decide)).symm.trans h) (piece_147 f))]
    rw [if_neg (fun h => absurd ((X.fm 0 3 (by decide)).symm.trans h.1) (piece_148 f))]
    rw [if_pos ⟨(X.fm 0 3 (by decide)).trans (piece_149 f), X.fb.trans (by decide)⟩]
    rw [X.fc, X.fa, (show fbit x 3 = f from (congrArg (· == 1) (X.fm 3 1 (by decide))).trans (piece_150 f))]
    simp only [takeDst_code, takeSrc_code]

theorem xag (d : Dst) (a : Src) (f : Bool) : Statement (.xag d a f) :=
  roundTrips4 (L := fun ls => a.lits ++ ls) rfl (fun _ => rfl) (by decide) d.code_lt a.code_lt (by decide) (piece_151 f) fun x ls X => by
    show decode0x7E x _ = _
    unfold decode0x7E
    rw [if_neg (fun h => absurd ((X.fm 0 3 (by decide)).symm.trans h) (piece_152 f))]
    rw [if_neg (fun h => absurd ((X.fm 0 3 (by decide)).symm.trans h.1) (piece_153 f))]
    rw [if_neg (fun h => absurd ((X.fm 0 3 (by decide)).symm.trans h.1) (piece_154 f))]
    rw [if_pos ⟨(X.fm 0 3 (by decide)).trans (piece_155 f), X.fb.trans (by decide)⟩]
    rw [X.fc, X.fa, (show fbit x 3 = f from (congrArg (· == 1) (X.fm 3 1 (by decide))).trans (piece_156 f))]
    simp only [takeDst_code, takeSrc_code]

theorem frent (d : Dst) (a : Src) : Statement (.frent d a) :=
  roundTrips4 (L := fun ls => a.lits ++ ls) rfl (fun _ => rfl) (by decide) d.code_lt a.code_lt (by decide) (by decide) fun x ls X => by
    show decode0x7F x _ = _
    unfold decode0x7F
    rw [if_pos ((X.flow 0 11 (by decide)).trans (by decide))]
    rw [X.fc, X.fa]
    simp only [takeDst_code, takeSrc_code]

theorem frentLanes (d : Dst) : Statement (.frentLanes d) :=
  roundTrips4 (L := fun ls => ls) rfl (fun _ => rfl) (by decide) d.code_lt (by decide) (by decide) (by decide) fun x ls X => by
    show decode0x7F x _ = _
    unfold decode0x7F
    rw [if_neg (fun h => absurd ((X.flow 0 11 (by decide)).symm.trans h) (by decide))]
    rw [if_pos ((X.fk 0 18 (by decide)).trans (by decide))]
    rw [X.fc]
    simp only [takeDst_code]

theorem frsetPc (d : Dst) (a : Src) : Statement (.frsetPc d a) :=
  roundTrips4 (L := fun ls => a.lits ++ ls) rfl (fun _ => rfl) (by decide) d.code_lt a.code_lt (by decide) (by decide) fun x ls X => by
    show decode0x7F x _ = _
    unfold decode0x7F
    rw [if_neg (fun h => absurd ((X.flow 0 11 (by decide)).symm.trans h) (by decide))]
    rw [if_neg (fun h => absurd ((X.fk 0 18 (by decide)).symm.trans h) (piece_278 a))]
    rw [if_pos ((X.flow 0 11 (by decide)).trans (by decide))]
    rw [X.fc, X.fa]
    simp only [takeDst_code, takeSrc_code]

theorem frsetPark (d : Dst) : Statement (.frsetPark d) :=
  roundTrips4 (L := fun ls => ls) rfl (fun _ => rfl) (by decide) d.code_lt (by decide) (by decide) (by decide) fun x ls X => by
    show decode0x7F x _ = _
    unfold decode0x7F
    rw [if_neg (fun h => absurd ((X.flow 0 11 (by decide)).symm.trans h) (by decide))]
    rw [if_neg (fun h => absurd ((X.fk 0 18 (by decide)).symm.trans h) (by decide))]
    rw [if_neg (fun h => absurd ((X.flow 0 11 (by decide)).symm.trans h) (by decide))]
    rw [if_pos ((X.fk 0 18 (by decide)).trans (by decide))]
    rw [X.fc]
    simp only [takeDst_code]

theorem frsetUnpark (d : Dst) : Statement (.frsetUnpark d) :=
  roundTrips4 (L := fun ls => ls) rfl (fun _ => rfl) (by decide) d.code_lt (by decide) (by decide) (by decide) fun x ls X => by
    show decode0x7F x _ = _
    unfold decode0x7F
    rw [if_neg (fun h => absurd ((X.flow 0 11 (by decide)).symm.trans h) (by decide))]
    rw [if_neg (fun h => absurd ((X.fk 0 18 (by decide)).symm.trans h) (by decide))]
    rw [if_neg (fun h => absurd ((X.flow 0 11 (by decide)).symm.trans h) (by decide))]
    rw [if_neg (fun h => absurd ((X.fk 0 18 (by decide)).symm.trans h) (by decide))]
    rw [if_pos ((X.fk 0 18 (by decide)).trans (by decide))]
    rw [X.fc]
    simp only [takeDst_code]

theorem halt (a : Src) : Statement (.halt a) :=
  roundTrips4 (L := fun ls => a.lits ++ ls) rfl (fun _ => rfl) (by decide) (by decide) a.code_lt (by decide) (by decide) fun x ls X => by
    show decode0x7F x _ = _
    unfold decode0x7F
    rw [if_neg (fun h => absurd ((X.flow 0 11 (by decide)).symm.trans h) (by decide))]
    rw [if_neg (fun h => absurd ((X.fk 0 18 (by decide)).symm.trans h) (piece_279 a))]
    rw [if_neg (fun h => absurd ((X.flow 0 11 (by decide)).symm.trans h) (by decide))]
    rw [if_neg (fun h => absurd ((X.fk 0 18 (by decide)).symm.trans h) (piece_280 a))]
    rw [if_neg (fun h => absurd ((X.fk 0 18 (by decide)).symm.trans h) (piece_281 a))]
    rw [if_pos ⟨(X.flow 0 11 (by decide)).trans (by decide), X.fc.trans (by decide)⟩]
    rw [X.fa]
    simp only [takeSrc_code]

theorem haltResume (a : Src) : Statement (.haltResume a) :=
  roundTrips4 (L := fun ls => a.lits ++ ls) rfl (fun _ => rfl) (by decide) (by decide) a.code_lt (by decide) (by decide) fun x ls X => by
    show decode0x7F x _ = _
    unfold decode0x7F
    rw [if_neg (fun h => absurd ((X.flow 0 11 (by decide)).symm.trans h) (by decide))]
    rw [if_neg (fun h => absurd ((X.fk 0 18 (by decide)).symm.trans h) (piece_282 a))]
    rw [if_neg (fun h => absurd ((X.flow 0 11 (by decide)).symm.trans h) (by decide))]
    rw [if_neg (fun h => absurd ((X.fk 0 18 (by decide)).symm.trans h) (piece_283 a))]
    rw [if_neg (fun h => absurd ((X.fk 0 18 (by decide)).symm.trans h) (piece_284 a))]
    rw [if_neg (fun h => absurd ((X.flow 0 11 (by decide)).symm.trans h.1) (by decide))]
    rw [if_pos ⟨(X.flow 0 11 (by decide)).trans (by decide), X.fc.trans (by decide)⟩]
    rw [X.fa]
    simp only [takeSrc_code]

theorem tlbinv (d : Dst) (a : Src) (l : Bool) : Statement (.tlbinv d a l) :=
  roundTrips4 (L := fun ls => a.lits ++ ls) rfl (fun _ => rfl) (by decide) d.code_lt a.code_lt (by decide) (piece_28 l) fun x ls X => by
    show decode0x7F x _ = _
    unfold decode0x7F
    rw [if_neg (fun h => absurd ((X.flow 0 11 (by decide)).symm.trans h) (piece_285 l))]
    rw [if_neg (fun h => absurd ((X.fk 0 18 (by decide)).symm.trans h) (piece_286 a l))]
    rw [if_neg (fun h => absurd ((X.flow 0 11 (by decide)).symm.trans h) (piece_287 l))]
    rw [if_neg (fun h => absurd ((X.fk 0 18 (by decide)).symm.trans h) (piece_288 a l))]
    rw [if_neg (fun h => absurd ((X.fk 0 18 (by decide)).symm.trans h) (piece_289 a l))]
    rw [if_neg (fun h => absurd ((X.flow 0 11 (by decide)).symm.trans h.1) (piece_290 l))]
    rw [if_neg (fun h => absurd ((X.flow 0 11 (by decide)).symm.trans h.1) (piece_291 l))]
    rw [if_pos ((X.flow 1 10 (by decide)).trans (piece_292 l))]
    rw [X.fc, X.fa, (show fbit x 0 = l from (congrArg (· == 1) (X.fm 0 1 (by decide))).trans (piece_32 l))]
    simp only [takeDst_code, takeSrc_code]

theorem quiesce (d : Dst) (a : Src) : Statement (.quiesce d a) :=
  roundTrips4 (L := fun ls => a.lits ++ ls) rfl (fun _ => rfl) (by decide) d.code_lt a.code_lt (by decide) (by decide) fun x ls X => by
    show decode0x7F x _ = _
    unfold decode0x7F
    rw [if_neg (fun h => absurd ((X.flow 0 11 (by decide)).symm.trans h) (by decide))]
    rw [if_neg (fun h => absurd ((X.fk 0 18 (by decide)).symm.trans h) (piece_293 a))]
    rw [if_neg (fun h => absurd ((X.flow 0 11 (by decide)).symm.trans h) (by decide))]
    rw [if_neg (fun h => absurd ((X.fk 0 18 (by decide)).symm.trans h) (piece_294 a))]
    rw [if_neg (fun h => absurd ((X.fk 0 18 (by decide)).symm.trans h) (piece_295 a))]
    rw [if_neg (fun h => absurd ((X.flow 0 11 (by decide)).symm.trans h.1) (by decide))]
    rw [if_neg (fun h => absurd ((X.flow 0 11 (by decide)).symm.trans h.1) (by decide))]
    rw [if_neg (fun h => absurd ((X.flow 1 10 (by decide)).symm.trans h) (by decide))]
    rw [if_pos ((X.flow 0 11 (by decide)).trans (by decide))]
    rw [X.fc, X.fa]
    simp only [takeDst_code, takeSrc_code]

theorem quiesceStop (d : Dst) (a : Src) : Statement (.quiesceStop d a) :=
  roundTrips4 (L := fun ls => a.lits ++ ls) rfl (fun _ => rfl) (by decide) d.code_lt a.code_lt (by decide) (by decide) fun x ls X => by
    show decode0x7F x _ = _
    unfold decode0x7F
    rw [if_neg (fun h => absurd ((X.flow 0 11 (by decide)).symm.trans h) (by decide))]
    rw [if_neg (fun h => absurd ((X.fk 0 18 (by decide)).symm.trans h) (piece_296 a))]
    rw [if_neg (fun h => absurd ((X.flow 0 11 (by decide)).symm.trans h) (by decide))]
    rw [if_neg (fun h => absurd ((X.fk 0 18 (by decide)).symm.trans h) (piece_297 a))]
    rw [if_neg (fun h => absurd ((X.fk 0 18 (by decide)).symm.trans h) (piece_298 a))]
    rw [if_neg (fun h => absurd ((X.flow 0 11 (by decide)).symm.trans h.1) (by decide))]
    rw [if_neg (fun h => absurd ((X.flow 0 11 (by decide)).symm.trans h.1) (by decide))]
    rw [if_neg (fun h => absurd ((X.flow 1 10 (by decide)).symm.trans h) (by decide))]
    rw [if_neg (fun h => absurd ((X.flow 0 11 (by decide)).symm.trans h) (by decide))]
    rw [if_pos ((X.flow 0 11 (by decide)).trans (by decide))]
    rw [X.fc, X.fa]
    simp only [takeDst_code, takeSrc_code]

theorem ctxswap (d : Dst) (a : Src) : Statement (.ctxswap d a) :=
  roundTrips4 (L := fun ls => a.lits ++ ls) rfl (fun _ => rfl) (by decide) d.code_lt a.code_lt (by decide) (by decide) fun x ls X => by
    show decode0x7F x _ = _
    unfold decode0x7F
    rw [if_neg (fun h => absurd ((X.flow 0 11 (by decide)).symm.trans h) (by decide))]
    rw [if_neg (fun h => absurd ((X.fk 0 18 (by decide)).symm.trans h) (piece_299 a))]
    rw [if_neg (fun h => absurd ((X.flow 0 11 (by decide)).symm.trans h) (by decide))]
    rw [if_neg (fun h => absurd ((X.fk 0 18 (by decide)).symm.trans h) (piece_300 a))]
    rw [if_neg (fun h => absurd ((X.fk 0 18 (by decide)).symm.trans h) (piece_301 a))]
    rw [if_neg (fun h => absurd ((X.flow 0 11 (by decide)).symm.trans h.1) (by decide))]
    rw [if_neg (fun h => absurd ((X.flow 0 11 (by decide)).symm.trans h.1) (by decide))]
    rw [if_neg (fun h => absurd ((X.flow 1 10 (by decide)).symm.trans h) (by decide))]
    rw [if_neg (fun h => absurd ((X.flow 0 11 (by decide)).symm.trans h) (by decide))]
    rw [if_neg (fun h => absurd ((X.flow 0 11 (by decide)).symm.trans h) (by decide))]
    rw [if_pos ((X.flow 0 11 (by decide)).trans (by decide))]
    rw [X.fc, X.fa]
    simp only [takeDst_code, takeSrc_code]

theorem vreg (d : Dst) (a : Src) : Statement (.vreg d a) :=
  roundTrips4 (L := fun ls => a.lits ++ ls) rfl (fun _ => rfl) (by decide) d.code_lt a.code_lt (by decide) (by decide) fun x ls X => by
    show decode0x7F x _ = _
    unfold decode0x7F
    rw [if_neg (fun h => absurd ((X.flow 0 11 (by decide)).symm.trans h) (by decide))]
    rw [if_neg (fun h => absurd ((X.fk 0 18 (by decide)).symm.trans h) (piece_302 a))]
    rw [if_neg (fun h => absurd ((X.flow 0 11 (by decide)).symm.trans h) (by decide))]
    rw [if_neg (fun h => absurd ((X.fk 0 18 (by decide)).symm.trans h) (piece_303 a))]
    rw [if_neg (fun h => absurd ((X.fk 0 18 (by decide)).symm.trans h) (piece_304 a))]
    rw [if_neg (fun h => absurd ((X.flow 0 11 (by decide)).symm.trans h.1) (by decide))]
    rw [if_neg (fun h => absurd ((X.flow 0 11 (by decide)).symm.trans h.1) (by decide))]
    rw [if_neg (fun h => absurd ((X.flow 1 10 (by decide)).symm.trans h) (by decide))]
    rw [if_neg (fun h => absurd ((X.flow 0 11 (by decide)).symm.trans h) (by decide))]
    rw [if_neg (fun h => absurd ((X.flow 0 11 (by decide)).symm.trans h) (by decide))]
    rw [if_neg (fun h => absurd ((X.flow 0 11 (by decide)).symm.trans h) (by decide))]
    rw [if_pos ((X.flow 0 11 (by decide)).trans (by decide))]
    rw [X.fc, X.fa]
    simp only [takeDst_code, takeSrc_code]

theorem vunreg (d : Dst) (a : Src) : Statement (.vunreg d a) :=
  roundTrips4 (L := fun ls => a.lits ++ ls) rfl (fun _ => rfl) (by decide) d.code_lt a.code_lt (by decide) (by decide) fun x ls X => by
    show decode0x7F x _ = _
    unfold decode0x7F
    rw [if_neg (fun h => absurd ((X.flow 0 11 (by decide)).symm.trans h) (by decide))]
    rw [if_neg (fun h => absurd ((X.fk 0 18 (by decide)).symm.trans h) (piece_305 a))]
    rw [if_neg (fun h => absurd ((X.flow 0 11 (by decide)).symm.trans h) (by decide))]
    rw [if_neg (fun h => absurd ((X.fk 0 18 (by decide)).symm.trans h) (piece_306 a))]
    rw [if_neg (fun h => absurd ((X.fk 0 18 (by decide)).symm.trans h) (piece_307 a))]
    rw [if_neg (fun h => absurd ((X.flow 0 11 (by decide)).symm.trans h.1) (by decide))]
    rw [if_neg (fun h => absurd ((X.flow 0 11 (by decide)).symm.trans h.1) (by decide))]
    rw [if_neg (fun h => absurd ((X.flow 1 10 (by decide)).symm.trans h) (by decide))]
    rw [if_neg (fun h => absurd ((X.flow 0 11 (by decide)).symm.trans h) (by decide))]
    rw [if_neg (fun h => absurd ((X.flow 0 11 (by decide)).symm.trans h) (by decide))]
    rw [if_neg (fun h => absurd ((X.flow 0 11 (by decide)).symm.trans h) (by decide))]
    rw [if_neg (fun h => absurd ((X.flow 0 11 (by decide)).symm.trans h) (by decide))]
    rw [if_pos ((X.flow 0 11 (by decide)).trans (by decide))]
    rw [X.fc, X.fa]
    simp only [takeDst_code, takeSrc_code]

theorem pgattr (d : Dst) (a : Src) : Statement (.pgattr d a) :=
  roundTrips4 (L := fun ls => a.lits ++ ls) rfl (fun _ => rfl) (by decide) d.code_lt a.code_lt (by decide) (by decide) fun x ls X => by
    show decode0x7F x _ = _
    unfold decode0x7F
    rw [if_neg (fun h => absurd ((X.flow 0 11 (by decide)).symm.trans h) (by decide))]
    rw [if_neg (fun h => absurd ((X.fk 0 18 (by decide)).symm.trans h) (piece_308 a))]
    rw [if_neg (fun h => absurd ((X.flow 0 11 (by decide)).symm.trans h) (by decide))]
    rw [if_neg (fun h => absurd ((X.fk 0 18 (by decide)).symm.trans h) (piece_309 a))]
    rw [if_neg (fun h => absurd ((X.fk 0 18 (by decide)).symm.trans h) (piece_310 a))]
    rw [if_neg (fun h => absurd ((X.flow 0 11 (by decide)).symm.trans h.1) (by decide))]
    rw [if_neg (fun h => absurd ((X.flow 0 11 (by decide)).symm.trans h.1) (by decide))]
    rw [if_neg (fun h => absurd ((X.flow 1 10 (by decide)).symm.trans h) (by decide))]
    rw [if_neg (fun h => absurd ((X.flow 0 11 (by decide)).symm.trans h) (by decide))]
    rw [if_neg (fun h => absurd ((X.flow 0 11 (by decide)).symm.trans h) (by decide))]
    rw [if_neg (fun h => absurd ((X.flow 0 11 (by decide)).symm.trans h) (by decide))]
    rw [if_neg (fun h => absurd ((X.flow 0 11 (by decide)).symm.trans h) (by decide))]
    rw [if_neg (fun h => absurd ((X.flow 0 11 (by decide)).symm.trans h) (by decide))]
    rw [if_pos ((X.flow 0 11 (by decide)).trans (by decide))]
    rw [X.fc, X.fa]
    simp only [takeDst_code, takeSrc_code]

theorem clauseSelect (sid : Nat) (wid : Nat) : Statement (.clauseSelect sid wid) := fun h => nomatch h

theorem boundaryTrap (sid : Nat) (wid : Nat) : Statement (.boundaryTrap sid wid) := fun h => nomatch h

theorem longLatencyCompletion (sid : Nat) (wid : Nat) (ix : Nat) : Statement (.longLatencyCompletion sid wid ix) := fun h => nomatch h

theorem weftSlotRelease (sid : Nat) (wid : Nat) : Statement (.weftSlotRelease sid wid) := fun h => nomatch h

theorem icacheFill (cl : Nat) (ctx : Word) (line : Nat) : Statement (.icacheFill cl ctx line) := fun h => nomatch h

theorem pollingClassification (sid : Nat) (wid : Nat) : Statement (.pollingClassification sid wid) := fun h => nomatch h

theorem hangRecord (sid : Nat) (wid : Nat) : Statement (.hangRecord sid wid) := fun h => nomatch h

theorem fullEmptyRetest (sid : Nat) : Statement (.fullEmptyRetest sid) := fun h => nomatch h

theorem unitArrival (sid : Nat) (sc : BarScope) (n : Nat) : Statement (.unitArrival sid sc n) := fun h => nomatch h

theorem wakeMessage (core : Nat) : Statement (.wakeMessage core) := fun h => nomatch h

theorem wakeRecord (core : Nat) : Statement (.wakeRecord core) := fun h => nomatch h

theorem swatchPlacement (sid : Nat) (core : Nat) : Statement (.swatchPlacement sid core) := fun h => nomatch h

theorem swatchRelease (sid : Nat) : Statement (.swatchRelease sid) := fun h => nomatch h

theorem bagChoice (core : Nat) : Statement (.bagChoice core) := fun h => nomatch h

theorem bagTimeslice (core : Nat) : Statement (.bagTimeslice core) := fun h => nomatch h

theorem weftSave (sid : Nat) (wid : Nat) : Statement (.weftSave sid wid) := fun h => nomatch h

theorem weftLoad (sid : Nat) (wid : Nat) : Statement (.weftLoad sid wid) := fun h => nomatch h

theorem swatchRotation (sid : Nat) : Statement (.swatchRotation sid) := fun h => nomatch h

theorem copyJobBegin (core : Nat) (job : Nat) : Statement (.copyJobBegin core job) := fun h => nomatch h

theorem copyLineFull (core : Nat) (job : Nat) : Statement (.copyLineFull core job) := fun h => nomatch h

theorem copyJobCompletion (core : Nat) (job : Nat) : Statement (.copyJobCompletion core job) := fun h => nomatch h

theorem copyJobAbort (core : Nat) (job : Nat) : Statement (.copyJobAbort core job) := fun h => nomatch h

theorem exposureCompletion (sid : Nat) (wid : Nat) (ix : Nat) : Statement (.exposureCompletion sid wid ix) := fun h => nomatch h

theorem writeBufferDrain (core : Nat) (sector : Nat) : Statement (.writeBufferDrain core sector) := fun h => nomatch h

theorem firmwareCopyCompletion (core : Nat) (job : Nat) : Statement (.firmwareCopyCompletion core job) := fun h => nomatch h

theorem clusterWake (cl : Nat) (sid : Nat) : Statement (.clusterWake cl sid) := fun h => nomatch h

theorem taskGather (launch : Nat) : Statement (.taskGather launch) := fun h => nomatch h

theorem launchPacket (ctx : Word) (q : Nat) : Statement (.launchPacket ctx q) := fun h => nomatch h

theorem graphPacket (ctx : Word) (q : Nat) : Statement (.graphPacket ctx q) := fun h => nomatch h

theorem waitPacket (ctx : Word) (q : Nat) : Statement (.waitPacket ctx q) := fun h => nomatch h

theorem signalPacket (ctx : Word) (q : Nat) : Statement (.signalPacket ctx q) := fun h => nomatch h

theorem copyPacket (ctx : Word) (q : Nat) : Statement (.copyPacket ctx q) := fun h => nomatch h

theorem qbarrierPacket (ctx : Word) (q : Nat) : Statement (.qbarrierPacket ctx q) := fun h => nomatch h

theorem fencePacket (ctx : Word) (q : Nat) : Statement (.fencePacket ctx q) := fun h => nomatch h

theorem waitRetest (ctx : Word) (q : Nat) : Statement (.waitRetest ctx q) := fun h => nomatch h

theorem launchCompletion (launch : Nat) : Statement (.launchCompletion launch) := fun h => nomatch h

theorem graphNodeCompletion (run : Nat) (node : Nat) : Statement (.graphNodeCompletion run node) := fun h => nomatch h

theorem quiesceMarkerReturn (core : Nat) : Statement (.quiesceMarkerReturn core) := fun h => nomatch h

theorem remoteWrite (die : Nat) : Statement (.remoteWrite die) := fun h => nomatch h

theorem updateApply (die : Nat) (ix : Nat) : Statement (.updateApply die ix) := fun h => nomatch h

theorem floorMessage (region : Nat) (die : Nat) : Statement (.floorMessage region die) := fun h => nomatch h

theorem floorPoint (region : Nat) : Statement (.floorPoint region) := fun h => nomatch h

theorem taskGatherTimeout (launch : Nat) : Statement (.taskGatherTimeout launch) := fun h => nomatch h

theorem clockRestart (cl : Nat) (ticks : Nat) : Statement (.clockRestart cl ticks) := fun h => nomatch h

theorem collectiveCompletion (die : Nat) (op : Nat) : Statement (.collectiveCompletion die op) := fun h => nomatch h

theorem illegalInstruction (word : Word) : Statement (.illegalInstruction word) := fun h => nomatch h

theorem griudbBreakpoint (sid : Nat) (wid : Nat) : Statement (.griudbBreakpoint sid wid) := fun h => nomatch h

theorem wakeComplete (cl : Nat) : Statement (.wakeComplete cl) := fun h => nomatch h

theorem gatingComplete (cl : Nat) : Statement (.gatingComplete cl) := fun h => nomatch h

theorem gatingStart (cl : Nat) : Statement (.gatingStart cl) := fun h => nomatch h

theorem cpgo (cl : Nat) : Statement (.cpgo cl) := fun h => nomatch h

theorem spsize (die : Nat) (pages : Word) : Statement (.spsize die pages) := fun h => nomatch h

theorem governorEvaluation (cl : Nat) : Statement (.governorEvaluation cl) := fun h => nomatch h

theorem collectivePrepareDone (die : Nat) (op : Nat) (verdict : MemberVerdict) : Statement (.collectivePrepareDone die op verdict) := fun h => nomatch h

theorem droopThrottle (cl : Nat) : Statement (.droopThrottle cl) := fun h => nomatch h

theorem energyPeriodEnd (cl : Nat) : Statement (.energyPeriodEnd cl) := fun h => nomatch h

theorem watchFire (sector : Nat) : Statement (.watchFire sector) := fun h => nomatch h

theorem evpop (cl : Nat) : Statement (.evpop cl) := fun h => nomatch h

theorem evqStatusClear (cl : Nat) : Statement (.evqStatusClear cl) := fun h => nomatch h

theorem staggerExpiry (sid : Nat) : Statement (.staggerExpiry sid) := fun h => nomatch h

theorem ballastInterval (cl : Nat) (exposures : Nat) : Statement (.ballastInterval cl exposures) := fun h => nomatch h

theorem capEvaluation (watts : Nat) : Statement (.capEvaluation watts) := fun h => nomatch h

theorem versionWaiterWake (region : Nat) (sector : Nat) : Statement (.versionWaiterWake region sector) := fun h => nomatch h

theorem tailWrite (ctx : Word) (q : Nat) (tail : Word) : Statement (.tailWrite ctx q tail) := fun h => nomatch h

theorem queueAging (ctx : Word) (q : Nat) : Statement (.queueAging ctx q) := fun h => nomatch h

theorem ecodeClear (ctx : Word) (q : Nat) : Statement (.ecodeClear ctx q) := fun h => nomatch h

theorem eventRingHeadAdvance (ctx : Word) (head : Word) : Statement (.eventRingHeadAdvance ctx head) := fun h => nomatch h

theorem ptabLo (die : Nat) (value : Word) : Statement (.ptabLo die value) := fun h => nomatch h

theorem flitReceive (port : Nat) (flit : List Byte) : Statement (.flitReceive port flit) := fun h => nomatch h

theorem portRetrain (port : Nat) : Statement (.portRetrain port) := fun h => nomatch h

theorem msgRead (msg : Msg) : Statement (.msgRead msg) := fun h => nomatch h

theorem msgReadData (msg : Msg) : Statement (.msgReadData msg) := fun h => nomatch h

theorem msgWrite (msg : Msg) : Statement (.msgWrite msg) := fun h => nomatch h

theorem msgWriteAck (msg : Msg) : Statement (.msgWriteAck msg) := fun h => nomatch h

theorem msgAtomic (msg : Msg) : Statement (.msgAtomic msg) := fun h => nomatch h

theorem msgAtomicResult (msg : Msg) : Statement (.msgAtomicResult msg) := fun h => nomatch h

theorem msgBarrierArrival (msg : Msg) : Statement (.msgBarrierArrival msg) := fun h => nomatch h

theorem msgWake (msg : Msg) : Statement (.msgWake msg) := fun h => nomatch h

theorem msgCollective (msg : Msg) : Statement (.msgCollective msg) := fun h => nomatch h

theorem msgVersionControl (msg : Msg) : Statement (.msgVersionControl msg) := fun h => nomatch h

theorem msgMigration (msg : Msg) : Statement (.msgMigration msg) := fun h => nomatch h

theorem mxfer (die : Nat) (value : Word) : Statement (.mxfer die value) := fun h => nomatch h

theorem migrationDone (die : Nat) (status : Nat) : Statement (.migrationDone die status) := fun h => nomatch h

theorem mctl (die : Nat) (value : Word) : Statement (.mctl die value) := fun h => nomatch h

theorem fretryClear (die : Nat) : Statement (.fretryClear die) := fun h => nomatch h

theorem cecntClear (unit : Nat) : Statement (.cecntClear unit) := fun h => nomatch h

theorem correctedError (unit : Nat) (cl : Nat) : Statement (.correctedError unit cl) := fun h => nomatch h

theorem unitFence (u : FenceUnit) : Statement (.unitFence u) := fun h => nomatch h

theorem railFault : Statement (.railFault) := fun h => nomatch h

theorem resetRelease (rep : StartReport) : Statement (.resetRelease rep) := fun h => nomatch h

theorem watchdogExpiry (stage : Nat) : Statement (.watchdogExpiry stage) := fun h => nomatch h

theorem startComplete : Statement (.startComplete) := fun h => nomatch h

theorem fscClear : Statement (.fscClear) := fun h => nomatch h

theorem attestationReport (nonce : List Byte) : Statement (.attestationReport nonce) := fun h => nomatch h

theorem griudbResume (ctx : Word) : Statement (.griudbResume ctx) := fun h => nomatch h

theorem portTrained (port : Nat) (gen : Nat) : Statement (.portTrained port gen) := fun h => nomatch h

theorem standbyPowerLoss : Statement (.standbyPowerLoss) := fun h => nomatch h

end Sys2Proof.Laws.RoundTrip
end

