-- ==== Sys2Proof/Tests/Slice0.lean ====
section
/-!
SUPPORT. Tests of the model's own parts: ill-formed terms, words of the spec, and for every statement a state
and operands that meet its hypotheses.
-/
namespace Sys2Proof.Tests

open Sys2Proof Sys2Proof.Machine Sys2Proof.Claim

set_option maxRecDepth 100000

/-! ## WellFormed: one ill-formed term for each check, which the check refuses -/

theorem test_ill_pair : (Instr.iadd (.v 3) (.v 2) (.v 4) false false true).firstFailed = some .pairShape := by decide
theorem test_ill_quad : (Instr.ldq (.v 6) (.v 2) (.sp .z) false).firstFailed = some .pairShape := by decide
theorem test_ill_literal : (Instr.cmul (.v 4) (.lit 1) (.v 8)).firstFailed = some .literalGroup := by decide
theorem test_ill_scalar_sources : (Instr.iadd (.s 1) (.v 2) (.s 3) false false false).firstFailed = some .scalarSources := by decide
theorem test_ill_must_be_scalar : (Instr.brx (.v 1) 0).firstFailed = some .mustBeScalar := by decide
theorem test_ill_must_be_vector : (Instr.sel (.s 1) (.v 2) (.v 3) false 0).firstFailed = some .mustBeVector := by decide
theorem test_ill_modifier : (Instr.red (.v 1) (.v 2) .add .wf false false true false).firstFailed = some .modifier := by decide
theorem test_ill_window : (Instr.winb 10 0).firstFailed = some .window ∧ (Instr.winb 9 13).firstFailed = some .window ∧
    (Instr.winb 9 12).firstFailed = none := by decide

/-! ## Decoding: words that the spec's examples and tables write out -/

/-- Each word with its literals decodes to the instruction beside it. -/
def reads (l : List (Word × List Word × Instr)) : Bool := l.all fun x =>
  match decode x.1 x.2.1 with
  | .ok (i, rest) => decide (i = x.2.2) && rest.isEmpty
  | .error _ => false

theorem test_words_flow : reads [(0x02280007, [], .bra (.pred true 2) 7), (0x0203FFFE, [], .bra (.pred false 0) 0x3FFFE),
    (0x051FFFD4, [], .brx (.s 7) 0x3FFD4), (0x07D0001B, [], .brz (.sp .swi) 0x1B), (0x08780005, [], .call 30 5),
    (0x0A00F000, [], .jmpi (.v 30)), (0x0C000002, [], .exit (.pred 2)), (0x0C000008, [], .exit .always), (0x0E000000, [], .yield),
    (0x10000000, [], .nop), (0x12000012, [], .winb 1 2), (0x14200002, [], .ipref 8 2), (0x160000FF, [], .trap 0xFF),
    (0x18040000, [], .elect 1), (0x1B100028, [], .csrr (.s 4) 0x028), (0x1D080020, [], .csrw (.s 2) 0x020), (0x1E000000, [], .eret)] = true := by decide

theorem test_words_integer : reads [(0x20020710, [], .iadd (.v 0) (.s 0) (.sp .lid) false false false),
    (0x23121F30, [], .isub (.s 4) (.s 3) (.sp .nwf) false false false),
    (0x250797F0, [37], .imul (.s 1) (.sp .wid) (.lit 37) false false false),
    (0x280C17F0, [9], .imad (.v 3) (.v 2) (.lit 9) false false false), (0x2E1420A0, [], .ffs (.v 5) (.v 4)),
    (0x310E1C50, [], .and (.s 3) (.s 3) (.s 5) false), (0x480BD717, [], .lea (.v 2) (.sp .targ) (.sp .lid) true 3),
    (0x4B03D001, [], .mov (.s 0) (.sp .targ) true), (0x4D060BE8, [], .iaddi (.s 1) (.s 1) 0x3E8),
    (0x5356A00B, [], .xori (.s 21) (.s 20) 0x00B), (0x5516241F, [], .srai (.s 5) (.s 4) 31), (0x550B9002, [], .shli (.s 2) (.sp .wid) 2),
    (0x56082AFC, [], .icmpi 2 (.v 5) .ge 0x7C), (0x595C0150, [], .movi (.s 23) 0x150), (0x5A052345, [], .movhi (.v 1) 0x12345),
    (0x46103042, [], .sel (.v 4) (.v 6) (.v 4) false 2), (0x44041C62, [], .icmp 1 (.v 3) (.s 6) .lt)] = true := by decide

theorem test_words_float : reads [(0x66184040, [], .ffma (.v 6) (.v 8) (.v 4) .rn .f32), (0x72082810, [], .rsq (.v 2) (.v 5)),
    (0x78103080, [], .cmul (.v 4) (.v 6) (.v 8)), (0x602048A5, [], .fadd (.v 8) (.v 9) (.v 10) .rz .f16x2)] = true := by decide

theorem test_words_lanes : reads [(0x801827F7, [1], .shfl (.v 6) (.v 4) (.lit 1) true .xor),
    (0x83200802, [], .voteBallot (.s 8) 1 false), (0x820C2003, [], .voteUniform 3 (.v 4)), (0x840C1004, [], .scan (.v 3) (.v 2) true .addI32),
    (0x87281001, [], .redw (.s 10) (.v 2) .addF32), (0x88182000, [], .matchLanes (.v 6) (.v 4) false),
    (0x8C042060, [], .prmt (.v 1) (.v 4) (.v 6)), (0x8E0A1700, [], .lset (.v 2) (.s 2) (.sp .z) false)] = true := by decide

theorem test_words_enlarger : reads [(0x900387F0, [0x1000], .neg (.sp .z) (.lit 0x1000) false false),
    (0x90022451, [], .neg (.s 4) (.s 5) false true), (0x92022454, [], .expo (.s 4) (.s 5) false true), (0x94022450, [], .cexpo (.s 4) (.s 5) false false),
    (0x98022004, [], .accz (.s 4) false true), (0x9A238000, [], .accrdReg (.v 8) (.sp .z) false), (0x9A022453, [], .accrdE4m3 (.s 4) (.s 5) false),
    (0x9B262005, [], .accrdStat (.s 9) (.s 4) false), (0x9C022452, [], .accld (.s 4) (.s 5) false false .desc), (0x9E022000, [], .negrel (.s 4) false)] = true := by decide

theorem test_words_memory : reads [(0xA01417F2, [16], .ld (.v 5) (.v 2) (.lit 16) false false .b32),
    (0xA2201700, [], .ldq (.v 8) (.v 2) (.sp .z) false), (0xA42BD091, [], .st (.v 10) (.sp .targ) (.v 9) false .b16),
    (0xA62017F8, [32], .stq (.v 8) (.v 2) (.lit 32) true), (0xA91E1022, [], .ldacq (.s 7) (.s 2) .bo false .b32),
    (0xAA141022, [], .strel (.v 5) (.v 2) .bo false .b32), (0xAC101036, [], .atom (.v 4) (.v 2) .add .ba false .ar false),
    (0xAD1A1480, [], .atom (.s 6) (.s 2) .fadd .wf false .rlx false), (0xAE181022, [], .cas (.v 6) (.v 2) .bo false .acq false),
    (0xB0241482, [], .red (.v 9) (.v 2) .fadd .wf false false true false), (0xB2000022, [], .fence .bo false .rel),
    (0xB2000020, [], .fence .bo false .ar), (0xB4001000, [], .watch (.v 2) false), (0xB4000001, [], .watchClr false),
    (0xB7140000, [], .waitw (.s 5) false false), (0xB8001700, [], .pref (.v 2) (.sp .z) false), (0xBA001000, [], .cctlWb (.v 2) false),
    (0xBA000003, [], .cctlIinv false)] = true := by decide

theorem test_words_versions : reads [(0xC00A2461, [], .vld (.v 2) (.s 4) (.s 6) false false false true),
    (0xC01C1462, [], .vld (.v 7) (.v 2) (.s 6) false false true false), (0xC20A27F1, [1], .vst (.v 2) (.s 4) (.lit 1) false false true),
    (0xC40227F0, [3], .vfloor (.s 4) (.lit 3) false), (0xC7222000, [], .vqry (.s 8) (.s 4) false)] = true := by decide

theorem test_words_scratchpad : reads [(0xD11E3000, [], .lds (.s 7) (.s 6) false .none .b32),
    (0xD010100C, [], .lds (.v 4) (.v 2) false .both .b32), (0xD222100E, [], .sts (.v 8) (.s 2) false .both .b128),
    (0xD4022030, [], .fewait (.s 4) false false), (0xD60C1000, [], .atoms (.v 3) (.v 2) .add false), (0xD61810C0, [], .atoms (.v 6) (.v 2) .cas false),
    (0xD9264000, [], .splook (.s 9) (.s 8) false), (0xDB2647F0, [2], .sptag (.s 9) (.s 8) (.lit 2) false),
    (0xDC001431, [], .spdescSet (.v 2) (.s 3) false)] = true := by decide

theorem test_words_core : reads [(0xE12A27F0, [3], .shape (.s 10) (.s 4) (.lit 3) false), (0xE55244C0, [], .cpyin (.s 20) (.s 8) (.s 12) false false),
    (0xE75644E1, [], .cpyout (.s 21) (.s 8) (.s 14) false true), (0xE95A84C0, [], .gather (.s 22) (.s 16) (.s 12) false),
    (0xEB5C0000, [], .stage (.s 23) false), (0xED2A37F0, [3], .ctab (.s 10) (.s 6) (.lit 3) false), (0xEF62A000, [], .cpyq (.s 24) (.s 20) false),
    (0xF003F834, [4], .bar (.lit 4) false 3 .bo), (0xF11B8011, [], .bara (.s 6) (.sp .z) false 1 .sw), (0xF0023012, [], .barw (.s 6) false 1 .sw),
    (0xF1200013, [], .barq (.s 8) false 1 .sw), (0xF2022020, [], .qpush (.s 4) 2 false false), (0xF3180025, [], .qpop (.s 6) 2 false true),
    (0xF31C0023, [], .qlen (.s 7) 2 false), (0xF4002860, [], .tspawn (.v 5) (.v 6) false), (0xF5240001, [], .tcount (.s 9) false)] = true := by decide

theorem test_words_system : reads [(0xF803FFF1, [200000, 1000000], .dlstep (.lit 200000) (.lit 1000000)), (0xF9200002, [], .dlq (.s 8)),
    (0xF8000003, [], .dlend), (0xFB100000, [], .enrd (.s 4) false), (0xFB1A1001, [], .ensave (.s 6) (.s 2) false),
    (0xFB221462, [], .enload (.s 8) (.s 2) (.s 6) false), (0xFD222460, [], .xperm (.s 8) (.s 4) (.s 6) false), (0xFD262001, [], .xred (.s 9) (.s 4) false),
    (0xFD262002, [], .xbc (.s 9) (.s 4) false), (0xFD26200B, [], .xag (.s 9) (.s 4) true), (0xFF222000, [], .frent (.s 8) (.s 4)),
    (0xFF122810, [], .frsetPc (.s 4) (.s 5)), (0xFF100011, [], .frsetPark (.s 4)), (0xFF222060, [], .vreg (.s 8) (.s 4)),
    (0xFF225070, [], .vunreg (.s 8) (.s 10))] = true := by decide

/-- Reserved words are refused (R24, R34): the zero word, a reserved opcode, a special as a destination, code 126, a set reserved bit. -/
theorem test_words_refused : [0x00000000, 0xF6000000, 0x21C00000, 0x200807E0, 0x10000001, 0x20000008].all
    (fun w => (match decode w [] with | .ok _ => false | .error _ => true)) = true := by decide

/-! ## Every instruction issues somewhere: a small state in which it does -/

/-- The state in which the word of an instruction is about to issue: one resident weft of 32 lanes in user mode in a system
context, every register unwritten. -/
def at_ (i : Instr) : State := { State.reset.withFetchWord 32 i.wordNat with issuer := some (0, 0), agenda := [] }

/-- The same weft in trap mode, its snapshot one entry. -/
def inTrap (s : State) : State := s.modWeft 0 0 fun w => { w with
  trapMode := true, trec := { w.trec with tcause := 0x13, snap := [⟨8, 0, 0, 0xFFFFFFFF, false⟩] } }

/-- Its swatch with barriers, hardware queues and scratchpad. -/
def roomy (s : State) : State := s.modSwatch 0 fun x => { x with barriers := 32, queues := 16, spsize := 65536 }

def issuesNow (s : State) (i : Instr) : Bool :=
  match s.site? with
  | some k => k.w.wait.isNone && (k.cl.tested || k.w.waitMet k.e k.cl.h0) && (k.staticTrap i).isNone && !k.interlocked i &&
      (k.registerTrap i).isNone && (k.fallTrap s i).isNone
  | none => false

theorem issues_now {s : State} {i : Instr} (h : issuesNow s i = true) : ∃ k, s.site? = some k ∧ Issues s i k := by
  unfold issuesNow at h
  split at h
  · rename_i k hk
    simp only [Bool.and_eq_true, Bool.or_eq_true, Option.isNone_iff_eq_none, Bool.not_eq_true'] at h
    obtain ⟨⟨⟨⟨⟨h1, h2⟩, h3⟩, h4⟩, h5⟩, h6⟩ := h
    exact ⟨k, hk, hk, h1, h2, h3, h4, h5, h6⟩
  · cases h

def samplesFlow : List Instr := [.bra (.pred true 2) 1, .brx (.s 7) 1, .brz (.sp .swi) 1, .call 30 5, .jmpi (.v 30), .exit (.pred 2),
  .exit .always, .yield, .nop, .winb 1 2, .ipref 8 2, .trap 0xFF, .elect 1, .csrr (.s 4) 0x028, .csrw (.s 2) 0x020]

def samplesInteger : List Instr := [.iadd (.v 4) (.v 2) (.s 5) true false false, .isub (.s 4) (.s 6) (.sp .z) false false true,
  .imul (.v 1) (.v 1) (.v 1) false true false, .imulh (.v 1) (.v 2) (.v 3) true false, .imad (.v 3) (.v 2) (.v 4) false false false,
  .imin (.v 1) (.v 2) (.v 3) false false, .imax (.v 1) (.v 2) (.v 3) true false, .iabs (.v 1) (.v 2) true false, .ineg (.v 2) (.v 4) false true,
  .not (.v 1) (.v 2) false, .popc (.v 1) (.v 2), .clz (.v 1) (.v 2), .brev (.v 1) (.v 2), .sxb (.v 1) (.v 2), .sxh (.v 1) (.v 2),
  .zxb (.v 1) (.v 2), .zxh (.v 1) (.v 2), .ffs (.v 5) (.v 4), .and (.s 3) (.s 3) (.s 5) false, .or (.v 1) (.v 2) (.v 3) false,
  .xor (.v 1) (.v 2) (.v 3) false, .andn (.v 2) (.v 4) (.v 6) true, .shl (.v 1) (.v 2) (.v 3) false, .shr (.v 1) (.v 2) (.v 3) false,
  .sra (.v 2) (.v 4) (.v 3) true, .rol (.v 1) (.v 2) (.v 3) false, .bfx (.v 1) (.v 2) (.v 3) true, .bfi (.v 1) (.v 2) (.v 3),
  .icmp 1 (.v 3) (.s 6) .lt, .sel (.v 4) (.v 6) (.v 4) false 2, .lea (.v 2) (.sp .targ) (.sp .lid) true 3, .mov (.s 0) (.sp .targ) true,
  .iaddi (.s 1) (.s 1) 0x3E8, .andi (.v 1) (.v 2) 0x400, .ori (.v 1) (.v 2) 1, .xori (.s 21) (.s 20) 0x00B, .shli (.s 2) (.sp .wid) 2,
  .shri (.v 2) (.v 2) 3, .srai (.s 5) (.s 4) 31, .roli (.v 1) (.v 2) 1, .icmpi 2 (.v 5) .ge 0x7C, .movi (.s 23) 0x150,
  .movhi (.v 1) 0x12345, .pand 1 2 3, .por 1 2 3, .pxor 1 2 3, .pandn 1 2 3, .pnot 1 2, .pmov 1 2, .p2v (.v 1), .v2p (.v 1)]

def samplesFloat : List Instr := [.fadd (.v 8) (.v 9) (.v 10) .rz .f16x2, .fsub (.v 1) (.v 2) (.v 3) .rn .f32, .fmul (.v 2) (.v 4) (.v 6) .ru .f64,
  .ffma (.v 6) (.v 8) (.v 4) .rn .f32, .fmin (.v 1) (.v 2) (.v 3) .bf16x2, .fmax (.v 1) (.v 2) (.v 3) .f32, .fabs (.v 1) (.v 2) .f32,
  .fneg (.v 1) (.v 2) .f32, .frnd (.v 1) (.v 2) .rd .f32, .fcls (.v 1) (.v 2) .f64, .fexp (.v 1) (.v 2) .f32, .fmant (.v 1) (.v 2) .f32,
  .fcmp 1 (.v 2) (.v 3) false .lt, .fcvt (.v 12) (.v 16) .e4m3x4F32x4 .rn true, .fcvt (.v 12) (.v 16) .e2m1x4hiF32x4 .rn false,
  .rcp (.v 1) (.v 2), .rsq (.v 2) (.v 5), .sqrt (.v 1) (.v 2), .ex2 (.v 1) (.v 2), .lg2 (.v 1) (.v 2), .sinpi (.v 1) (.v 2),
  .cospi (.v 1) (.v 2), .tanh (.v 1) (.v 2), .twosum (.v 2) (.v 4) (.v 5), .twoprod (.v 2) (.v 4) (.v 5), .cmul (.v 4) (.v 6) (.v 8),
  .cfma (.v 4) (.v 6) (.v 8), .cacc (.v 4) (.v 8), .fdiv (.v 1) (.v 2) (.v 3)]

def samplesLanes : List Instr := [.shfl (.v 6) (.v 4) (.s 1) true .xor, .voteAny 1 2 true, .voteAll 1 2 false, .voteBallot (.s 8) 1 false,
  .voteUniform 3 (.v 4), .scan (.v 3) (.v 2) true .addI32, .redw (.s 10) (.v 2) .addF32, .matchLanes (.v 6) (.v 4) false,
  .lget (.s 5) (.v 3) (.s 1) false, .prmt (.v 1) (.v 4) (.v 6), .lset (.v 2) (.s 2) (.sp .z) false]

def samplesEnlarger : List Instr := [.neg (.s 4) (.s 5) false true, .expo (.s 4) (.s 5) false true, .cexpo (.s 4) (.s 5) false false,
  .had (.s 4) (.s 5) false false true false, .accz (.s 4) false true, .accrdReg (.v 8) (.sp .z) false, .accrdF32 (.s 4) (.s 5) false,
  .accrdBf16 (.s 4) (.s 5) false, .accrdE4m3 (.s 4) (.s 5) false, .accrdE5m2 (.s 4) (.s 5) false, .accrdStat (.s 9) (.s 4) false,
  .accld (.s 4) (.s 5) false false .desc, .negrel (.s 4) false]

def samplesMemory : List Instr := [.ld (.v 5) (.v 2) (.sp .z) false false .b32, .ldq (.v 8) (.v 2) (.sp .z) false,
  .st (.v 10) (.sp .targ) (.v 9) false .b16, .stq (.v 8) (.v 2) (.sp .z) true, .ldacq (.s 7) (.s 2) .bo false .b32,
  .strel (.v 5) (.v 2) .bo false .b32, .atom (.v 4) (.v 2) .add .ba false .ar false, .cas (.v 6) (.v 2) .bo false .acq false,
  .red (.v 9) (.v 2) .fadd .wf false false true false, .fence .bo false .ar, .watch (.v 2) false, .watchClr false, .waitw (.s 5) false true,
  .pref (.v 2) (.sp .z) false, .cctlWb (.v 2) false, .cctlInv (.v 2) false, .cctlDemote (.v 2) false, .cctlIinv false,
  .vld (.v 2) (.s 4) (.s 6) false false false true, .vst (.v 2) (.s 4) (.s 6) false false true, .vfloor (.s 4) (.s 6) false,
  .vqry (.s 8) (.s 4) false]

def samplesCore : List Instr := [.lds (.s 7) (.s 6) false .none .b32, .sts (.v 8) (.s 2) false .both .b128, .feget (.s 4) (.s 6) false,
  .feset (.s 4) false, .feclr (.s 4) false, .fewait (.s 4) false false, .atoms (.v 6) (.v 2) .cas false, .splook (.s 9) (.s 8) false,
  .sptag (.s 9) (.s 8) (.s 2) false, .sptagInv (.s 9) (.s 8) false, .spdesc (.v 1) (.v 2) false, .spdescSet (.v 2) (.s 3) false,
  .shape (.s 10) (.s 4) (.s 3) false, .unshape (.s 3) false, .cpyin (.s 20) (.s 8) (.s 12) false false, .cpyout (.s 21) (.s 8) (.s 14) false true,
  .gather (.s 22) (.s 16) (.s 12) false, .stage (.s 23) false, .ctab (.s 10) (.s 6) (.s 3) false, .cpyq (.s 24) (.s 20) false,
  .bar (.sp .z) false 3 .bo, .bara (.s 6) (.sp .z) false 1 .sw, .barw (.s 6) false 1 .sw, .barq (.s 8) false 1 .sw, .qpush (.s 4) 2 false false,
  .qpop (.s 6) 2 false true, .qpeek (.s 6) 2 false true, .qlen (.s 7) 2 false, .tspawn (.v 5) (.v 6) false, .tcount (.s 9) false]

def samplesSystem : List Instr := [.dlset (.s 1) (.s 2), .dlstep (.s 1) (.s 2), .dlq (.s 8), .dlend, .enrd (.s 4) false, .ensave (.s 6) (.s 2) false,
  .enload (.s 8) (.s 2) (.s 6) false, .xperm (.s 8) (.s 4) (.s 6) false, .xred (.s 9) (.s 4) false, .xbc (.s 9) (.s 4) false,
  .xag (.s 9) (.s 4) true, .halt (.s 1), .haltResume (.s 1), .tlbinv (.s 4) (.s 8) false, .quiesce (.s 1) (.s 2), .quiesceStop (.s 1) (.s 2),
  .ctxswap (.s 1) (.s 2), .vreg (.s 8) (.s 4), .vunreg (.s 8) (.s 10), .pgattr (.s 1) (.s 4)]

def samplesTrap : List Instr := [.eret, .frent (.s 8) (.s 4), .frentLanes (.s 8), .frsetPc (.s 4) (.s 5), .frsetPark (.s 4), .frsetUnpark (.s 4)]

theorem test_issues_flow : samplesFlow.all (fun i => issuesNow (at_ i) i) = true := by decide
theorem test_issues_integer : samplesInteger.all (fun i => issuesNow (at_ i) i) = true := by decide
theorem test_issues_float : samplesFloat.all (fun i => issuesNow (at_ i) i) = true := by decide
theorem test_issues_lanes : samplesLanes.all (fun i => issuesNow (at_ i) i) = true := by decide
theorem test_issues_enlarger : samplesEnlarger.all (fun i => issuesNow (at_ i) i) = true := by decide
theorem test_issues_memory : samplesMemory.all (fun i => issuesNow (at_ i) i) = true := by decide
theorem test_issues_core : samplesCore.all (fun i => issuesNow (roomy (at_ i)) i) = true := by decide
theorem test_issues_system : samplesSystem.all (fun i => issuesNow (at_ i) i) = true := by decide
theorem test_issues_trap : samplesTrap.all (fun i => issuesNow (inTrap (at_ i)) i) = true := by decide

/-! ## Witnesses: for every statement a state and operands that meet its hypotheses -/

/-- An instruction issues in a state at a site with a property. -/
theorem meets {s : State} {i : Instr} {p : Site → Prop} [DecidablePred p]
    (h : (issuesNow s i && s.site?.any fun k => decide (p k)) = true) : ∃ k, Issues s i k ∧ p k := by
  simp only [Bool.and_eq_true] at h
  obtain ⟨k, hk, hI⟩ := issues_now h.1
  have := h.2
  rw [hk] at this
  exact ⟨k, hI, of_decide_eq_true this⟩

theorem test_witness_IntegerResults : (∃ s i k, Issues s i k ∧ (integerRow k i).isSome = true) ∧
    (∃ s i k, Issues s i k ∧ (unaryRow k i).isSome = true) ∧ ∃ s i k, Issues s i k ∧ (moveRow k i).isSome = true :=
  ⟨⟨at_ (.iadd (.v 4) (.v 2) (.s 5) true false false), .iadd (.v 4) (.v 2) (.s 5) true false false, meets (by decide)⟩,
    ⟨at_ (.ineg (.v 2) (.v 4) false true), .ineg (.v 2) (.v 4) false true, meets (by decide)⟩,
    ⟨at_ (.lea (.v 2) (.sp .targ) (.sp .lid) true 3), .lea (.v 2) (.sp .targ) (.sp .lid) true 3, meets (by decide)⟩⟩

theorem test_witness_LogicShiftAndImmediateResults : (∃ s i k, Issues s i k ∧ (logicRow k i).isSome = true) ∧
    (∃ s i k, Issues s i k ∧ (fieldRow k i).isSome = true) ∧ ∃ s i k, Issues s i k ∧ (immediateRow k i).isSome = true :=
  ⟨⟨at_ (.sra (.v 2) (.v 4) (.v 3) true), .sra (.v 2) (.v 4) (.v 3) true, meets (by decide)⟩,
    ⟨at_ (.bfi (.v 1) (.v 2) (.v 3)), .bfi (.v 1) (.v 2) (.v 3), meets (by decide)⟩,
    ⟨at_ (.movhi (.v 1) 0x12345), .movhi (.v 1) 0x12345, meets (by decide)⟩⟩

theorem test_witness_PredicateResults : (∃ s i k, Issues s i k ∧ (predRow k i).isSome = true) ∧
    ∃ s k, Issues s (.v2p (.v 1)) k ∧ k.act.getLsbD 31 = true :=
  ⟨⟨at_ (.icmp 1 (.v 3) (.s 6) .lt), .icmp 1 (.v 3) (.s 6) .lt, meets (by decide)⟩, at_ (.v2p (.v 1)), meets (by decide)⟩

theorem test_witness_FloatResults : (∃ s i k, Issues s i k ∧ (floatRow k i).isSome = true) ∧
    (∃ s i k, Issues s i k ∧ (classRow k i).isSome = true) ∧ ∃ s i k, Issues s i k ∧ (specialRow k i).isSome = true :=
  ⟨⟨at_ (.fadd (.v 8) (.v 9) (.v 10) .rz .f16x2), .fadd (.v 8) (.v 9) (.v 10) .rz .f16x2, meets (by decide)⟩,
    ⟨at_ (.fcls (.v 1) (.v 2) .f64), .fcls (.v 1) (.v 2) .f64, meets (by decide)⟩,
    ⟨at_ (.cacc (.v 4) (.v 8)), .cacc (.v 4) (.v 8), meets (by decide)⟩⟩

theorem test_witness_FloatResults_special : fp32 ∈ laneFormats ∧ (fp32.unpack 0x7F800001).isSnan = true ∧
    fp32.unpack 0xFF800000 = .inf true ∧ fp32.unpack 0x7F800000 = .inf false ∧ (fp32.unpack 0x80000000).isZero = true ∧
    Below (fp32.unpack 0x80000000) (fp32.unpack 0) ∧ Below (fp32.unpack 0xBF800000) (fp32.unpack 0x3F800000) :=
  ⟨by decide, by decide, by decide, by decide, by decide, Or.inr (by decide), Or.inl (by decide)⟩

theorem test_witness_ConversionKeepsElementOrder : ∃ s k, Issues s (.fcvt (.v 12) (.v 16) .e2m1x4hiF32x4 .rn false) k ∧ k.act ≠ 0 :=
  ⟨at_ (.fcvt (.v 12) (.v 16) .e2m1x4hiF32x4 .rn false), meets (by decide)⟩

theorem test_witness_FloatComparison : ∃ s k, Issues s (.fcmp 1 (.v 2) (.v 4) true .lt) k ∧ k.act ≠ 0 :=
  ⟨at_ (.fcmp 1 (.v 2) (.v 4) true .lt), meets (by decide)⟩

theorem test_witness_RoundingModesRoundAsNamed : ∃ (e q : Int) (sh : Nat), q - e = sh ∧ 0 < sh := ⟨-3, 2, 5, by decide, by decide⟩

/-- Set the weft of the small states. -/
def withWeft (s : State) (f : Weft → Weft) : State := s.modWeft 0 0 f

theorem test_witness_OperandForms : ∃ s k, Issues s .nop k ∧ k.w.vregs.get? (16 * k.w.vwin + 2 + 0) = some (.live [7]) ∧
    k.w.allocated (.s (16 * k.w.swin + 5 + 0)) = false ∧ k.sw.control = none ∧ (s.launches.get? k.sw.launch).isSome = true :=
  ⟨withWeft (at_ .nop) fun w => { w with vregs := [(2, .live [7])] }, meets (by decide)⟩

theorem test_witness_LaneExchangeAndVotes : (∃ s i k, Issues s i k ∧ (exchangeRow k i).isSome = true) ∧
    (∃ s i k, Issues s i k ∧ (voteRow k i).isSome = true) ∧ ∃ s k, Issues s (.lset (.v 2) (.s 2) (.sp .z) false) k ∧
      k.act.getLsbD ((k.scalar (.sp .z)).setWidth 5).toNat = true :=
  ⟨⟨at_ (.matchLanes (.v 6) (.v 4) false), .matchLanes (.v 6) (.v 4) false, meets (by decide)⟩,
    ⟨at_ (.voteUniform 3 (.v 4)), .voteUniform 3 (.v 4), meets (by decide)⟩,
    at_ (.lset (.v 2) (.s 2) (.sp .z) false), meets (by decide)⟩

/-- A branch to the last header of the code segment, and one past its end. -/
theorem test_witness_BranchesAndBadTargets : (∃ s k, Issues s (.bra .always 511) k ∧ k.e.hdr.toNat + 8 * 511 + 8 = s.codeSize k.sw.ctx) ∧
    (∃ s k, Issues s (.bra .always 512) k ∧ k.e.hdr.toNat + 8 * 512 = s.codeSize k.sw.ctx ∧ k.e.mask.getLsbD 0 = true) ∧
    ∃ s k, Issues s (.call 30 5) k ∧ k.act ≠ 0 :=
  ⟨⟨at_ (.bra .always 511), meets (by decide)⟩, ⟨at_ (.bra .always 512), meets (by decide)⟩, at_ (.call 30 5), meets (by decide)⟩

theorem test_witness_EndsOfWordsAndClauses : (∃ s k, Issues s .yield k ∧ k.fallTo.toNat % 8 = 0 ∧ k.fallTo.toNat < s.codeSize k.sw.ctx) ∧
    (∃ s k, Issues s (.exit .always) k ∧ exiting k .always = 0xFFFFFFFF ∧ k.fallTo.toNat % 8 = 0 ∧ k.fallTo.toNat < s.codeSize k.sw.ctx) ∧
    (∃ s k, Issues s (.exit (.pred 2)) k ∧ k.w.trapMode = true ∧ exiting k (.pred 2) = 1) ∧ (∃ s k, Issues s .nop k ∧ k.act ≠ 0) ∧
    (∃ s k, Issues s (.winb 9 12) k ∧ k.act ≠ 0) ∧ ∃ s k, Issues s (.ipref 8 2) k ∧ k.act ≠ 0 :=
  ⟨⟨at_ .yield, meets (by decide)⟩, ⟨at_ (.exit .always), meets (by decide)⟩,
    ⟨withWeft (inTrap (at_ (.exit (.pred 2)))) fun w => { w with preds := [(2, 1)] }, meets (by decide)⟩, ⟨at_ .nop, meets (by decide)⟩,
    ⟨at_ (.winb 9 12), meets (by decide)⟩, at_ (.ipref 8 2), meets (by decide)⟩

theorem test_witness_SoftwareTrapsAndSecondTraps : (∃ s k, Issues s (.trap 0xFF) k ∧ k.w.trapMode = false) ∧
    (∃ s k, Issues s (.trap 0xFE) k ∧ k.w.trapMode = false) ∧ ∃ s k, Issues s (.trap 0) k ∧ k.w.trapMode = true ∧ k.sw.control = none :=
  ⟨⟨at_ (.trap 0xFF), meets (by decide)⟩, ⟨at_ (.trap 0xFE), meets (by decide)⟩, inTrap (at_ (.trap 0)), meets (by decide)⟩

/-- A weft stands at a word and does not wait, with a property. -/
theorem stands {s : State} {p : Site → Prop} [DecidablePred p]
    (h : (s.site?.any fun k => k.w.wait.isNone && k.cl.tested && decide (p k)) = true) : ∃ k, Stands s k ∧ p k := by
  cases hs : s.site? with
  | none => rw [hs] at h; cases h
  | some k =>
    rw [hs] at h
    simp only [Option.any_some, Bool.and_eq_true, Option.isNone_iff_eq_none, decide_eq_true_eq] at h
    exact ⟨k, ⟨hs, h.1.1, Or.inl h.1.2⟩, h.2⟩

/-- A user context, and a clause whose slots are both invalid. -/
def asUser (s : State) : State := { s with ctxs := s.ctxs.modify 1 fun c => { c with sys := false } }
def noSlots (s : State) : State := withWeft s fun w => { w with clause := some ⟨0, 0, true⟩ }

theorem test_witness_TrapOrderOfOneWord :
    (∃ s k, Stands s k ∧ k.w.trapMode = false) ∧
    (∃ s k, Stands s k ∧ (Instr.dlset (.s 1) (.s 2)).hasEncoding = true ∧ (Instr.ld (.v 5) (.v 2) (.sp .z) false false .b32).use.slot = some false ∧
      slotFlag k.cl.h0 false = none) ∧
    (∃ s k, Stands s k ∧ (Instr.winb 10 0).wellFormed = false ∧ (Instr.winb 10 0).use.slot = none) ∧
    (∃ s k, Stands s k ∧ k.stateIllegal (.csrr (.s 4) 0x0FF) = true) ∧
    (∃ s k, Stands s k ∧ (Instr.halt (.s 1)).privileged = true ∧ k.sys = false ∧ k.stateIllegal (.halt (.s 1)) = false) ∧
    (∃ s k, Stands s k ∧ Instr.eret.trapOnly = true ∧ k.w.trapMode = false ∧ k.stateIllegal .eret = false) ∧
    (∃ s k, Stands s k ∧ rolePermits k.w.role (Instr.fadd (.v 1) (.v 2) (.v 3) .rn .f32).op = false ∧ k.sw.control = none) ∧
    (∃ s k, Stands s k ∧ k.w.ctlfrt = true ∧ (k.w.reads (Instr.mov (.v 1) (.v 2) false).use).find? (fun r => k.w.isFreed r) = some (.v 2)) ∧
    ∃ s k, Stands s k ∧ ((k.w.reads (Instr.mov (.v 1) (.v 2) false).use).findSome? fun r => k.w.poisoned r) = some ⟨64, 16, 1⟩ :=
  ⟨⟨at_ .nop, stands (by decide)⟩, ⟨noSlots (at_ .nop), stands (by decide)⟩, ⟨at_ .nop, stands (by decide)⟩, ⟨at_ .nop, stands (by decide)⟩,
    ⟨asUser (at_ .nop), stands (by decide)⟩, ⟨at_ .nop, stands (by decide)⟩,
    ⟨withWeft (at_ .nop) fun w => { w with role := .store }, stands (by decide)⟩,
    ⟨withWeft (at_ .nop) fun w => { w with ctlfrt := true, vregs := [(2, .freed)] }, stands (by decide)⟩,
    withWeft (at_ .nop) fun w => { w with vregs := [(2, .live [7])], vpoison := [(2, ⟨64, 16, 1⟩)] }, stands (by decide)⟩

theorem test_witness_HandlersReadEditAndReturn : (∃ s k, Issues s .eret k ∧ k.w.trec.tdone = 0 ∧ k.w.live = 0xFFFFFFFF) ∧
    (∃ s i k, Issues s i k ∧ (frentRow k i).isSome = true) ∧
    (∃ s k, Stands s k ∧ k.w.trapMode = true ∧ k.sw.control = none ∧
      (∀ r ∈ k.w.reads (Instr.frent (.s 8) (.s 4)).use, r ∉ k.w.pendingRegs) ∧ k.w.trec.snap.length = (k.scalar (.s 4)).toNat) ∧
    ∃ s k, Issues s (.frsetPark (.s 4)) k ∧ edited k (.s 4) = 0x80000001 :=
  ⟨⟨inTrap (at_ .eret), meets (by decide)⟩, ⟨inTrap (at_ (.frentLanes (.s 8))), .frentLanes (.s 8), meets (by decide)⟩,
    ⟨withWeft (inTrap (at_ (.frent (.s 8) (.s 4)))) fun w => { w with sregs := [(4, .live 1)] }, stands (by decide)⟩,
    withWeft (inTrap (at_ (.frsetPark (.s 4)))) fun w => { w with sregs := [(4, .live 0x80000001)] }, meets (by decide)⟩

theorem test_witness_CsrrReadsTheRegister : (∃ s k, Issues s (.csrr (.s 4) 0x028) k ∧ (weftRegister k 0x028).isSome = true) ∧
    ∃ s k, Issues s (.csrr (.s 4) 0x210) k ∧ k.sys = true :=
  ⟨⟨at_ (.csrr (.s 4) 0x028), meets (by decide)⟩, at_ (.csrr (.s 4) 0x210), meets (by decide)⟩

theorem test_witness_CsrwAndAccessByRange :
    (∃ s k, Issues s (.csrw (.s 2) 0x028) k ∧ k.scalar (.s 2) = 63 ∧ weftAccepts 0x028 63 = some true) ∧
    (∃ s k, Issues s (.csrw (.s 2) 0x028) k ∧ k.scalar (.s 2) = 64 ∧ weftAccepts 0x028 64 = some false) ∧
    (∃ s k, Issues s (.csrw (.s 2) 0x211) k ∧ k.scalar (.s 2) = 2450 ∧ unitAccepts 0x211 2450 = some true) ∧
    (∃ s k, Issues s (.csrw (.s 2) 0x211) k ∧ k.scalar (.s 2) = 275 ∧ unitAccepts 0x211 275 = some false) ∧
    (∃ s k, Stands s k ∧ csrKnown 0x0FF = false ∧ k.sw.control = none) ∧
    (∃ s k, Stands s k ∧ csrKnown 0x310 = true ∧ csrReadOnly k.w.trapMode 0x310 = true) ∧
    ∃ s k, Stands s k ∧ csrKnown 0x311 = true ∧ k.sys = false ∧ csrReadOnly k.w.trapMode 0x311 = false :=
  ⟨⟨withWeft (at_ (.csrw (.s 2) 0x028)) fun w => { w with sregs := [(2, .live 63)] }, meets (by decide)⟩,
    ⟨withWeft (at_ (.csrw (.s 2) 0x028)) fun w => { w with sregs := [(2, .live 64)] }, meets (by decide)⟩,
    ⟨withWeft (at_ (.csrw (.s 2) 0x211)) fun w => { w with sregs := [(2, .live 2450)] }, meets (by decide)⟩,
    ⟨withWeft (at_ (.csrw (.s 2) 0x211)) fun w => { w with sregs := [(2, .live 275)] }, meets (by decide)⟩,
    ⟨at_ .nop, stands (by decide)⟩, ⟨at_ .nop, stands (by decide)⟩, asUser (at_ .nop), stands (by decide)⟩

/-! ### Global memory: a state whose pages are mapped -/

/-- Tables at 0x10000: the page of address 0 is at 0x100000 (read and write), the next at 0x200000 (read and write, versioned),
the third at 0x300000 (read only); no other address is mapped. -/
def paged (s : State) : State :=
  let put := fun (m : Memory) (x : Nat × Nat) => memPutBytes m x.1 (natBytes 8 x.2)
  { s with
    mem := [(0x10000, 0x20001), (0x20000, 0x30001), (0x30000, 0x40001), (0x40000, 0x100033), (0x40008, 0x200233),
      (0x40010, 0x300013)].foldl put s.mem
    ctxs := s.ctxs.modify 1 fun c => { c with root := 0x10000 }
    dies := [(0, { s.die 0 with links := [(0, 16)] })] }

/-- A register of the weft holds one value in every lane. -/
def withV (s : State) (n : Nat) (x : Word) : State := withWeft s fun w => { w with vregs := w.vregs.put n (.live (List.replicate 32 x)) }
def withS (s : State) (n : Nat) (x : Word) : State := withWeft s fun w => { w with sregs := w.sregs.put n (.live x) }

/-- The translation of an address whose page admits the access and that no TLB holds. -/
def mapsTo (s : State) (k : Site) (acc : Acc) (va : DWord) : Option Trans :=
  match s.walkPa k.sw.ctx va.toNat with
  | .ok x => if pageAdmits acc x.leaf && (s.cluster k.clu).tlb.isEmpty && k.core.all (fun c => (s.core c).tlb.isEmpty) then some x else none
  | .error _ => none

theorem mapsTo_mapped {s : State} {k : Site} {acc : Acc} {va : DWord} {x : Trans} (h : mapsTo s k acc va = some x) :
    Mapped s k acc va x := by
  unfold mapsTo at h
  split at h
  · rename_i y hy
    split at h
    · rename_i hc
      cases h
      simp only [Bool.and_eq_true, List.isEmpty_iff] at hc
      obtain ⟨⟨ha, ht⟩, hk⟩ := hc
      refine ⟨hy, ha, ?_⟩
      rintro e (he | ⟨c, hkc, he⟩)
      · rw [ht] at he; cases he
      · rw [hkc, Option.all_some, List.isEmpty_iff] at hk
        rw [hk] at he; cases he
    · cases h
  · cases h

/-- Some lane is active, and every lane's address is whole and mapped to `tr`. -/
def lanesAt (s : State) (k : Site) (acc : Acc) (n : Nat) (ls : List (Nat × DWord)) (tr : Trans) : Bool :=
  !ls.isEmpty && ls.all fun y => (broken n y.2).isNone && decide (mapsTo s k acc y.2 = some tr)

theorem lanesAt_mapped {s : State} {k : Site} {acc : Acc} {n : Nat} {ls : List (Nat × DWord)} {tr : Trans}
    (h : lanesAt s k acc n ls tr = true) : ls ≠ [] ∧ ∀ y ∈ ls, broken n y.2 = none ∧ Mapped s k acc y.2 tr := by
  simp only [lanesAt, Bool.and_eq_true, Bool.not_eq_true', List.isEmpty_eq_false_iff, List.all_eq_true, Option.isNone_iff_eq_none,
    decide_eq_true_eq] at h
  exact ⟨h.1, fun y hy => ⟨(h.2 y hy).1, mapsTo_mapped (h.2 y hy).2⟩⟩

/-- All lanes' addresses lie in one page of `tr`'s size. -/
theorem onePage_of {ls : List (Nat × DWord)} {tr : Trans}
    (h : ls.all (fun y => ls.all fun z => decide (y.2.toNat / 2 ^ tr.shift = z.2.toNat / 2 ^ tr.shift)) = true) :
    OnePage ls fun _ => tr := fun l hl m hm => by
  have := List.all_eq_true.mp h l hl
  exact ⟨rfl, rfl, of_decide_eq_true (List.all_eq_true.mp this m hm)⟩

/-- Nothing is buffered or under way, and the places are good. -/
def settledAt (s : State) (k : Site) (ps : List Nat) : Bool :=
  k.core.all (fun c => (s.core c).wbuf.isEmpty && (s.die (dieOfCore c)).out.isEmpty) &&
    ps.all fun p => !s.bad.contains (sectorOf p) && s.present p && pkgOf p == s.pkg.fpkg && !(s.die (dieOf p)).mig.track

theorem settledAt_settled {s : State} {k : Site} {ps : List Nat} (h : settledAt s k ps = true) : Settled s k ps := by
  simp only [settledAt, Bool.and_eq_true, List.all_eq_true, Bool.not_eq_true', beq_iff_eq] at h
  refine ⟨fun c hc => ?_, fun p hp => ?_⟩
  · have := h.1
    rw [hc, Option.all_some, Bool.and_eq_true, List.isEmpty_iff, List.isEmpty_iff] at this
    exact ⟨fun p _ => by rw [this.1]; rfl, this.2⟩
  · obtain ⟨⟨⟨h1, h2⟩, h3⟩, h4⟩ := h.2 p hp
    exact ⟨h1, h2, h3, h4⟩

theorem meets_of {s : State} {i : Instr} {p q : Site → Prop} [DecidablePred p]
    (h : (issuesNow s i && s.site?.any fun k => decide (p k)) = true) (hq : ∀ k, p k → q k) : ∃ k, Issues s i k ∧ q k :=
  have ⟨k, hI, hp⟩ := meets h
  ⟨k, hI, hq k hp⟩

def page0 : Trans := ⟨0x100033, 16, 0x100000⟩

/-- LDQ and LDACQ over mapped lanes. -/
theorem test_witness_LoadsCarryTheBytesTheirCoreSees : ∃ s i k x, Issues s i k ∧ loadRow k i = some x ∧
    ∀ y ∈ k.accessLanes x.scalar x.addr, broken x.n y.2 = none ∧ Mapped s k .load y.2 page0 :=
  have ⟨k, hI, hx⟩ := meets (s := paged (at_ (.ldq (.v 8) (.v 2) (.sp .z) false))) (i := .ldq (.v 8) (.v 2) (.sp .z) false)
    (p := fun k => ((loadRow k (.ldq (.v 8) (.v 2) (.sp .z) false)).any fun x =>
      lanesAt (paged (at_ (.ldq (.v 8) (.v 2) (.sp .z) false))) k .load x.n (k.accessLanes x.scalar x.addr) page0) = true) (by decide)
  match hr : loadRow k (.ldq (.v 8) (.v 2) (.sp .z) false), hx with
  | some x, hx => ⟨_, _, k, x, hI, hr, (lanesAt_mapped hx).2⟩

theorem test_witness_CoreSeesItsBufferThenTheHome : ∃ (s : State) (c sec o : Nat) (b : Byte) (e : WbEntry), sec % 32 = 0 ∧
    (s.core c).wbuf.find? (fun e => e.sector == sec) = some e ∧ Tab.sorted e.bytes = true ∧ (memBytes s.mem sec 32).length = 32 ∧
    e.bytes.get? o = some b ∧ o = 31 ∧ (s.die 0).out = [] :=
  ⟨{ paged State.reset with cores := [(5, { Core.reset with wbuf := [⟨0x100020, [(3, 7), (31, 9)]⟩] })] }, 5, 0x100020, 31, 9,
    ⟨0x100020, [(3, 7), (31, 9)]⟩, by decide⟩

/-- A store through the buffer, and a release beyond the swatch that goes to the home. -/
theorem test_witness_StoresWriteExactlyTheirBytes :
    (∃ s i k x, Issues s i k ∧ storeRow k i = some x ∧ x.wide = false ∧
      (∀ y ∈ k.accessLanes x.scalar x.addr, broken x.n y.2 = none ∧ Mapped (s.release k.core x.wide) k .store y.2 page0 ∧
        (s.release k.core x.wide).bad.contains (sectorOf page0.pa) = false) ∧
      OnePage (k.accessLanes x.scalar x.addr) (fun _ => page0) ∧ ∃ c, k.core = some c ∧ (s.core c).wbuf.length + 32 ≤ 64) ∧
    ∃ s i k x, Issues s i k ∧ storeRow k i = some x ∧ x.wide = true ∧
      (∀ y ∈ k.accessLanes x.scalar x.addr, broken x.n y.2 = none ∧ Mapped (s.release k.core x.wide) k .store y.2 page0 ∧
        (s.release k.core x.wide).bad.contains (sectorOf page0.pa) = false) ∧
      OnePage (k.accessLanes x.scalar x.addr) (fun _ => page0) ∧
      Settled s k ((k.accessLanes x.scalar x.addr).map fun _ => page0.pa) ∧ s.mem.wf = true := by
  constructor
  · have ⟨k, hI, hx⟩ := meets (s := paged (at_ (.stq (.v 8) (.v 2) (.sp .z) true))) (i := .stq (.v 8) (.v 2) (.sp .z) true)
      (p := fun k => ((storeRow k (.stq (.v 8) (.v 2) (.sp .z) true)).any fun x =>
        let s := (paged (at_ (.stq (.v 8) (.v 2) (.sp .z) true)))
        let ls := k.accessLanes x.scalar x.addr
        !x.wide && (lanesAt (s.release k.core x.wide) k .store x.n ls page0 && (!(s.release k.core x.wide).bad.contains (sectorOf page0.pa) &&
          ((ls.all fun y => ls.all fun z => decide (y.2.toNat / 2 ^ page0.shift = z.2.toNat / 2 ^ page0.shift)) &&
            k.core.any fun c => decide ((s.core c).wbuf.length + 32 ≤ 64))))) = true) (by decide)
    cases hr : storeRow k (.stq (.v 8) (.v 2) (.sp .z) true) with
    | none => rw [hr] at hx; cases hx
    | some x =>
      simp only [hr, Option.any_some, Bool.and_eq_true, Bool.not_eq_true'] at hx
      obtain ⟨hw, hl, hb, ho, hc⟩ := hx
      refine ⟨_, _, k, x, hI, hr, hw, fun y hy => ⟨((lanesAt_mapped hl).2 y hy).1, ((lanesAt_mapped hl).2 y hy).2, hb⟩, onePage_of ho, ?_⟩
      cases hk : k.core with
      | none => rw [hk] at hc; cases hc
      | some c => rw [hk] at hc; exact ⟨c, rfl, of_decide_eq_true hc⟩
  · have ⟨k, hI, hx⟩ := meets (s := paged (at_ (.strel (.v 4) (.v 2) .pk false .b64))) (i := .strel (.v 4) (.v 2) .pk false .b64)
      (p := fun k => ((storeRow k (.strel (.v 4) (.v 2) .pk false .b64)).any fun x =>
        let s := (paged (at_ (.strel (.v 4) (.v 2) .pk false .b64)))
        let ls := k.accessLanes x.scalar x.addr
        x.wide && (lanesAt (s.release k.core x.wide) k .store x.n ls page0 && (!(s.release k.core x.wide).bad.contains (sectorOf page0.pa) &&
          ((ls.all fun y => ls.all fun z => decide (y.2.toNat / 2 ^ page0.shift = z.2.toNat / 2 ^ page0.shift)) &&
            (settledAt s k (ls.map fun _ => page0.pa) && s.mem.wf))))) = true) (by decide)
    cases hr : storeRow k (.strel (.v 4) (.v 2) .pk false .b64) with
    | none => rw [hr] at hx; cases hx
    | some x =>
      simp only [hr, Option.any_some, Bool.and_eq_true, Bool.not_eq_true'] at hx
      obtain ⟨hw, hl, hb, ho, hs, hm⟩ := hx
      exact ⟨_, _, k, x, hI, hr, hw, fun y hy => ⟨((lanesAt_mapped hl).2 y hy).1, ((lanesAt_mapped hl).2 y hy).2, hb⟩, onePage_of ho,
        settledAt_settled hs, hm⟩

def addAll : Instr := .atom (.v 4) (.v 2) .add .ba false .ar false
def addAny : Instr := .red (.v 9) (.v 2) .fadd .wf false false true false

theorem test_witness_AtomicsAndCombining :
    (∃ s k x, Issues s addAll k ∧ atomRow k addAll = some x ∧
      (∀ y ∈ k.accessLanes x.scalar x.addr, broken x.n y.2 = none ∧ Mapped (s.release k.core x.rel) k .atomic y.2 page0) ∧
      OnePage (k.accessLanes x.scalar x.addr) (fun _ => page0) ∧
      Settled (s.release k.core x.rel) k ((k.accessLanes x.scalar x.addr).map fun _ => page0.pa) ∧ (s.release k.core x.rel).mem.wf = true) ∧
    ∃ s k, Issues s addAny k ∧
      let ls := k.accessLanes (k.allScalar [.v 9, .v 2]) (k.addr (.v 2))
      (∀ y ∈ ls, broken 4 y.2 = none ∧ Mapped s k .atomic y.2 page0) ∧ OnePage ls (fun _ => page0) ∧
      Settled s k (ls.map fun _ => page0.pa) ∧ s.mem.wf = true := by
  constructor
  · have ⟨k, hI, hx⟩ := meets (s := paged (at_ addAll)) (i := addAll)
      (p := fun k => ((atomRow k addAll).any fun x =>
        let s := (paged (at_ addAll)).release k.core x.rel
        let ls := k.accessLanes x.scalar x.addr
        lanesAt s k .atomic x.n ls page0 &&
          ((ls.all fun y => ls.all fun z => decide (y.2.toNat / 2 ^ page0.shift = z.2.toNat / 2 ^ page0.shift)) &&
            (settledAt s k (ls.map fun _ => page0.pa) && s.mem.wf))) = true) (by decide)
    cases hr : atomRow k addAll with
    | none => rw [hr] at hx; cases hx
    | some x =>
      simp only [hr, Option.any_some, Bool.and_eq_true] at hx
      obtain ⟨hl, ho, hs, hm⟩ := hx
      exact ⟨_, k, x, hI, hr, (lanesAt_mapped hl).2, onePage_of ho, settledAt_settled hs, hm⟩
  · have ⟨k, hI, hx⟩ := meets (s := paged (at_ addAny)) (i := addAny)
      (p := fun k =>
        let s := paged (at_ addAny)
        let ls := k.accessLanes (k.allScalar [.v 9, .v 2]) (k.addr (.v 2))
        (lanesAt s k .atomic 4 ls page0 &&
          ((ls.all fun y => ls.all fun z => decide (y.2.toNat / 2 ^ page0.shift = z.2.toNat / 2 ^ page0.shift)) &&
            (settledAt s k (ls.map fun _ => page0.pa) && s.mem.wf))) = true) (by decide)
    simp only [Bool.and_eq_true] at hx
    obtain ⟨hl, ho, hs, hm⟩ := hx
    exact ⟨_, k, hI, (lanesAt_mapped hl).2, onePage_of ho, settledAt_settled hs, hm⟩

/-- What the tables give for an address, as data. -/
def walkIs (s : State) (ctx : Word) (va : Nat) (r : Nat ⊕ Trans) : Bool :=
  match s.walkPa ctx va, r with
  | .error e, .inl x => e == x
  | .ok y, .inr x => y == x
  | _, _ => false

theorem walkIs_error {s : State} {ctx : Word} {va e : Nat} (h : walkIs s ctx va (.inl e) = true) : s.walkPa ctx va = .error e := by
  unfold walkIs at h
  split at h
  · rename_i hw hr; cases hr; rw [hw, eq_of_beq h]
  · rename_i hr; cases hr
  · cases h

theorem walkIs_ok {s : State} {ctx : Word} {va : Nat} {x : Trans} (h : walkIs s ctx va (.inr x) = true) : s.walkPa ctx va = .ok x := by
  unfold walkIs at h
  split at h
  · rename_i hr; cases hr
  · rename_i hw hr; cases hr; rw [hw, eq_of_beq h]
  · cases h

/-- A misaligned address in the lowest lane, an address beyond the tables, and a read-only page for a store. -/
theorem test_witness_AddressFaultsPrecedeEveryAccess :
    (∃ s k, Issues s (.ld (.v 5) (.v 2) (.sp .z) false false .b32) k ∧
      (k.accessLanes false (fun l => k.addr (.v 2) l + (k.val (.sp .z) l).signExtend 64)).find? (fun y => (broken 4 y.2).isSome) =
        some (0, 2) ∧ broken 4 2 = some 0x0A) ∧
    (∃ s k, Issues s (.ld (.v 5) (.v 2) (.sp .z) false false .b32) k ∧ s.walkPa k.sw.ctx 0x200000 = .error 0x08 ∧
      k.addr (.v 2) 0 = 0x200000 ∧ (s.cluster k.clu).tlb = [] ∧ (k.core.all fun c => (s.core c).tlb.isEmpty) = true ∧
      k.w.trapMode = false) ∧
    ∃ s k, Issues s (.st (.v 10) (.v 2) (.v 9) false .b32) k ∧ s.walkPa k.sw.ctx 0x20000 = .ok ⟨0x300013, 16, 0x300000⟩ ∧
      k.addr (.v 2) 0 = 0x20000 ∧ pageAdmits .store 0x300013 = false ∧ k.w.trapMode = false :=
  ⟨⟨withV (withV (paged (at_ (.ld (.v 5) (.v 2) (.sp .z) false false .b32))) 2 2) 3 0, meets (by decide)⟩,
    ⟨withV (withV (paged (at_ (.ld (.v 5) (.v 2) (.sp .z) false false .b32))) 2 0x200000) 3 0,
      have ⟨k, hI, hw, h⟩ := meets (s := withV (withV (paged (at_ (.ld (.v 5) (.v 2) (.sp .z) false false .b32))) 2 0x200000) 3 0)
        (i := .ld (.v 5) (.v 2) (.sp .z) false false .b32) (p := fun k =>
          walkIs (withV (withV (paged (at_ (.ld (.v 5) (.v 2) (.sp .z) false false .b32))) 2 0x200000) 3 0) k.sw.ctx 0x200000 (.inl 0x08) = true ∧
          k.addr (.v 2) 0 = 0x200000 ∧
          ((withV (withV (paged (at_ (.ld (.v 5) (.v 2) (.sp .z) false false .b32))) 2 0x200000) 3 0).cluster k.clu).tlb = [] ∧
          (k.core.all fun c => ((withV (withV (paged (at_ (.ld (.v 5) (.v 2) (.sp .z) false false .b32))) 2 0x200000) 3 0).core c).tlb.isEmpty)
            = true ∧ k.w.trapMode = false) (by decide)
      ⟨k, hI, walkIs_error hw, h⟩⟩,
    withV (withV (paged (at_ (.st (.v 10) (.v 2) (.v 9) false .b32))) 2 0x20000) 3 0,
      have ⟨k, hI, hw, h⟩ := meets (s := withV (withV (paged (at_ (.st (.v 10) (.v 2) (.v 9) false .b32))) 2 0x20000) 3 0)
        (i := .st (.v 10) (.v 2) (.v 9) false .b32) (p := fun k =>
          walkIs (withV (withV (paged (at_ (.st (.v 10) (.v 2) (.v 9) false .b32))) 2 0x20000) 3 0) k.sw.ctx 0x20000
            (.inr ⟨0x300013, 16, 0x300000⟩) = true ∧
          k.addr (.v 2) 0 = 0x20000 ∧ pageAdmits .store 0x300013 = false ∧ k.w.trapMode = false) (by decide)
      ⟨k, hI, walkIs_ok hw, h⟩⟩

theorem test_witness_FencesPrefetchAndCacheControl : (∃ s k, Issues s (.fence .pk false .rel) k ∧ wide .pk = true ∧ k.core.isSome = true) ∧
    (∃ s k, Issues s (.pref (.v 2) (.sp .z) false) k ∧ k.act ≠ 0) ∧ (∃ s k, Issues s (.cctlInv (.v 2) false) k ∧ k.act ≠ 0) ∧
    ∃ s k, Issues s (.cctlIinv false) k ∧ ∃ x ∈ (s.cluster k.clu).icache, x.ctx = k.sw.ctx :=
  ⟨⟨at_ (.fence .pk false .rel), meets (by decide)⟩, ⟨at_ (.pref (.v 2) (.sp .z) false), meets (by decide)⟩,
    ⟨at_ (.cctlInv (.v 2) false), meets (by decide)⟩, at_ (.cctlIinv false), meets (by decide)⟩

/-- Eight watched sectors, the last of them fired: with one more the set overflows. -/
def withWatch (s : State) : State := withWeft s fun w => { w with watch := (List.range 8).map fun j => ⟨32 * j, j == 7, false⟩ }

theorem test_witness_WatchesAndWaitw :
    (∃ s k, Issues s (.watch (.v 2) false) k ∧ k.w.watch = [] ∧ ∀ y ∈ k.accessLanes (k.allScalar [.v 2]) (k.addr (.v 2)),
      broken 1 y.2 = none ∧ Mapped s k .load y.2 page0) ∧
    (∃ s k, Issues s (.watch (.v 2) false) k ∧ (k.w.watch.length = 8 ∧ k.w.watch.all (fun e => e.sector != sectorOf page0.pa) = true ∧
      k.w.trapMode = false) ∧ ∀ y ∈ k.accessLanes (k.allScalar [.v 2]) (k.addr (.v 2)), broken 1 y.2 = none ∧ Mapped s k .load y.2 page0) ∧
    (∃ s k, Issues s (.watchClr false) k ∧ k.w.watch.length = 8) ∧ (∃ s k, Issues s (.waitw (.s 5) false true) k ∧ k.w.watch = []) ∧
    (∃ s k, Issues s (.waitw (.s 5) false true) k ∧ k.w.watch.any (fun e => e.fired) = true) ∧
    ∃ s k, Issues s (.waitw (.s 5) false false) k ∧ k.w.watch ≠ [] ∧ k.w.watch.any (fun e => e.fired) = false := by
  refine ⟨?_, ?_, ⟨withWatch (at_ (.watchClr false)), meets (by decide)⟩, ⟨at_ (.waitw (.s 5) false true), meets (by decide)⟩,
    ⟨withWatch (at_ (.waitw (.s 5) false true)), meets (by decide)⟩,
    withWeft (at_ (.waitw (.s 5) false false)) fun w => { w with watch := [⟨32, false, false⟩] }, meets (by decide)⟩
  · have ⟨k, hI, hw, hl⟩ := meets (s := paged (at_ (.watch (.v 2) false))) (i := .watch (.v 2) false) (p := fun k => k.w.watch = [] ∧
      lanesAt (paged (at_ (.watch (.v 2) false))) k .load 1 (k.accessLanes (k.allScalar [.v 2]) (k.addr (.v 2))) page0 = true) (by decide)
    exact ⟨_, k, hI, hw, (lanesAt_mapped hl).2⟩
  · have ⟨k, hI, hw, hl⟩ := meets (s := withWatch (paged (at_ (.watch (.v 2) false)))) (i := .watch (.v 2) false)
      (p := fun k => (k.w.watch.length = 8 ∧ k.w.watch.all (fun e => e.sector != sectorOf page0.pa) = true ∧ k.w.trapMode = false) ∧
        lanesAt (withWatch (paged (at_ (.watch (.v 2) false)))) k .load 1 (k.accessLanes (k.allScalar [.v 2]) (k.addr (.v 2))) page0 = true)
      (by decide)
    exact ⟨_, k, hI, hw, (lanesAt_mapped hl).2⟩

/-! ### Versioned memory -/

def page1 : Trans := ⟨0x200233, 16, 0x200000⟩

/-- A region of partition 0 over the second page: floor 1, versions 0 and 1 of its first sector. -/
def region (depth : Nat) (sharers : List Nat) : Region :=
  { part := 0, rid := 1, die := 0, vbase := 0x10000, size := 0x10000, depth := depth, floor := 1, dir := 0x500000, pool := 0x600000
    pslots := 1, img := false, sectors := [(0x10000, ⟨[⟨0, List.replicate 32 0, false⟩, ⟨1, List.replicate 32 7, false⟩], []⟩)]
    sharers := sharers, broadcast := false, floorCopy := [], pendFloors := [] }

/-- v2 and s2 hold the first address of the region, and v6 and s6 a version. -/
def versioned (i : Instr) (depth : Nat) (sharers : List Nat) (ver : Word) : State :=
  let s := withV (withV (withV (paged (at_ i)) 2 0x10000) 3 0) 6 ver
  { withS (withS (withS s 2 0x10000) 3 0) 6 ver with regions := [(1, region depth sharers)] }

/-- Some lane is active, and every lane's address is in the region. -/
def lanesIn (s : State) (k : Site) (acc : Acc) (n : Nat) (ls : List (Nat × DWord)) (r : Region) : Bool :=
  lanesAt s k acc n ls page1 && ls.all fun y => decide (s.regionAt (s.partOfCtx k.sw.ctx) (y.2.toNat % 2 ^ 57) = some (1, r)) &&
    decide (s.regions.get? 1 = some r)

theorem lanesIn_inRegion {s : State} {k : Site} {acc : Acc} {n : Nat} {ls : List (Nat × DWord)} {r : Region}
    (h : lanesIn s k acc n ls r = true) : ls ≠ [] ∧ ∀ y ∈ ls, InRegion s k acc n y.2 page1 1 r := by
  simp only [lanesIn, Bool.and_eq_true, List.all_eq_true, decide_eq_true_eq] at h
  have hm := lanesAt_mapped h.1
  exact ⟨hm.1, fun y hy => ⟨(hm.2 y hy).1, (hm.2 y hy).2, (h.2 y hy).1, (h.2 y hy).2⟩⟩

def vldAt (le : Bool) : Instr := .vld (.v 4) (.v 2) (.v 6) false false le false
def vldLanes (k : Site) : List (Nat × DWord) := k.accessLanes (k.allScalar [.v 4, .v 2, .v 6]) (k.addr (.v 2))

/-- A version that exists, an older one under .le, a version still to come, and one below the floor. -/
theorem test_witness_VersionedLoads :
    (∀ p ∈ [(false, (1 : Word)), (true, 5)], ∃ s k, Issues s (vldAt p.1) k ∧ (vldLanes k ≠ [] ∧
      ∀ y ∈ vldLanes k, InRegion s k .vload 4 y.2 page1 1 (region 3 [])) ∧ ∀ y ∈ vldLanes k,
        returned (region 3 []) (versionsAt s (region 3 []) y.2 page1) p.1 (k.val (.v 6) y.1).toNat = some ⟨1, List.replicate 32 7, false⟩) ∧
    (∃ s k, Issues s (vldAt false) k ∧ (vldLanes k ≠ [] ∧ ∀ y ∈ vldLanes k, InRegion s k .vload 4 y.2 page1 1 (region 3 [])) ∧
      (∀ y ∈ vldLanes k, (region 3 []).floor ≤ (k.val (.v 6) y.1).toNat) ∧
      ∀ y ∈ vldLanes k, ∀ v ∈ (versionsAt s (region 3 []) y.2 page1).vers, v.n ≠ (k.val (.v 6) y.1).toNat) ∧
    ∃ s k, Issues s (vldAt false) k ∧ (vldLanes k ≠ [] ∧ ∀ y ∈ vldLanes k, InRegion s k .vload 4 y.2 page1 1 (region 3 [])) ∧
      (∀ y ∈ vldLanes k, (k.val (.v 6) y.1).toNat < (region 3 []).floor) ∧ k.w.trapMode = false := by
  refine ⟨fun p hp => ?_, ?_, ?_⟩
  · simp only [List.mem_cons, List.not_mem_nil, or_false] at hp
    rcases hp with rfl | rfl
    · have ⟨k, hI, hl, hr⟩ := meets (s := versioned (vldAt false) 3 [] 1) (i := vldAt false) (p := fun k =>
        lanesIn (versioned (vldAt false) 3 [] 1) k .vload 4 (vldLanes k) (region 3 []) = true ∧ ∀ y ∈ vldLanes k,
          returned (region 3 []) (versionsAt (versioned (vldAt false) 3 [] 1) (region 3 []) y.2 page1) false (k.val (.v 6) y.1).toNat =
            some ⟨1, List.replicate 32 7, false⟩) (by decide)
      exact ⟨_, k, hI, lanesIn_inRegion hl, hr⟩
    · have ⟨k, hI, hl, hr⟩ := meets (s := versioned (vldAt true) 3 [] 5) (i := vldAt true) (p := fun k =>
        lanesIn (versioned (vldAt true) 3 [] 5) k .vload 4 (vldLanes k) (region 3 []) = true ∧ ∀ y ∈ vldLanes k,
          returned (region 3 []) (versionsAt (versioned (vldAt true) 3 [] 5) (region 3 []) y.2 page1) true (k.val (.v 6) y.1).toNat =
            some ⟨1, List.replicate 32 7, false⟩) (by decide)
      exact ⟨_, k, hI, lanesIn_inRegion hl, hr⟩
  · have ⟨k, hI, hl, hr⟩ := meets (s := versioned (vldAt false) 3 [] 2) (i := vldAt false) (p := fun k =>
      lanesIn (versioned (vldAt false) 3 [] 2) k .vload 4 (vldLanes k) (region 3 []) = true ∧
      (∀ y ∈ vldLanes k, (region 3 []).floor ≤ (k.val (.v 6) y.1).toNat) ∧ ∀ y ∈ vldLanes k,
        ∀ v ∈ (versionsAt (versioned (vldAt false) 3 [] 2) (region 3 []) y.2 page1).vers, v.n ≠ (k.val (.v 6) y.1).toNat) (by decide)
    exact ⟨_, k, hI, lanesIn_inRegion hl, hr⟩
  · have ⟨k, hI, hl, hr⟩ := meets (s := versioned (vldAt false) 3 [] 0) (i := vldAt false) (p := fun k =>
      lanesIn (versioned (vldAt false) 3 [] 0) k .vload 4 (vldLanes k) (region 3 []) = true ∧
      (∀ y ∈ vldLanes k, (k.val (.v 6) y.1).toNat < (region 3 []).floor) ∧ k.w.trapMode = false) (by decide)
    exact ⟨_, k, hI, lanesIn_inRegion hl, hr⟩

def vstAt : Instr := .vst (.v 4) (.v 2) (.v 6) false true false
def vstLanes (k : Site) : List (Nat × DWord) := k.accessLanes (k.allScalar [.v 4, .v 2, .v 6]) (k.addr (.v 2))

/-- One group of lanes stores one version of one sector. -/
def oneGroup (k : Site) (ver : Nat) : Prop := ∀ y ∈ vstLanes k, (k.val (.v 6) y.1).toNat = ver ∧ sectorOf (y.2.toNat % 2 ^ 57) = 0x10000 ∧
  page1.pa = page1.pa / 32 * 32 + y.2.toNat % 32

/-- A version with room, an existing one, the last number, and a full sector. -/
theorem test_witness_VersionedStores : ∀ p ∈ [(3, 2), (3, 1), (3, 2 ^ 32 - 1), (2, 2)], ∃ s k, Issues s vstAt k ∧
    (vstLanes k ≠ [] ∧ ∀ y ∈ vstLanes k, InRegion s k .vstore 4 y.2 page1 1 (region p.1 [])) ∧ oneGroup k p.2 ∧
    k.core.all (fun c => (s.core c).wbuf.isEmpty && (s.die (dieOfCore c)).out.isEmpty) = true ∧ (s.die 0).mig.track = false ∧
    k.w.trapMode = false := by
  have run : ∀ depth ver, (issuesNow (versioned vstAt depth [] (BitVec.ofNat 32 ver)) vstAt &&
      (versioned vstAt depth [] (BitVec.ofNat 32 ver)).site?.any fun k => decide (
        lanesIn (versioned vstAt depth [] (BitVec.ofNat 32 ver)) k .vstore 4 (vstLanes k) (region depth []) = true ∧
        (∀ y ∈ vstLanes k, (k.val (.v 6) y.1).toNat = ver ∧ sectorOf (y.2.toNat % 2 ^ 57) = 0x10000 ∧
          page1.pa = page1.pa / 32 * 32 + y.2.toNat % 32) ∧
        k.core.all (fun c => ((versioned vstAt depth [] (BitVec.ofNat 32 ver)).core c).wbuf.isEmpty &&
          ((versioned vstAt depth [] (BitVec.ofNat 32 ver)).die (dieOfCore c)).out.isEmpty) = true ∧
        ((versioned vstAt depth [] (BitVec.ofNat 32 ver)).die 0).mig.track = false ∧ k.w.trapMode = false)) = true →
      ∃ s k, Issues s vstAt k ∧ (vstLanes k ≠ [] ∧ ∀ y ∈ vstLanes k, InRegion s k .vstore 4 y.2 page1 1 (region depth [])) ∧
        oneGroup k ver ∧ k.core.all (fun c => (s.core c).wbuf.isEmpty && (s.die (dieOfCore c)).out.isEmpty) = true ∧
        (s.die 0).mig.track = false ∧ k.w.trapMode = false := fun depth ver h =>
    have ⟨k, hI, hl, hr⟩ := meets h
    ⟨_, k, hI, lanesIn_inRegion hl, hr⟩
  intro p hp
  simp only [List.mem_cons, List.not_mem_nil, or_false] at hp
  rcases hp with rfl | rfl | rfl | rfl
  · exact run 3 2 (by decide)
  · exact run 3 1 (by decide)
  · exact run 3 (2 ^ 32 - 1) (by decide)
  · exact run 2 2 (by decide)

def floorAt : Instr := .vfloor (.s 2) (.s 6) false
def queryAt : Instr := .vqry (.v 8) (.v 2) false

/-- A floor that does not rise, one that rises with no sharer but the home, and one with sharers; a query. -/
theorem test_witness_FloorsAndQueries : (∀ p ∈ [((1 : Word), ([] : List Nat)), (2, [0]), (2, [0, 3])], ∃ s k va, Issues s floorAt k ∧
      k.accessLanes true (k.addr (.s 2)) = [va] ∧ InRegion s k .vstore 1 va.2 page1 1 (region 3 p.2) ∧ k.scalar (.s 6) = p.1) ∧
    ∃ s k, Issues s queryAt k ∧ (k.accessLanes (k.allScalar [.v 8, .v 2]) (k.addr (.v 2)) ≠ [] ∧
      ∀ y ∈ k.accessLanes (k.allScalar [.v 8, .v 2]) (k.addr (.v 2)), InRegion s k .vload 1 y.2 page1 1 (region 3 [])) := by
  have run : ∀ sharers ver, (issuesNow (versioned floorAt 3 sharers ver) floorAt &&
      (versioned floorAt 3 sharers ver).site?.any fun k => decide (k.accessLanes true (k.addr (.s 2)) = [(0, 0x10000)] ∧
        lanesIn (versioned floorAt 3 sharers ver) k .vstore 1 [(0, 0x10000)] (region 3 sharers) = true ∧ k.scalar (.s 6) = ver)) = true →
      ∃ s k va, Issues s floorAt k ∧ k.accessLanes true (k.addr (.s 2)) = [va] ∧ InRegion s k .vstore 1 va.2 page1 1 (region 3 sharers) ∧
        k.scalar (.s 6) = ver := fun sharers ver h =>
    have ⟨k, hI, ha, hl, hr⟩ := meets h
    ⟨_, k, _, hI, ha, (lanesIn_inRegion hl).2 _ List.mem_cons_self, hr⟩
  constructor
  · intro p hp
    simp only [List.mem_cons, List.not_mem_nil, or_false] at hp
    rcases hp with rfl | rfl | rfl
    · exact run [] 1 (by decide)
    · exact run [0] 2 (by decide)
    · exact run [0, 3] 2 (by decide)
  · have ⟨k, hI, hl⟩ := meets (s := versioned queryAt 3 [] 0) (i := queryAt) (p := fun k => lanesIn (versioned queryAt 3 [] 0) k .vload 1
      (k.accessLanes (k.allScalar [.v 8, .v 2]) (k.addr (.v 2))) (region 3 []) = true) (by decide)
    exact ⟨_, k, hI, lanesIn_inRegion hl⟩

def vregAt : Instr := .vreg (.s 8) (.s 4)

/-- A request at the start of the first page: the second page, depth 2, its directory and pool. -/
def requested : State :=
  let s := withS (withS (paged (at_ vregAt)) 4 0) 5 0
  { s with mem := memPutBytes s.mem 0x100000 (natBytes 8 0x10000 ++ natBytes 8 0x10000 ++ natBytes 8 0x200 ++ natBytes 8 0x500000 ++
      natBytes 8 0x600000 ++ natBytes 8 1 ++ List.replicate 16 0) }

theorem test_witness_RegionsComeAndGo :
    (∃ s k va, Issues s vregAt k ∧ k.accessLanes true (k.addr (.s 4)) = [va] ∧ broken 64 va.2 = none ∧ Mapped s k .load va.2 page0 ∧
      (s.loadBytes k.core k.die k.w.away page0.pa 64 false).2.2 = none ∧ s.pkg.fpkg = pkgOf page0.pa ∧
      vregStatus s k (s.partOfCtx k.sw.ctx) (s.loadBytes k.core k.die k.w.away page0.pa 64 false).2.1 = 0 ∧ s.regions.get? 0 = none) ∧
    (∃ s k, Issues s (.vunreg (.s 8) (.s 10)) k ∧ k.act ≠ 0 ∧ s.regions.get? (64 * s.partOfCtx k.sw.ctx + (k.scalar (.s 10)).toNat) = none) ∧
    ∃ s k, Issues s (.vunreg (.s 8) (.s 10)) k ∧ k.act ≠ 0 ∧
      s.regions.get? (64 * s.partOfCtx k.sw.ctx + (k.scalar (.s 10)).toNat) = some { region 3 [] with sectors := [] } ∧
      s.regionWaiters 1 = [] := by
  refine ⟨?_, ⟨at_ (.vunreg (.s 8) (.s 10)), meets (by decide)⟩,
    { withS (at_ (.vunreg (.s 8) (.s 10))) 10 1 with regions := [(1, { region 3 [] with sectors := [] })] }, meets (by decide)⟩
  have ⟨k, hI, ha, hl, hr⟩ := meets (s := requested) (i := vregAt) (p := fun k => k.accessLanes true (k.addr (.s 4)) = [(0, 0)] ∧
    lanesAt requested k .load 64 [(0, 0)] page0 = true ∧ (requested.loadBytes k.core k.die k.w.away page0.pa 64 false).2.2 = none ∧
    requested.pkg.fpkg = pkgOf page0.pa ∧
    vregStatus requested k (requested.partOfCtx k.sw.ctx) (requested.loadBytes k.core k.die k.w.away page0.pa 64 false).2.1 = 0 ∧
    requested.regions.get? 0 = none) (by decide)
  have hm := (lanesAt_mapped hl).2 _ List.mem_cons_self
  exact ⟨_, k, _, hI, ha, hm.1, hm.2, hr⟩

/-! ### The scratchpad -/

/-- Change the swatch of the small states, which has 64 KiB of scratchpad. -/
def withSw (s : State) (f : Swatch → Swatch) : State := (roomy s).modSwatch 0 f

def ldsAt (m : FeMode) : Instr := .lds (.v 4) (.v 2) false m .b32
def ldsSpec : SpadSpec := ⟨4, false, false, .v 2⟩
def stsSpec : SpadSpec := ⟨4, true, false, .v 2⟩

/-- The first address beyond the scratchpad, and a misaligned one below it. -/
theorem test_witness_ScratchpadAccesses_checks :
    (∃ s k, Issues s (ldsAt .none) k ∧ spadRow k (ldsAt .none) = some ldsSpec ∧
      (spadAt k ldsSpec).find? (fun y => (spadBroken k 4 y.2).isSome) = some (0, 65536) ∧ spadBroken k 4 65536 = some 0x09) ∧
    ∃ s k, Issues s (ldsAt .none) k ∧ spadRow k (ldsAt .none) = some ldsSpec ∧
      (spadAt k ldsSpec).find? (fun y => (spadBroken k 4 y.2).isSome) = some (0, 65533) ∧ spadBroken k 4 65533 = some 0x0A :=
  ⟨⟨withV (roomy (at_ (ldsAt .none))) 2 65536, meets (by decide)⟩, withV (roomy (at_ (ldsAt .none))) 2 65533, meets (by decide)⟩

/-- Whole addresses and no fault left by a job. -/
theorem spadGood_of {k : Site} {x : SpadSpec} (h : (∀ y ∈ spadAt k x, spadBroken k x.n y.2 = none) ∧ k.sw.descFaults = []) : SpadGood k x :=
  ⟨h.1, fun f hf => by rw [h.2] at hf; cases hf⟩

def stsAt (m : FeMode) : Instr := .sts (.v 4) (.v 2) false m .b32

/-- LDS and STS on the last word of the scratchpad, with the line full and empty. -/
theorem test_witness_ScratchpadAccesses_moves :
    (∃ s k, Issues s (ldsAt .both) k ∧ spadRow k (ldsAt .both) = some ldsSpec ∧ SpadGood k ldsSpec ∧ linesAll k ldsSpec true ∧ k.act ≠ 0) ∧
    (∃ s k, Issues s (ldsAt .one) k ∧ spadRow k (ldsAt .one) = some ldsSpec ∧ SpadGood k ldsSpec ∧ ¬ linesAll k ldsSpec true) ∧
    (∃ s k, Issues s (stsAt .both) k ∧ spadRow k (stsAt .both) = some stsSpec ∧ SpadGood k stsSpec ∧ linesAll k stsSpec false ∧ k.act ≠ 0) ∧
    ∃ s k, Issues s (stsAt .two) k ∧ spadRow k (stsAt .two) = some stsSpec ∧ SpadGood k stsSpec ∧ ¬ linesAll k stsSpec false :=
  ⟨⟨withV (withSw (at_ (ldsAt .both)) fun x => { x with full := [511] }) 2 65532,
      meets_of (p := fun k => spadRow k (ldsAt .both) = some ldsSpec ∧
        ((∀ y ∈ spadAt k ldsSpec, spadBroken k 4 y.2 = none) ∧ k.sw.descFaults = []) ∧
        (∀ y ∈ spadAt k ldsSpec, (y.2 / 128 ∈ k.sw.full ↔ true = true)) ∧ k.act ≠ 0) (by decide)
        fun _ h => ⟨h.1, spadGood_of h.2.1, h.2.2.1, h.2.2.2⟩⟩,
    ⟨withV (withSw (at_ (ldsAt .one)) fun x => { x with full := [510] }) 2 65532,
      meets_of (p := fun k => spadRow k (ldsAt .one) = some ldsSpec ∧
        ((∀ y ∈ spadAt k ldsSpec, spadBroken k 4 y.2 = none) ∧ k.sw.descFaults = []) ∧
        ¬ (∀ y ∈ spadAt k ldsSpec, (y.2 / 128 ∈ k.sw.full ↔ true = true))) (by decide)
        fun _ h => ⟨h.1, spadGood_of h.2.1, h.2.2⟩⟩,
    ⟨withV (withSw (at_ (stsAt .both)) fun x => { x with full := [510] }) 2 65532,
      meets_of (p := fun k => spadRow k (stsAt .both) = some stsSpec ∧
        ((∀ y ∈ spadAt k stsSpec, spadBroken k 4 y.2 = none) ∧ k.sw.descFaults = []) ∧
        (∀ y ∈ spadAt k stsSpec, (y.2 / 128 ∈ k.sw.full ↔ false = true)) ∧ k.act ≠ 0) (by decide)
        fun _ h => ⟨h.1, spadGood_of h.2.1, h.2.2.1, h.2.2.2⟩⟩,
    withV (withSw (at_ (stsAt .two)) fun x => { x with full := [511] }) 2 65532,
      meets_of (p := fun k => spadRow k (stsAt .two) = some stsSpec ∧
        ((∀ y ∈ spadAt k stsSpec, spadBroken k 4 y.2 = none) ∧ k.sw.descFaults = []) ∧
        ¬ (∀ y ∈ spadAt k stsSpec, (y.2 / 128 ∈ k.sw.full ↔ false = true))) (by decide)
        fun _ h => ⟨h.1, spadGood_of h.2.1, h.2.2⟩⟩

def atomsAt : Instr := .atoms (.v 6) (.v 2) .cas false

theorem test_witness_ScratchpadAccesses_atomics : ∃ s k, Issues s atomsAt k ∧ spadRow k atomsAt = some stsSpec ∧ SpadGood k stsSpec ∧ k.act ≠ 0 :=
  ⟨roomy (at_ atomsAt), meets_of (p := fun k => spadRow k atomsAt = some stsSpec ∧
    ((∀ y ∈ spadAt k stsSpec, spadBroken k 4 y.2 = none) ∧ k.sw.descFaults = []) ∧ k.act ≠ 0) (by decide)
    fun _ h => ⟨h.1, spadGood_of h.2.1, h.2.2⟩⟩

def fesetAt : Instr := .feset (.s 4) false

/-- A pair of the largest count that ends at the end of the scratchpad, and a count of 0. -/
theorem test_witness_FullBits :
    (∃ s k, Issues s (.feget (.s 4) (.s 6) false) k ∧ spadRow k (.feget (.s 4) (.s 6) false) = some ⟨1, false, true, .s 6⟩ ∧
      SpadGood k ⟨1, false, true, .s 6⟩) ∧
    (∃ s k, Issues s fesetAt k ∧ FeGood k (.s 4) ∧ k.scalar (.s 4) = 32768 ∧ feRange k (.s 4) 0 = (List.range 256).map fun j => 256 + j) ∧
    (∃ s k, Issues s (.feclr (.s 4) false) k ∧ ¬ FeGood k (.s 4) ∧ k.w.trapMode = false) ∧
    (∃ s k, Issues s (.fewait (.s 4) false true) k ∧ FeGood k (.s 4) ∧ k.sw.descFaults = [] ∧
      ∀ n ∈ feRange k (.s 4) 0, (n ∈ k.sw.full ↔ true = false)) ∧
    ∃ s k, Issues s (.fewait (.s 4) false true) k ∧ FeGood k (.s 4) ∧ k.sw.descFaults = [] ∧ 256 ∈ feRange k (.s 4) 0 ∧ 256 ∈ k.sw.full :=
  ⟨⟨roomy (at_ (.feget (.s 4) (.s 6) false)), meets_of (p := fun k => spadRow k (.feget (.s 4) (.s 6) false) = some ⟨1, false, true, .s 6⟩ ∧
      (∀ y ∈ spadAt k ⟨1, false, true, .s 6⟩, spadBroken k 1 y.2 = none) ∧ k.sw.descFaults = []) (by decide) fun _ h => ⟨h.1, spadGood_of h.2⟩⟩,
    ⟨withS (withS (roomy (at_ fesetAt)) 4 32768) 5 256, meets_of (p := fun k => (∀ l ∈ feLanes k (.s 4), 1 ≤ (k.word (.s 4) 1 l).toNat ∧
      (k.word (.s 4) 1 l).toNat ≤ 256 ∧ 128 * ((k.word (.s 4) 0 l).toNat / 128 + (k.word (.s 4) 1 l).toNat) ≤ k.sw.spsize) ∧
      k.scalar (.s 4) = 32768 ∧ feRange k (.s 4) 0 = (List.range 256).map fun j => 256 + j) (by decide) fun _ h => h⟩,
    ⟨roomy (at_ (.feclr (.s 4) false)), meets_of (p := fun k => ¬ (∀ l ∈ feLanes k (.s 4), 1 ≤ (k.word (.s 4) 1 l).toNat ∧
      (k.word (.s 4) 1 l).toNat ≤ 256 ∧ 128 * ((k.word (.s 4) 0 l).toNat / 128 + (k.word (.s 4) 1 l).toNat) ≤ k.sw.spsize) ∧
      k.w.trapMode = false) (by decide) fun _ h => h⟩,
    ⟨withS (withS (roomy (at_ (.fewait (.s 4) false true))) 4 32768) 5 1, meets_of (p := fun k => (∀ l ∈ feLanes k (.s 4),
      1 ≤ (k.word (.s 4) 1 l).toNat ∧ (k.word (.s 4) 1 l).toNat ≤ 256 ∧
      128 * ((k.word (.s 4) 0 l).toNat / 128 + (k.word (.s 4) 1 l).toNat) ≤ k.sw.spsize) ∧ k.sw.descFaults = [] ∧
      ∀ n ∈ feRange k (.s 4) 0, (n ∈ k.sw.full ↔ true = false)) (by decide) fun _ h => h⟩,
    withS (withS (withSw (at_ (.fewait (.s 4) false true)) fun x => { x with full := [256] }) 4 32768) 5 1,
      meets_of (p := fun k => (∀ l ∈ feLanes k (.s 4),
      1 ≤ (k.word (.s 4) 1 l).toNat ∧ (k.word (.s 4) 1 l).toNat ≤ 256 ∧
      128 * ((k.word (.s 4) 0 l).toNat / 128 + (k.word (.s 4) 1 l).toNat) ≤ k.sw.spsize) ∧ k.sw.descFaults = [] ∧
      256 ∈ feRange k (.s 4) 0 ∧ 256 ∈ k.sw.full) (by decide) fun _ h => h⟩

/-- A tag table with one entry. -/
theorem oneEntry_one : OneEntry [(4095, 1023)] := by
  intro i j key _ _ _ hi hj
  simp only [Tab.get?] at hi hj
  split at hi <;> split at hj <;> simp_all

theorem test_witness_TagsAndDescriptors :
    (∃ s k, Issues s (.splook (.s 9) (.s 8) false) k ∧ slotOf k.sw.tags.get? (k.val (.s 8) 0) = 4095) ∧
    (∃ s k, Issues s (.sptag (.v 9) (.v 8) (.v 2) false) k ∧ OneEntry k.sw.tags ∧ k.act ≠ 0) ∧
    (∃ s k, Issues s (.sptagInv (.v 9) (.v 8) false) k ∧ OneEntry k.sw.tags ∧ k.act ≠ 0) ∧
    (∃ s k, Issues s (.spdesc (.v 1) (.v 2) false) k ∧ spadRow k (.spdesc (.v 1) (.v 2) false) = some ⟨1, false, false, .v 2⟩ ∧
      SpadGood k ⟨1, false, false, .v 2⟩) ∧
    ∃ s k, Issues s (.spdescSet (.v 2) (.s 3) false) k ∧ spadRow k (.spdescSet (.v 2) (.s 3) false) = some ⟨1, true, false, .v 2⟩ ∧
      ∀ y ∈ spadAt k ⟨1, true, false, .v 2⟩, spadBroken k 1 y.2 = none :=
  ⟨⟨withS (withSw (at_ (.splook (.s 9) (.s 8) false)) fun x => { x with tags := [(4095, 1023)] }) 8 1023, meets (by decide)⟩,
    ⟨withSw (at_ (.sptag (.v 9) (.v 8) (.v 2) false)) fun x => { x with tags := [(4095, 1023)] },
      meets_of (p := fun k => k.sw.tags = [(4095, 1023)] ∧ k.act ≠ 0) (by decide) fun _ h => ⟨h.1 ▸ oneEntry_one, h.2⟩⟩,
    ⟨withSw (at_ (.sptagInv (.v 9) (.v 8) false)) fun x => { x with tags := [(4095, 1023)] },
      meets_of (p := fun k => k.sw.tags = [(4095, 1023)] ∧ k.act ≠ 0) (by decide) fun _ h => ⟨h.1 ▸ oneEntry_one, h.2⟩⟩,
    ⟨withV (roomy (at_ (.spdesc (.v 1) (.v 2) false))) 2 65535, meets_of (p := fun k =>
      spadRow k (.spdesc (.v 1) (.v 2) false) = some ⟨1, false, false, .v 2⟩ ∧
      (∀ y ∈ spadAt k ⟨1, false, false, .v 2⟩, spadBroken k 1 y.2 = none) ∧ k.sw.descFaults = []) (by decide)
      fun _ h => ⟨h.1, spadGood_of h.2⟩⟩,
    withV (roomy (at_ (.spdescSet (.v 2) (.s 3) false))) 2 65535, meets (by decide)⟩

/-! ### Shapes, copy jobs, barriers, queues and tasks -/

def shapeAt : Instr := .shape (.s 10) (.s 4) (.s 3) false

/-- A template at the start of the first page: 256 bytes in tiles of 128, writable. -/
def templated (ext : Nat) : State :=
  let s := withS (withS (withS (paged (roomy (at_ shapeAt))) 4 0) 5 0) 3 63
  { s with mem := memPutBytes s.mem 0x100000 (natBytes 8 0 ++ natBytes 8 4097 ++ natBytes 4 ext ++ natBytes 4 1 ++ natBytes 4 1 ++ natBytes 4 1 ++
      List.replicate 24 0 ++ natBytes 2 128 ++ natBytes 2 1 ++ natBytes 2 1 ++ natBytes 2 1 ++ List.replicate 16 0) }

def template (s : State) (k : Site) : List Byte := (s.loadBytes k.core k.die k.w.away page0.pa 80 false).2.1

/-- A whole record at the highest index, one whose tile exceeds its extent, a misaligned template, and an UNSHAPE of a record. -/
theorem test_witness_ShapesAndCodeTables_shape :
    (∃ s k, Issues s shapeAt k ∧ (k.act ≠ 0 ∧ broken 16 (k.addr (.s 4) 0) = none ∧ Mapped s k .load (k.addr (.s 4) 0) page0 ∧
      (s.loadBytes k.core k.die k.w.away page0.pa 80 false).2.2 = none ∧
      shapeCheck (template s k) k.sw.spsize (k.scalar (.s 3)).toNat (k.sw.shapes.get? (k.scalar (.s 3)).toNat).isSome = 0 ∧
      (shapeOf (leSum (template s k))).pages = [0]) ∧ Mapped s k .load 0 page0 ∧ pteW page0.leaf = true) ∧
    (∃ s k, Issues s shapeAt k ∧ (k.act ≠ 0 ∧ broken 16 (k.addr (.s 4) 0) = none ∧ Mapped s k .load (k.addr (.s 4) 0) page0 ∧
      (s.loadBytes k.core k.die k.w.away page0.pa 80 false).2.2 = none ∧
      shapeCheck (template s k) k.sw.spsize (k.scalar (.s 3)).toNat (k.sw.shapes.get? (k.scalar (.s 3)).toNat).isSome = 5)) ∧
    (∃ s k, Issues s shapeAt k ∧ k.act ≠ 0 ∧ broken 16 (k.addr (.s 4) 0) = some 0x0A) ∧
    ∃ s k, Issues s (.unshape (.s 3) false) k ∧ k.act ≠ 0 ∧ (k.sw.shapes.get? (k.scalar (.s 3)).toNat).isSome = true := by
  refine ⟨?_, ?_, ⟨withS (withS (roomy (at_ shapeAt)) 4 8) 5 0, meets (by decide)⟩,
    withSw (at_ (.unshape (.s 3) false)) fun x => { x with shapes := [(0, shapeOf 0)] }, meets (by decide)⟩
  · have ⟨k, hI, ha, hb, hm, hl, hc, hp⟩ := meets (s := templated 256) (i := shapeAt) (p := fun k => k.act ≠ 0 ∧
      broken 16 (k.addr (.s 4) 0) = none ∧ (mapsTo (templated 256) k .load (k.addr (.s 4) 0) = some page0 ∧
        mapsTo (templated 256) k .load 0 = some page0) ∧
      ((templated 256).loadBytes k.core k.die k.w.away page0.pa 80 false).2.2 = none ∧
      shapeCheck (template (templated 256) k) k.sw.spsize (k.scalar (.s 3)).toNat (k.sw.shapes.get? (k.scalar (.s 3)).toNat).isSome = 0 ∧
      (shapeOf (leSum (template (templated 256) k))).pages = [0]) (by decide)
    exact ⟨_, k, hI, ⟨ha, hb, mapsTo_mapped hm.1, hl, hc, hp⟩, mapsTo_mapped hm.2, by decide⟩
  · have ⟨k, hI, ha, hb, hm, hl, hc⟩ := meets (s := templated 127) (i := shapeAt) (p := fun k => k.act ≠ 0 ∧
      broken 16 (k.addr (.s 4) 0) = none ∧ mapsTo (templated 127) k .load (k.addr (.s 4) 0) = some page0 ∧
      ((templated 127).loadBytes k.core k.die k.w.away page0.pa 80 false).2.2 = none ∧
      shapeCheck (template (templated 127) k) k.sw.spsize (k.scalar (.s 3)).toNat (k.sw.shapes.get? (k.scalar (.s 3)).toNat).isSome = 5)
      (by decide)
    exact ⟨_, k, hI, ha, hb, mapsTo_mapped hm, hl, hc⟩

/-- A record of 256 bytes in two rows of 128; a coded one with the table of two symbols. -/
def rowsOf (coded : Bool) : Shape :=
  { base := 0, wr := !coded, coded := coded, described := coded, ndim := 2, esz := 1, ext := [128, 2, 1, 1], str := [128, 0, 0]
    tile := [128, 1, 1, 1], sbase := 0, slen := if coded then 64 else 0
    table := if coded then some (1 :: 1 :: List.replicate 254 0) else none, pins := [⟨0, 0x100000, 16, false⟩] }

def withRows (s : State) (coded : Bool) : State := withSw s fun x => { x with shapes := [(0, rowsOf coded)], spad := [(0, 1), (1, 1)] }

def ctabAt : Instr := .ctab (.s 10) (.s 6) (.s 3) false

/-- A table that is valid, one that is not, a record that is not coded, and one in use. -/
theorem test_witness_ShapesAndCodeTables_ctab :
    (∃ s k, Issues s ctabAt k ∧ k.act ≠ 0 ∧ 256 ≤ k.sw.spsize ∧ k.sw.descFaults = [] ∧ (k.sw.shapes.get? 0).any (fun r => r.coded) = true ∧
      s.recordBusy k.sid 0 = false ∧ validTable ((memBytes k.sw.spad 0 256).map fun x => x.toNat) = true) ∧
    (∃ s k, Issues s ctabAt k ∧ (k.sw.shapes.get? 0).any (fun r => r.coded) = true ∧ s.recordBusy k.sid 0 = false ∧
      validTable ((memBytes k.sw.spad 0 256).map fun x => x.toNat) = false) ∧
    (∃ s k, Issues s ctabAt k ∧ k.act ≠ 0 ∧ (k.sw.shapes.get? 0).any (fun r => r.coded) = false) ∧
    ∃ s k, Issues s ctabAt k ∧ (k.sw.shapes.get? 0).any (fun r => r.coded) = true ∧ s.recordBusy k.sid 0 = true :=
  ⟨⟨withRows (at_ ctabAt) true, meets (by decide)⟩,
    ⟨withSw (withRows (at_ ctabAt) true) fun x => { x with spad := [] }, meets (by decide)⟩,
    ⟨withRows (at_ ctabAt) false, meets (by decide)⟩,
    { withRows (at_ ctabAt) true with cores := [(0, { Core.reset with jobs := [⟨0, 0, .cpyin, false, 0, rowsOf true, [0, 0, 0, 0], [], 0, 128, 0, 0,
      true, 0, 0, 0, (0, 0), [], 0⟩] })] }, meets (by decide)⟩

def cpyinAt : Instr := .cpyin (.s 20) (.s 8) (.s 12) false false
def gatherAt : Instr := .gather (.s 22) (.s 16) (.s 12) false
def stageAt : Instr := .stage (.s 23) false

def places (s : State) (k : Site) : Prop := (k.core.any fun c => decide ((s.core c).jobs.length < Config.jobPlaces)) = true

/-- Jobs of a record at the last origin its extent holds and one past it; a list of rows, and one with a row past the extent; an
entry of the schedule, and none. -/
theorem test_witness_CopyJobsAreIssuedAndQueried_issue :
    (∃ s k, Issues s cpyinAt k ∧ places s k ∧ k.act ≠ 0 ∧ (k.word (.s 8) 1 0).toNat = 1 ∧ (k.word (.s 12) 0 0).toNat = 0 ∧
      k.sw.shapes.get? 0 = some (rowsOf false) ∧ shapeRefused (rowsOf false) false [0, 1, 0, 0] = false ∧
      (k.word (.s 12) 1 0).toNat = 65408 ∧ 65408 + tileSize (rowsOf false) = k.sw.spsize) ∧
    (∃ s k, Issues s cpyinAt k ∧ places s k ∧ k.act ≠ 0 ∧ (k.word (.s 8) 1 0).toNat = 2 ∧ k.sw.shapes.get? 0 = some (rowsOf false) ∧
      shapeRefused (rowsOf false) false [0, 2, 0, 0] = true) ∧
    (∃ s k, Issues s gatherAt k ∧ places s k ∧ k.act ≠ 0 ∧ (k.word (.s 16) 0 0).toNat = 0 ∧ (k.word (.s 16) 1 0).toNat = 2 ∧
      k.sw.shapes.get? 0 = some (rowsOf false) ∧ k.sw.descFaults = [] ∧
      (List.range 2).map (fun j => leSum (memBytes k.sw.spad (4 * j) 4)) = [1, 0]) ∧
    (∃ s k, Issues s gatherAt k ∧ places s k ∧ k.act ≠ 0 ∧ k.sw.shapes.get? 0 = some (rowsOf false) ∧ (k.word (.s 16) 1 0).toNat = 1 ∧
      leSum (memBytes k.sw.spad 0 4) = 257) ∧
    (∃ s k, Issues s stageAt k ∧ places s k ∧ k.act ≠ 0 ∧ k.sw.sched[k.sw.schedPos]? = some ⟨0, 0, [0, 1, 0, 0], 0, 0⟩ ∧
      k.sw.shapes.get? 0 = some (rowsOf false)) ∧
    ∃ s k, Issues s stageAt k ∧ places s k ∧ k.act ≠ 0 ∧ k.sw.sched[k.sw.schedPos]? = none :=
  ⟨⟨withS (withS (withRows (at_ cpyinAt) false) 9 1) 13 65408, meets_of (p := fun k =>
      (k.core.any fun c => decide (((withS (withS (withRows (at_ cpyinAt) false) 9 1) 13 65408).core c).jobs.length < Config.jobPlaces)) = true ∧
      k.act ≠ 0 ∧ (k.word (.s 8) 1 0).toNat = 1 ∧ (k.word (.s 12) 0 0).toNat = 0 ∧
      k.sw.shapes.get? 0 = some (rowsOf false) ∧ shapeRefused (rowsOf false) false [0, 1, 0, 0] = false ∧
      (k.word (.s 12) 1 0).toNat = 65408 ∧ 65408 + tileSize (rowsOf false) = k.sw.spsize) (by decide) fun _ h => h⟩,
    ⟨withS (withRows (at_ cpyinAt) false) 9 2, meets_of (p := fun k =>
      (k.core.any fun c => decide (((withS (withRows (at_ cpyinAt) false) 9 2).core c).jobs.length < Config.jobPlaces)) = true ∧ k.act ≠ 0 ∧
      (k.word (.s 8) 1 0).toNat = 2 ∧ k.sw.shapes.get? 0 = some (rowsOf false) ∧ shapeRefused (rowsOf false) false [0, 2, 0, 0] = true)
      (by decide) fun _ h => h⟩,
    ⟨withS (withSw (withRows (at_ gatherAt) false) fun x => { x with spad := [(0, 1)] }) 17 2, meets_of (p := fun k =>
      (k.core.any fun c => decide (((withS (withSw (withRows (at_ gatherAt) false) fun x => { x with spad := [(0, 1)] }) 17 2).core c).jobs.length <
        Config.jobPlaces)) = true ∧
      k.act ≠ 0 ∧ (k.word (.s 16) 0 0).toNat = 0 ∧ (k.word (.s 16) 1 0).toNat = 2 ∧
      k.sw.shapes.get? 0 = some (rowsOf false) ∧ k.sw.descFaults = [] ∧
      (List.range 2).map (fun j => leSum (memBytes k.sw.spad (4 * j) 4)) = [1, 0]) (by decide) fun _ h => h⟩,
    ⟨withS (withRows (at_ gatherAt) false) 17 1, meets_of (p := fun k =>
      (k.core.any fun c => decide (((withS (withRows (at_ gatherAt) false) 17 1).core c).jobs.length < Config.jobPlaces)) = true ∧
      k.act ≠ 0 ∧ k.sw.shapes.get? 0 = some (rowsOf false) ∧ (k.word (.s 16) 1 0).toNat = 1 ∧
      leSum (memBytes k.sw.spad 0 4) = 257) (by decide) fun _ h => h⟩,
    ⟨withSw (withRows (at_ stageAt) false) fun x => { x with sched := [⟨0, 0, [0, 1, 0, 0], 0, 0⟩] }, meets_of (p := fun k =>
      (k.core.any fun c => decide (((withSw (withRows (at_ stageAt) false) fun x =>
        { x with sched := [⟨0, 0, [0, 1, 0, 0], 0, 0⟩] }).core c).jobs.length < Config.jobPlaces)) = true ∧
      k.act ≠ 0 ∧ k.sw.sched[k.sw.schedPos]? = some ⟨0, 0, [0, 1, 0, 0], 0, 0⟩ ∧ k.sw.shapes.get? 0 = some (rowsOf false)) (by decide)
      fun _ h => h⟩,
    withRows (at_ stageAt) false, meets_of (p := fun k =>
      (k.core.any fun c => decide (((withRows (at_ stageAt) false).core c).jobs.length < Config.jobPlaces)) = true ∧ k.act ≠ 0 ∧
      k.sw.sched[k.sw.schedPos]? = none) (by decide) fun _ h => h⟩

def cpyqAt : Instr := .cpyq (.s 24) (.s 20) false

/-- Job numbers at the ends of the three ranges of R194, and a job that was aborted on its descriptor. -/
theorem test_witness_CopyJobsAreIssuedAndQueried_status : (∀ p ∈ [((100 : Word), (100 : Nat)), (0, 65), (0, 64), (36, 100)], ∃ s k, Issues s cpyqAt k ∧
      k.scalar (.s 20) = p.1 ∧ k.sw.jobs = p.2 ∧ k.core.all (fun c => (s.core c).jobs.isEmpty) = true) ∧
    ∃ s k, Issues s cpyqAt k ∧ k.scalar (.s 20) = 0 ∧ k.sw.jobs = 1 ∧ k.sw.jobLog.getD 0 ⟨0, 0, 0⟩ = ⟨2, 3, 3⟩ ∧
      k.sw.descFaults.find? (fun y => y.job == 0) = some ⟨0, [2], 64, 9⟩ := by
  have run : ∀ n jobs, (issuesNow (withS (withSw (at_ cpyqAt) fun x => { x with jobs := jobs }) 20 n) cpyqAt &&
      (withS (withSw (at_ cpyqAt) fun x => { x with jobs := jobs }) 20 n).site?.any fun k => decide (k.scalar (.s 20) = n ∧ k.sw.jobs = jobs ∧
        k.core.all (fun c => ((withS (withSw (at_ cpyqAt) fun x => { x with jobs := jobs }) 20 n).core c).jobs.isEmpty) = true)) = true →
      ∃ s k, Issues s cpyqAt k ∧ k.scalar (.s 20) = n ∧ k.sw.jobs = jobs ∧ k.core.all (fun c => (s.core c).jobs.isEmpty) = true :=
    fun n jobs h => ⟨_, meets h⟩
  refine ⟨fun p hp => ?_, withSw (at_ cpyqAt) fun x => { x with jobs := 1, jobLog := [(0, ⟨2, 3, 3⟩)], descFaults := [⟨0, [2], 64, 9⟩] },
    meets (by decide)⟩
  simp only [List.mem_cons, List.not_mem_nil, or_false] at hp
  rcases hp with rfl | rfl | rfl | rfl
  · exact run 100 100 (by decide)
  · exact run 0 65 (by decide)
  · exact run 0 64 (by decide)
  · exact run 36 100 (by decide)

/-- The state that an instruction answers. -/
def next (i : Instr) (s : State) : State :=
  match exec i s with
  | .next t => t
  | _ => s

def resumesNow (s : State) (i : Instr) : Bool :=
  match s.site? with
  | some k => k.w.wait.any (fun x => x.instr == i) && (k.w.clause == some k.cl) && k.cl.tested && (k.staticTrap i).isNone &&
      !k.interlocked i && (k.registerTrap i).isNone && (k.fallTrap s i).isNone
  | none => false

/-- A waiting instruction is tested again in a state, with a property. -/
theorem resumes {s : State} {i : Instr} {p : Site → Wait → Prop} [∀ k x, Decidable (p k x)]
    (h : (resumesNow s i && s.site?.any fun k => k.w.wait.any fun x => decide (p k x)) = true) : ∃ k x, Resumes s i k x ∧ p k x := by
  simp only [Bool.and_eq_true] at h
  obtain ⟨h, hp⟩ := h
  unfold resumesNow at h
  split at h
  · rename_i k hk
    rw [hk] at hp
    simp only [Option.any_some, Bool.and_eq_true, Option.isNone_iff_eq_none, Bool.not_eq_true', beq_iff_eq] at h hp
    obtain ⟨⟨⟨⟨⟨⟨hx, hc⟩, ht⟩, h1⟩, h2⟩, h3⟩, h4⟩ := h
    cases hw : k.w.wait with
    | none => rw [hw] at hx; cases hx
    | some x =>
      rw [hw, Option.any_some] at hx hp
      exact ⟨k, x, ⟨hk, hw, eq_of_beq hx, hc, ht, h1, h2, h3, h4⟩, of_decide_eq_true hp⟩
  · cases h

def barAt : Instr := .bar (.s 4) false 31 .sw
def baraAt : Instr := .bara (.s 6) (.s 4) false 31 .sw

/-- Two wefts in the swatch. -/
def twoWefts (s : State) : State := withSw s fun x =>
  { x with nwf := 2, wefts := x.wefts ++ (x.wefts.take 1).map fun p => (1, { p.2 with place := .slot 1 0 }) }

/-- Barrier 31: a first arrival of two, the last of two, a count above the declared one, a second entry, a BAR whose phase has ended, a
phase still open and one over; and a wider barrier whose swatch has a member missing, and one whose count differs. -/
theorem test_witness_Barriers :
    (∃ s k, Issues s baraAt k ∧ k.w.task = none ∧ k.core.isSome = true ∧ k.wid ∉ (swBar k.sw 31).who ∧
      (match arriveAt (swBar k.sw 31) k.wid k.sw.nwf (members k.sw) (k.scalar (.s 4)).toNat with
        | .ok r => decide (r = ⟨0, false, 2, 1, [0]⟩) | .error _ => false) = true) ∧
    (∃ s k, Issues s barAt k ∧ k.w.task = none ∧ k.core.isSome = true ∧ k.wid ∉ (swBar k.sw 31).who ∧
      (match arriveAt (swBar k.sw 31) k.wid k.sw.nwf (members k.sw) (k.scalar (.s 4)).toNat with
        | .ok r => decide (r = ⟨1, false, 2, 0, []⟩) | .error _ => false) = true) ∧
    (∃ s k, Issues s baraAt k ∧ k.w.task = none ∧ k.core.isSome = true ∧ k.wid ∉ (swBar k.sw 31).who ∧
      (match arriveAt (swBar k.sw 31) k.wid k.sw.nwf (members k.sw) (k.scalar (.s 4)).toNat with
        | .ok _ => false | .error v => decide (v = 2)) = true) ∧
    (∃ s k, Issues s barAt k ∧ k.w.task = none ∧ k.core.isSome = true ∧ k.wid ∈ (swBar k.sw 31).who) ∧
    (∃ s k y, Resumes s barAt k y ∧ y.cl = k.cl ∧ y.form = .bar .sw 31 0 ∧ (swBar k.sw 31).phase ≠ 0 ∧
      k.w.frontier.all (fun e => !e.barWait) = true) ∧
    (∃ s k, Issues s (.barw (.s 4) false 31 .sw) k ∧ (swBar k.sw 31).phase = (k.scalar (.s 4)).toNat) ∧
    (∃ s k, Issues s (.barw (.s 4) false 31 .sw) k ∧ (swBar k.sw 31).phase ≠ (k.scalar (.s 4)).toNat) ∧
    (∃ s k, Issues s (.barq (.s 8) false 31 .sw) k ∧ (swBar k.sw 31).phase = 7) ∧
    (∃ s k, Issues s (.bara (.s 6) (.s 4) false 31 .rl) k ∧ k.w.task = none ∧ k.sw.control = none ∧
      k.wid ∉ (k.sw.parts.getD (32 * BarScope.ix .rl + 31) ⟨[], 0, false, none⟩).who ∧
      ∃ q ∈ k.sw.wefts, q.2.task = none ∧ q.2.ended = false ∧ q.1 ≠ k.wid ∧
        q.1 ∉ (k.sw.parts.getD (32 * BarScope.ix .rl + 31) ⟨[], 0, false, none⟩).who) ∧
    ∃ s k, Issues s (.bara (.s 6) (.s 4) false 31 .rl) k ∧ k.w.task = none ∧ k.sw.control = none ∧ k.scalar (.s 4) = 2 ∧
      k.sw.parts.getD (32 * BarScope.ix .rl + 31) ⟨[], 0, false, none⟩ = ⟨[1], 3, false, none⟩ :=
  ⟨⟨withS (twoWefts (at_ baraAt)) 4 2, meets (by decide)⟩,
    ⟨withS (withSw (twoWefts (at_ barAt)) fun x => { x with bars := [(31, ⟨0, false, 2, 1, [1]⟩)] }) 4 2, meets (by decide)⟩,
    ⟨withS (twoWefts (at_ baraAt)) 4 3, meets (by decide)⟩,
    ⟨withSw (twoWefts (at_ barAt)) fun x => { x with bars := [(31, ⟨0, false, 2, 1, [0]⟩)] }, meets (by decide)⟩,
    ⟨withSw (next barAt (withS (twoWefts (at_ barAt)) 4 2)) fun x => { x with bars := [(31, ⟨1, false, 2, 0, []⟩)] },
      resumes (by decide)⟩,
    ⟨roomy (at_ (.barw (.s 4) false 31 .sw)), meets (by decide)⟩,
    ⟨withS (roomy (at_ (.barw (.s 4) false 31 .sw))) 4 0xFFFFFFFF, meets (by decide)⟩,
    ⟨withSw (at_ (.barq (.s 8) false 31 .sw)) fun x => { x with bars := [(31, ⟨7, false, 2, 1, [0]⟩)] }, meets (by decide)⟩,
    ⟨twoWefts (at_ (.bara (.s 6) (.s 4) false 31 .rl)), meets (by decide)⟩,
    withS (withSw (twoWefts (at_ (.bara (.s 6) (.s 4) false 31 .rl))) fun x =>
      { x with parts := [(32 * BarScope.ix .rl + 31, ⟨[1], 3, false, none⟩)] }) 4 2, meets (by decide)⟩

def pushAt (nb : Bool) : Instr := .qpush (.s 4) 15 false nb
def popAt (nb : Bool) : Instr := .qpop (.s 6) 15 false nb
def peekAt (nb : Bool) : Instr := .qpeek (.s 6) 15 false nb
def fullQueue : HwQueue := ⟨List.replicate 64 5, [], [(1, 9)]⟩

/-- Queue 15 of 16: empty, with a weft that waits for an item, full, and a queue that the launch does not have. -/
theorem test_witness_HardwareQueues :
    (∃ s k, Issues s (pushAt true) k ∧ k.sw.queues = 15) ∧
    (∃ s k, Issues s (pushAt true) k ∧ 15 < k.sw.queues ∧ (queueOf k.sw 15).poppers = [1]) ∧
    (∃ s k, Issues s (pushAt true) k ∧ 15 < k.sw.queues ∧ (queueOf k.sw 15).poppers = [] ∧ (queueOf k.sw 15).items.length = 63) ∧
    (∀ nb, ∃ s k, Issues s (pushAt nb) k ∧ 15 < k.sw.queues ∧ queueOf k.sw 15 = fullQueue) ∧
    (∀ nb, ∃ s k, Issues s (popAt nb) k ∧ 15 < k.sw.queues ∧ queueOf k.sw 15 = fullQueue) ∧
    (∀ nb, ∃ s k, Issues s (popAt nb) k ∧ 15 < k.sw.queues ∧ (queueOf k.sw 15).items = []) ∧
    (∀ nb, ∃ s k, Issues s (peekAt nb) k ∧ 15 < k.sw.queues ∧ queueOf k.sw 15 = fullQueue) ∧
    (∀ nb, ∃ s k, Issues s (peekAt nb) k ∧ 15 < k.sw.queues ∧ (queueOf k.sw 15).items = []) ∧
    ∃ s k, Issues s (.qlen (.s 7) 15 false) k ∧ 15 < k.sw.queues ∧ queueOf k.sw 15 = fullQueue :=
  ⟨⟨withSw (at_ (pushAt true)) fun x => { x with queues := 15 }, meets (by decide)⟩,
    ⟨withSw (at_ (pushAt true)) fun x => { x with hwq := [(15, ⟨[], [1], []⟩)] }, meets (by decide)⟩,
    ⟨withSw (at_ (pushAt true)) fun x => { x with hwq := [(15, ⟨List.replicate 63 5, [], []⟩)] }, meets (by decide)⟩,
    fun nb => ⟨withSw (at_ (pushAt nb)) fun x => { x with hwq := [(15, fullQueue)] }, by cases nb <;> exact meets (by decide)⟩,
    fun nb => ⟨withSw (at_ (popAt nb)) fun x => { x with hwq := [(15, fullQueue)] }, by cases nb <;> exact meets (by decide)⟩,
    fun nb => ⟨roomy (at_ (popAt nb)), by cases nb <;> exact meets (by decide)⟩,
    fun nb => ⟨withSw (at_ (peekAt nb)) fun x => { x with hwq := [(15, fullQueue)] }, by cases nb <;> exact meets (by decide)⟩,
    fun nb => ⟨roomy (at_ (peekAt nb)), by cases nb <;> exact meets (by decide)⟩,
    withSw (at_ (.qlen (.s 7) 15 false)) fun x => { x with hwq := [(15, fullQueue)] }, meets (by decide)⟩

def spawnAt : Instr := .tspawn (.v 5) (.v 6) false
def withRoles (s : State) (n : Nat) : State := { s with launches := s.launches.modify 0 fun l => { l with roles := n } }

/-- Entries at the last header of the code segment, past its end, a launch with no general role, and the count. -/
theorem test_witness_TasksJoinThePool :
    (∃ s k, Issues s spawnAt k ∧ (s.launches.get? k.sw.launch).any (fun l => l.roles.testBit 0 && l.pool.isEmpty) = true ∧
      ∀ x ∈ lanesOf k.act, (k.val (.v 5) x).toNat % 8 = 0 ∧ (k.val (.v 5) x).toNat + 8 = s.codeSize k.sw.ctx) ∧
    (∃ s k, Issues s spawnAt k ∧ (s.launches.get? k.sw.launch).any (fun l => l.roles.testBit 0) = true ∧
      k.act ≠ 0 ∧ ∀ x ∈ lanesOf k.act, s.codeSize k.sw.ctx = (k.val (.v 5) x).toNat) ∧
    (∃ s k, Issues s spawnAt k ∧ (s.launches.get? k.sw.launch).any (fun l => !l.roles.testBit 0) = true) ∧
    ∃ s k, Issues s (.tcount (.s 9) false) k ∧ (s.launches.get? k.sw.launch).isSome = true :=
  ⟨⟨withV (at_ spawnAt) 5 4088, meets (by decide)⟩, ⟨withV (at_ spawnAt) 5 4096, meets (by decide)⟩,
    ⟨withRoles (at_ spawnAt) 2, meets (by decide)⟩, at_ (.tcount (.s 9) false), meets (by decide)⟩

/-! ### The enlarger -/

/-- Four tiles, two negative slots, every block described as E4M3 of scale 1. -/
def withTiles (s : State) (f : Swatch → Swatch) : State := withSw s fun x => f { x with
  accMap := [0, 1, 2, 3], negMap := [0, 1], descs := (List.range 128).map fun n => (n, 0x3C000001) }

def neg1 : NegSlot := .narrow [] ((List.range 128).map fun n => (n, 0x3C000001)) false
def negAt : Instr := .neg (.s 4) (.s 5) false false
def expoAt : Instr := .expo (.s 4) (.s 5) false true
def cexpoAt : Instr := .cexpo (.s 4) (.s 5) false false

/-- A slot loaded up to the end of the scratchpad, released, and exposures of a primary tile, with room and without, and of a pair of tiles. -/
theorem test_witness_ExposuresAndContributions :
    (∃ s k, Issues s negAt k ∧ selOk (k.scalar (.s 4)) false true false ∧ negOf (k.scalar (.s 4)) < k.sw.negMap.length ∧
      rangeOk k 128 8192 (k.scalar (.s 5)).toNat ∧ k.sw.descFaults = [] ∧
      ∀ n, n < 64 → stripOk (descAt k.sw (128 * n)) (descAt k.sw (128 * n + 64))) ∧
    (∃ s k, Issues s (.neg (.s 4) (.s 5) false true) k ∧ selOk (k.scalar (.s 4)) false true false ∧
      rangeOk k 128 8192 (k.scalar (.s 5)).toNat ∧ (k.scalar (.s 5)).toNat + 8192 = k.sw.spsize) ∧
    (∃ s k, Issues s (.negrel (.s 4) false) k ∧ selOk (k.scalar (.s 4)) false true false ∧ negOf (k.scalar (.s 4)) < k.sw.negMap.length) ∧
    (∀ n ∈ [0, 1], ∃ s k, Issues s expoAt k ∧ selOk (k.scalar (.s 4)) true true false ∧ negOf (k.scalar (.s 4)) = 1 ∧
      tileOf (k.scalar (.s 4)) = 1 ∧ tileFree k.sw 1 ∧ (k.sw.tile 1).dual = true ∧ 1 < k.sw.accMap.length / 2 ∧ k.sw.slot 1 = neg1 ∧
      rangeOk k 128 4096 0 ∧ k.scalar (.s 5) = 0 ∧ k.act ≠ 0 ∧
      (∀ l ∈ lanesOf k.act, stripOk (descAt k.sw (128 * l)) (descAt k.sw (128 * l + 64))) ∧ (room s k ↔ n = 0)) ∧
    (∃ s k, Issues s cexpoAt k ∧ selOk (k.scalar (.s 4)) true true false ∧ negOf (k.scalar (.s 4)) = 1 ∧ tileOf (k.scalar (.s 4)) = 2 ∧
      tileFree k.sw 2 ∧ tileFree k.sw 3 ∧ (k.sw.tile 2).dual = false ∧ (k.sw.tile 3).dual = false ∧ k.sw.slot 1 = .complex [(0, 1)] false ∧
      rangeOk k 128 8192 0 ∧ k.scalar (.s 5) = 0 ∧ k.act ≠ 0 ∧ room s k) ∧
    ∃ a b : List Fp, a.length = b.length ∧ a ≠ [] ∧ (∀ x ∈ a ++ b, x.isNan = false) ∧ (∀ p ∈ a.zip b, p.1.mul p.2 ≠ none) ∧
      Fp.inf true ∉ (a.zip b).filterMap fun p => p.1.mul p.2 := by
  refine ⟨⟨withTiles (at_ negAt) id, meets_of (p := fun k => (_ ∧ _ ∧ _ ∧ _ ∧ _) ∧ _ < _ ∧ (_ ∧ _ ∧ _) ∧ _ ∧ ∀ n, n < 64 → _ ∧ (_ ∨ _ ∧ _))
      (by decide) fun _ h => h⟩,
    ⟨withS (withTiles (at_ (.neg (.s 4) (.s 5) false true)) id) 5 57344, meets_of (p := fun k => (_ ∧ _ ∧ _ ∧ _ ∧ _) ∧ (_ ∧ _ ∧ _) ∧ _)
      (by decide) fun _ h => h⟩,
    ⟨withTiles (at_ (.negrel (.s 4) false)) id, meets_of (p := fun k => (_ ∧ _ ∧ _ ∧ _ ∧ _) ∧ _ < _) (by decide) fun _ h => h⟩, ?_, ?_,
    [.fin false 1 0], [.inf false], by decide⟩
  · intro n hn
    simp only [List.mem_cons, List.not_mem_nil, or_false] at hn
    rcases hn with rfl | rfl
    · exact ⟨withS (withTiles (at_ expoAt) fun x => { x with tiles := [(1, ⟨[], false, false, false, false, false, false, true⟩)], negs := [(1, neg1)] })
        4 0x101, meets_of (p := fun k => (_ ∧ _ ∧ _ ∧ _ ∧ _) ∧ _ ∧ _ ∧ (_ < _ ∧ ∀ p, p < _ → _ → _) ∧ _ ∧ _ ∧ _ ∧ (_ ∧ _ ∧ _) ∧ _ ∧ _ ∧
          (∀ l ∈ lanesOf k.act, _ ∧ (_ ∨ _ ∧ _)) ∧ ((_ < _ ∧ _ < _) ↔ _)) (by decide) fun _ h => h⟩
    · exact ⟨withS (withTiles (withWeft (at_ expoAt) fun w => { w with flights := [⟨3, 0, [], [], none, 0, .exposure 1, 1, 0⟩] })
        fun x => { x with tiles := [(1, ⟨[], false, false, false, false, false, false, true⟩)], negs := [(1, neg1)] })
        4 0x101, meets_of (p := fun k => (_ ∧ _ ∧ _ ∧ _ ∧ _) ∧ _ ∧ _ ∧ (_ < _ ∧ ∀ p, p < _ → _ → _) ∧ _ ∧ _ ∧ _ ∧ (_ ∧ _ ∧ _) ∧ _ ∧ _ ∧
          (∀ l ∈ lanesOf k.act, _ ∧ (_ ∨ _ ∧ _)) ∧ ((_ < _ ∧ _ < _) ↔ _)) (by decide) fun _ h => h⟩
  · exact ⟨withS (withTiles (at_ cexpoAt) fun x => { x with negs := [(1, .complex [(0, 1)] false)] }) 4 0x102,
      meets_of (p := fun k => (_ ∧ _ ∧ _ ∧ _ ∧ _) ∧ _ ∧ _ ∧ (_ < _ ∧ ∀ p, p < _ → _ → _) ∧ (_ < _ ∧ ∀ p, p < _ → _ → _) ∧ _ ∧ _ ∧ _ ∧
        (_ ∧ _ ∧ _) ∧ _ ∧ _ ∧ (_ < _ ∧ _ < _)) (by decide) fun _ h => h⟩

def acczAt : Instr := .accz (.s 4) false true

/-- The first tile that the launch does not have, the check copy of a dual tile, a slot past the last, a reserved selector bit, and an
exposure whose slot is empty; a tile cleared and one loaded. -/
theorem test_witness_EnlargerChecksAndTiles :
    (∃ s k, Issues s acczAt k ∧ selOk (k.scalar (.s 4)) true false false ∧ tileOf (k.scalar (.s 4)) = k.sw.accMap.length) ∧
    (∃ s k, Issues s acczAt k ∧ selOk (k.scalar (.s 4)) true false false ∧ tileOf (k.scalar (.s 4)) < k.sw.accMap.length ∧
      ¬ tileFree k.sw (tileOf (k.scalar (.s 4)))) ∧
    (∃ s k, Issues s (.negrel (.s 4) false) k ∧ selOk (k.scalar (.s 4)) false true false ∧ negOf (k.scalar (.s 4)) = k.sw.negMap.length) ∧
    (∃ s k, Issues s acczAt k ∧ ¬ selOk (k.scalar (.s 4)) true false false) ∧
    (∃ s k, Issues s expoAt k ∧ selOk (k.scalar (.s 4)) true true false ∧ tileFree k.sw (tileOf (k.scalar (.s 4))) ∧
      (k.sw.tile (tileOf (k.scalar (.s 4)))).dual = true ∧ tileOf (k.scalar (.s 4)) < k.sw.accMap.length / 2 ∧
      k.sw.slot (negOf (k.scalar (.s 4))) = .empty) ∧
    (∃ s k, Issues s acczAt k ∧ selOk (k.scalar (.s 4)) true false false ∧ tileFree k.sw (tileOf (k.scalar (.s 4))) ∧
      tileOf (k.scalar (.s 4)) < k.sw.accMap.length / 2) ∧
    ∃ s k, Issues s (.accld (.s 4) (.s 5) false false .desc) k ∧ k.sw.descFaults = [] ∧ selOk (k.scalar (.s 4)) true false false ∧
      tileFree k.sw (tileOf (k.scalar (.s 4))) ∧ rangeOk k 128 2048 (k.scalar (.s 5)).toNat ∧
      ∀ l ∈ lanesOf k.act, descNumeric (descAt k.sw (64 * l)) = true ∧ narrowFmt (descAt k.sw (64 * l)) = false :=
  ⟨⟨withS (withTiles (at_ acczAt) id) 4 4, meets_of (p := fun k => (_ ∧ _ ∧ _ ∧ _ ∧ _) ∧ _) (by decide) fun _ h => h⟩,
    ⟨withS (withTiles (at_ acczAt) fun x => { x with tiles := [(1, ⟨[], false, false, false, false, false, false, true⟩)] }) 4 3,
      meets_of (p := fun k => (_ ∧ _ ∧ _ ∧ _ ∧ _) ∧ _ < _ ∧ ¬ (_ < _ ∧ ∀ p, p < _ → _ → _)) (by decide) fun _ h => h⟩,
    ⟨withS (withTiles (at_ (.negrel (.s 4) false)) id) 4 0x200, meets_of (p := fun k => (_ ∧ _ ∧ _ ∧ _ ∧ _) ∧ _) (by decide) fun _ h => h⟩,
    ⟨withS (withTiles (at_ acczAt) id) 4 0x8000, meets_of (p := fun k => ¬ (_ ∧ _ ∧ _ ∧ _ ∧ _)) (by decide) fun _ h => h⟩,
    ⟨withS (withTiles (at_ expoAt) fun x => { x with tiles := [(1, ⟨[], false, false, false, false, false, false, true⟩)] }) 4 0x101,
      meets_of (p := fun k => (_ ∧ _ ∧ _ ∧ _ ∧ _) ∧ (_ < _ ∧ ∀ p, p < _ → _ → _) ∧ _ ∧ _ < _ ∧ _) (by decide) fun _ h => h⟩,
    ⟨withS (withTiles (at_ acczAt) id) 4 1, meets_of (p := fun k => (_ ∧ _ ∧ _ ∧ _ ∧ _) ∧ (_ < _ ∧ ∀ p, p < _ → _ → _) ∧ _ < _) (by decide)
      fun _ h => h⟩,
    withTiles (at_ (.accld (.s 4) (.s 5) false false .desc)) id, meets_of (p := fun k => _ ∧ (_ ∧ _ ∧ _ ∧ _ ∧ _) ∧
      (_ < _ ∧ ∀ p, p < _ → _ → _) ∧ (_ ∧ _ ∧ _) ∧ ∀ l ∈ lanesOf k.act, _) (by decide) fun _ h => h⟩

/-- A tile that holds 1 in its first word. -/
def tileOne (dual poison : Bool) : Tile := ⟨[(0, 0x3F800000)], false, false, false, false, false, poison, dual⟩

/-- Row 0 of that tile is scaled by 2^-8, the smallest power that keeps 1 within 448, and a row of zeros by 1. -/
theorem scale_tileOne : ∀ l, l < 32 → scaleOf 448 (fun n => (tileOne false false).word l n) (if l = 0 then -8 else 0) := by
  intro l hl
  cases l with
  | zero => exact ⟨fun h => absurd (h 0 (by decide)) (by decide), fun _ => ⟨by decide, by decide, Or.inl (by decide), Or.inr ⟨0, by decide, by decide⟩⟩⟩
  | succ l =>
    have zero : ∀ l, l < 31 → ∀ n, n < 64 → (fp32.unpack ((tileOne false false).word (l + 1) n)).isZero = true := by decide
    exact ⟨fun _ => rfl, fun h => absurd (fun n hn => Or.inl (zero l (by omega) n hn)) h⟩

/-- Drains to registers, to scratchpad lines with a scale, and as status; a poisoned tile; a dual tile that differs from its copy. -/
theorem test_witness_DrainsDeliverTheTile :
    (∃ s k, Issues s (.accrdReg (.v 8) (.s 4) false) k ∧ selOk (k.scalar (.s 4)) true false true ∧ tileFree k.sw 1 ∧
      tileOf (k.scalar (.s 4)) = 1 ∧ (k.sw.tile 1).poison = false ∧ copyDiffers k.sw k.act 1) ∧
    (∃ s k, Issues s (.accrdReg (.v 8) (.s 4) false) k ∧ selOk (k.scalar (.s 4)) true false true ∧ tileFree k.sw 1 ∧
      tileOf (k.scalar (.s 4)) = 1 ∧ (k.sw.tile 1).poison = true) ∧
    (∃ s k, Issues s (.accrdE4m3 (.s 4) (.s 5) false) k ∧ selOk (k.scalar (.s 4)) true false false ∧ tileFree k.sw 1 ∧
      tileOf (k.scalar (.s 4)) = 1 ∧ (k.sw.tile 1).poison = false ∧ rangeOk k 128 2048 (k.scalar (.s 5)).toNat ∧
      ∀ l, l < 32 → scaleOf 448 (fun n => (k.sw.tile 1).word l n) (if l = 0 then -8 else 0)) ∧
    ∃ s k, Issues s (.accrdStat (.s 9) (.s 4) false) k ∧ selOk (k.scalar (.s 4)) true false false ∧ tileFree k.sw (tileOf (k.scalar (.s 4))) :=
  ⟨⟨withS (withTiles (at_ (.accrdReg (.v 8) (.s 4) false)) fun x => { x with tiles := [(1, tileOne true false)] }) 4 0x7001,
      meets_of (p := fun k => (_ ∧ _ ∧ _ ∧ _ ∧ _) ∧ (_ < _ ∧ ∀ p, p < _ → _ → _) ∧ _ ∧ _ ∧ _ ∧ (k.sw.tile 1).word 0 0 ≠ (k.sw.tile 3).word 0 0 ∧
        k.act.getLsbD 0 = true ∧ k.sw.accMap.length = 4) (by decide)
        fun k h => ⟨h.1, h.2.1, h.2.2.1, h.2.2.2.1, h.2.2.2.2.1,
          Or.inr ⟨0, 0, by decide, by decide, h.2.2.2.2.2.2.1, by rw [h.2.2.2.2.2.2.2]; exact h.2.2.2.2.2.1⟩⟩⟩,
    ⟨withS (withTiles (at_ (.accrdReg (.v 8) (.s 4) false)) fun x => { x with tiles := [(1, tileOne false true)] }) 4 1,
      meets_of (p := fun k => (_ ∧ _ ∧ _ ∧ _ ∧ _) ∧ (_ < _ ∧ ∀ p, p < _ → _ → _) ∧ _ ∧ _) (by decide) fun _ h => h⟩,
    ⟨withS (withTiles (at_ (.accrdE4m3 (.s 4) (.s 5) false)) fun x => { x with tiles := [(1, tileOne false false)] }) 4 1,
      meets_of (p := fun k => (_ ∧ _ ∧ _ ∧ _ ∧ _) ∧ (_ < _ ∧ ∀ p, p < _ → _ → _) ∧ _ ∧ _ ∧ (_ ∧ _ ∧ _) ∧ k.sw.tile 1 = tileOne false false)
        (by decide) fun _ h => ⟨h.1, h.2.1, h.2.2.1, h.2.2.2.1, h.2.2.2.2.1, h.2.2.2.2.2 ▸ scale_tileOne⟩⟩,
    withTiles (at_ (.accrdStat (.s 9) (.s 4) false)) id,
      meets_of (p := fun k => (_ ∧ _ ∧ _ ∧ _ ∧ _) ∧ (_ < _ ∧ ∀ p, p < _ → _ → _)) (by decide) fun _ h => h⟩

def hadAt : Instr := .had (.s 4) (.s 5) false false true false

/-- Rows of the largest size, and a size that is reserved. -/
theorem test_witness_HadamardTransformsRows :
    (∃ s k, Issues s hadAt k ∧ k.sw.descFaults = [] ∧ (k.scalar (.s 4)).toNat = 0x2FF ∧ rangeOk k 32 65536 (k.scalar (.s 5)).toNat) ∧
    (∃ s k, Issues s hadAt k ∧ k.sw.descFaults = [] ∧ (k.scalar (.s 4)).toNat / 256 = 3) ∧
    ∃ s k, Issues s hadAt k ∧ k.sw.descFaults = [] ∧ (k.scalar (.s 4)).toNat = 1024 :=
  ⟨⟨withS (withTiles (at_ hadAt) id) 4 0x2FF, meets_of (p := fun k => _ ∧ _ ∧ (_ ∧ _ ∧ _)) (by decide) fun _ h => h⟩,
    ⟨withS (withTiles (at_ hadAt) id) 4 0x300, meets (by decide)⟩, withS (withTiles (at_ hadAt) id) 4 1024, meets (by decide)⟩

/-! ### Deadlines, energy accounts, collectives and the system instructions -/

def withDeadline (s : State) (d : Deadline) : State := { s with clusters := [(0, { s.cluster 0 with deadlines := [(1, d)] })] }
def step1 (opened : Bool) (rho : Option (Nat × Nat)) : Deadline := ⟨opened, 7, 5000, 90, 40, some (0, 0), false, [], rho⟩

/-- A step opened and ended; DLQ with no step open, one with no rate known, and one whose rate is known. -/
theorem test_witness_DeadlinesAndEnergy_deadlines : (∀ i ∈ [Instr.dlset (.s 1) (.s 2), .dlstep (.s 1) (.s 2), .dlend], ∃ s k d, Issues s i k ∧
      (chargedCluster s k i).deadlines.get? k.sw.ctx.toNat = some d) ∧
    (∀ o ∈ [(false, none), (true, none), (true, some (4, 3))], ∃ s k e, Issues s (.dlq (.s 8)) k ∧
      (chargedCluster s k (.dlq (.s 8))).deadlines.get? k.sw.ctx.toNat = some e ∧ e.opened = o.1 ∧ e.rho = o.2) := by
  have run : ∀ s i, (issuesNow s i && s.site?.any fun k => decide (((chargedCluster s k i).deadlines.get? k.sw.ctx.toNat).isSome = true)) = true →
      ∃ s k d, Issues s i k ∧ (chargedCluster s k i).deadlines.get? k.sw.ctx.toNat = some d := fun s i h =>
    have ⟨k, hI, hd⟩ := meets h
    ⟨s, k, _, hI, (Option.some_get hd).symm⟩
  have runq : ∀ o r, (issuesNow (withDeadline (at_ (.dlq (.s 8))) (step1 o r)) (.dlq (.s 8)) &&
      (withDeadline (at_ (.dlq (.s 8))) (step1 o r)).site?.any fun k => decide (((chargedCluster (withDeadline (at_ (.dlq (.s 8))) (step1 o r)) k
        (.dlq (.s 8))).deadlines.get? k.sw.ctx.toNat).any (fun e => e.opened == o && e.rho == r) = true)) = true →
      ∃ s k e, Issues s (.dlq (.s 8)) k ∧ (chargedCluster s k (.dlq (.s 8))).deadlines.get? k.sw.ctx.toNat = some e ∧ e.opened = o ∧ e.rho = r :=
    fun o r h => by
      have ⟨k, hI, hd⟩ := meets h
      cases he : (chargedCluster (withDeadline (at_ (.dlq (.s 8))) (step1 o r)) k (.dlq (.s 8))).deadlines.get? k.sw.ctx.toNat with
      | none => rw [he] at hd; cases hd
      | some e =>
        rw [he, Option.any_some, Bool.and_eq_true, beq_iff_eq, beq_iff_eq] at hd
        exact ⟨_, k, e, hI, he, hd⟩
  refine ⟨fun i hi => ?_, fun o ho => ?_⟩
  · simp only [List.mem_cons, List.not_mem_nil, or_false] at hi
    rcases hi with rfl | rfl | rfl
    · exact run (at_ (.dlset (.s 1) (.s 2))) _ (by decide)
    · exact run (at_ (.dlstep (.s 1) (.s 2))) _ (by decide)
    · exact run (at_ .dlend) _ (by decide)
  · simp only [List.mem_cons, List.not_mem_nil, or_false] at ho
    rcases ho with rfl | rfl | rfl
    · exact runq false none (by decide)
    · exact runq true none (by decide)
    · exact runq true (some (4, 3)) (by decide)

/-- The accounts of the issuing cluster: `n` bound to other contexts, none to context 1. -/
def withAccounts (s : State) (n : Nat) : State :=
  { s with clusters := [(0, { s.cluster 0 with accounts := (List.range n).map fun j => ⟨BitVec.ofNat 32 (j + 2), 5, false, false, false⟩ })] }

def ensaveAt : Instr := .ensave (.s 6) (.s 2) false
def enloadAt : Instr := .enload (.s 8) (.s 2) (.s 6) false

/-- A saved sum at its bound; an entry that is bound and one that is not; a reserved bit, no free entry, and the last free one. -/
theorem test_witness_DeadlinesAndEnergy_energy :
    (∃ s k, Issues s (.enrd (.s 4) false) k ∧ (s.ctx? k.sw.ctx).any (fun c => c.savedSum == 2 ^ 48 - 1) = true) ∧
    (∃ s k, Issues s ensaveAt k ∧ (chargedCluster s k ensaveAt).accounts.any (fun e => e.ctx == k.scalar (.s 2)) = true ∧
      (s.ctx? (k.scalar (.s 2))).isSome = true) ∧
    (∃ s k, Issues s ensaveAt k ∧ (chargedCluster s k ensaveAt).accounts.all (fun e => e.ctx != k.scalar (.s 2)) = true) ∧
    (∃ s k, Issues s enloadAt k ∧ (k.dword (.s 6) false 0).toNat / 2 ^ 48 % 2 ^ 15 ≠ 0) ∧
    (∃ s k, Issues s enloadAt k ∧ (k.dword (.s 6) false 0).toNat = 2 ^ 63 + 2 ^ 48 - 1 ∧
      (chargedCluster s k enloadAt).accounts.any (fun e => e.ctx == k.scalar (.s 2)) = false ∧
      (chargedCluster s k enloadAt).accounts.length = Config.accounts) ∧
    ∃ s k, Issues s enloadAt k ∧ (chargedCluster s k enloadAt).accounts.any (fun e => e.ctx == k.scalar (.s 2)) = false ∧
      (chargedCluster s k enloadAt).accounts.length + 1 = Config.accounts :=
  ⟨⟨{ at_ (.enrd (.s 4) false) with ctxs := (at_ (.enrd (.s 4) false)).ctxs.modify 1 fun c => { c with savedSum := 2 ^ 48 - 1 } }, meets (by decide)⟩,
    ⟨withS (at_ ensaveAt) 2 1, meets (by decide)⟩, ⟨withS (at_ ensaveAt) 2 99, meets (by decide)⟩,
    ⟨withS (at_ enloadAt) 7 0x10000, meets (by decide)⟩,
    ⟨withS (withS (withS (withAccounts (at_ enloadAt) 16) 6 0xFFFFFFFF) 7 0x8000FFFF) 2 1, meets (by decide)⟩,
    withS (withAccounts (at_ enloadAt) 15) 2 1, meets (by decide)⟩

theorem getD_mem {α : Type} : ∀ (t : Tab α) (n : Nat) (d : α), t.getD n d = d ∨ ∃ p ∈ t, p.2 = t.getD n d
  | [], _, _ => Or.inl rfl
  | (m, v) :: t, n, d => by
    simp only [Tab.getD, Tab.get?]
    split
    · exact Or.inr ⟨(m, v), List.mem_cons_self, rfl⟩
    · rcases getD_mem t n d with h | ⟨p, hp, h⟩
      · exact Or.inl h
      · exact Or.inr ⟨p, List.mem_cons_of_mem _ hp, h⟩

theorem quiet_of {s : State} (h : ((s.cores.all fun p => p.2.wbuf.isEmpty) && s.dies.all fun p => p.2.out.isEmpty) = true) : Quiet s := by
  simp only [Bool.and_eq_true, List.all_eq_true, List.isEmpty_iff] at h
  refine ⟨fun c => ?_, fun d => ?_⟩
  · rcases getD_mem s.cores c Core.reset with e | ⟨p, hp, e⟩
    · exact congrArg Core.wbuf e
    · exact (congrArg Core.wbuf e).symm.trans (h.1 p hp)
  · rcases getD_mem s.dies d Die.reset with e | ⟨p, hp, e⟩
    · exact congrArg Die.out e
    · exact (congrArg Die.out e).symm.trans (h.2 p hp)

def xredAt : Instr := .xred (.s 9) (.s 4) false

/-- A descriptor at the start of the first page: 32 bytes from 0x1000 to 0x2000, one member, named at 0x100, which is this package. -/
def collDescriptor : List Byte :=
  natBytes 8 0x1000 ++ natBytes 8 0x2000 ++ natBytes 8 32 ++ natBytes 8 0x100 ++ natBytes 8 1 ++ List.replicate 24 0

def collected : State :=
  let s := withS (withS (paged (at_ xredAt)) 4 0) 5 0
  { s with mem := memPutBytes s.mem 0x100000 collDescriptor }

def at0 (y : Nat) : Trans := ⟨0x100033, 16, 0x100000 + y⟩

theorem range_all {p : Nat → Bool} {a n : Nat} (h : (List.range n).all (fun j => p (a + j)) = true) : ∀ y, a ≤ y → y < a + n → p y = true := by
  intro y h1 h2
  have := List.all_eq_true.mp h (y - a) (by simp; omega)
  rwa [Nat.add_sub_of_le h1] at this

/-- XRED with every page of its ranges reached and a place free. -/
theorem test_witness_CollectivesRun_issue : ∃ s k, Issues s xredAt k ∧ collForm xredAt = some (1, .s 9, .s 4, none) ∧ k.act ≠ 0 ∧ Quiet s ∧
    (s.die k.die).notices = [] ∧ broken 64 (k.addr (.s 4) 0) = none ∧ Mapped s k .load (k.addr (.s 4) 0) (at0 0) ∧
    (s.loadBytes k.core k.die k.w.away (at0 0).pa 64 false).2.2 = none ∧ (s.loadBytes k.core k.die k.w.away (at0 0).pa 64 false).2.1 = collDescriptor ∧
    (broken 1 (BitVec.ofNat 64 0x100) = none ∧ Mapped s k .load (BitVec.ofNat 64 0x100) (at0 0x100)) ∧
    (∀ y, 0x1000 ≤ y → y < 0x1000 + 32 → broken 1 (BitVec.ofNat 64 y) = none ∧ Mapped s k .load (BitVec.ofNat 64 y) (at0 y)) ∧
    (∀ y, 0x2000 ≤ y → y < 0x2000 + 32 → broken 1 (BitVec.ofNat 64 y) = none ∧ Mapped s k .store (BitVec.ofNat 64 y) (at0 y)) ∧
    (s.die k.die).colls = [] ∧ plainDescOk 1 collDescriptor = true := by
  have ⟨k, hI, ha, hn, hb, hm, hl, hd, hx, h1, h2, hc⟩ := meets (s := collected) (i := xredAt) (p := fun k => k.act ≠ 0 ∧
    (collected.die k.die).notices = [] ∧ broken 64 (k.addr (.s 4) 0) = none ∧ mapsTo collected k .load (k.addr (.s 4) 0) = some (at0 0) ∧
    (collected.loadBytes k.core k.die k.w.away (at0 0).pa 64 false).2.2 = none ∧
    (collected.loadBytes k.core k.die k.w.away (at0 0).pa 64 false).2.1 = collDescriptor ∧
    (broken 1 (BitVec.ofNat 64 0x100) = none ∧ mapsTo collected k .load (BitVec.ofNat 64 0x100) = some (at0 0x100)) ∧
    (List.range 32).all (fun j => decide (broken 1 (BitVec.ofNat 64 (0x1000 + j)) = none ∧
      mapsTo collected k .load (BitVec.ofNat 64 (0x1000 + j)) = some (at0 (0x1000 + j)))) = true ∧
    (List.range 32).all (fun j => decide (broken 1 (BitVec.ofNat 64 (0x2000 + j)) = none ∧
      mapsTo collected k .store (BitVec.ofNat 64 (0x2000 + j)) = some (at0 (0x2000 + j)))) = true ∧
    (collected.die k.die).colls = []) (by decide)
  refine ⟨_, k, hI, rfl, ha, quiet_of (by decide), hn, hb, mapsTo_mapped hm, hl, hd, ⟨hx.1, mapsTo_mapped hx.2⟩, fun y y1 y2 => ?_,
    fun y y1 y2 => ?_, hc, by decide⟩
  · have := of_decide_eq_true (range_all (p := fun y => decide (broken 1 (BitVec.ofNat 64 y) = none ∧
      mapsTo collected k .load (BitVec.ofNat 64 y) = some (at0 y))) h1 y y1 y2)
    exact ⟨this.1, mapsTo_mapped this.2⟩
  · have := of_decide_eq_true (range_all (p := fun y => decide (broken 1 (BitVec.ofNat 64 y) = none ∧
      mapsTo collected k .store (BitVec.ofNat 64 y) = some (at0 y))) h2 y y1 y2)
    exact ⟨this.1, mapsTo_mapped this.2⟩

def haltAt : Instr := .halt (.s 1)
def quiesceAt (stop : Bool) : Instr := if stop then .quiesceStop (.s 1) (.s 2) else .quiesce (.s 1) (.s 2)

/-- Partition 0 of cluster 1, serving context 1. -/
def withPart (s : State) (q : Option Quiesce) : State := { s with parts := [(0, ⟨2, 1, 0, 0, 0, 0, some 1, false, q⟩)] }

/-- HALT of an unknown context, of one that runs, and its end; QUIESCE of no core, of the most and of one too many, one in progress,
its end; .stop of all. -/
theorem test_witness_HaltQuiesceAndSwap_halt :
    (∃ s k, Issues s haltAt k ∧ s.ctx? (k.scalar (.s 1)) = none) ∧
    (∃ s k, Issues s haltAt k ∧ (s.ctx? (k.scalar (.s 1))).any (fun c => !c.halted) = true) ∧
    (∃ s k x, Resumes s haltAt k x ∧ s.allStopped (k.scalar (.s 1)) = true) ∧
    (∃ s k, Issues s (.haltResume (.s 1)) k ∧ (s.ctx? (k.scalar (.s 1))).any (fun c => c.halted) = true) ∧
    (∀ p ∈ [(false, (5 : Word)), (true, 6), (false, 6), (true, 7), (false, 0)], ∃ s k, Issues s (quiesceAt p.1) k ∧ k.act ≠ 0 ∧
      k.word (.s 2) 1 0 = p.2 ∧ (s.parts.get? (k.word (.s 2) 0 0).toNat).any (fun q => q.quiesce.isNone && (s.partCores q).length == 6) = true) ∧
    (∃ s k, Issues s (quiesceAt false) k ∧ k.act ≠ 0 ∧ k.word (.s 2) 1 0 = 1 ∧
      (s.parts.get? (k.word (.s 2) 0 0).toNat).any (fun q => q.quiesce.isSome && (s.partCores q).length == 6) = true) ∧
    (∃ s k, Issues s (quiesceAt true) k ∧ k.act ≠ 0 ∧ s.parts.get? (k.word (.s 2) 0 0).toNat = none) ∧
    ∃ s k x, Resumes s (quiesceAt false) k x ∧ k.act ≠ 0 ∧ x.woken = true := by
  have run : ∀ stop n, (issuesNow (withPart (withS (at_ (quiesceAt stop)) 3 n) none) (quiesceAt stop) &&
      (withPart (withS (at_ (quiesceAt stop)) 3 n) none).site?.any fun k => decide (k.act ≠ 0 ∧ k.word (.s 2) 1 0 = n ∧
        ((withPart (withS (at_ (quiesceAt stop)) 3 n) none).parts.get? (k.word (.s 2) 0 0).toNat).any (fun q => q.quiesce.isNone &&
          ((withPart (withS (at_ (quiesceAt stop)) 3 n) none).partCores q).length == 6) = true)) = true →
      ∃ s k, Issues s (quiesceAt stop) k ∧ k.act ≠ 0 ∧ k.word (.s 2) 1 0 = n ∧
        (s.parts.get? (k.word (.s 2) 0 0).toNat).any (fun q => q.quiesce.isNone && (s.partCores q).length == 6) = true :=
    fun stop n h => ⟨_, meets h⟩
  refine ⟨⟨withS (at_ haltAt) 1 5, meets (by decide)⟩, ⟨withS (at_ haltAt) 1 1, meets (by decide)⟩,
    ⟨next haltAt (withS (at_ haltAt) 1 1), resumes (by decide)⟩,
    ⟨withS { at_ (.haltResume (.s 1)) with ctxs := (at_ (.haltResume (.s 1))).ctxs.modify 1 fun c => { c with halted := true } } 1 1,
      meets (by decide)⟩, fun p hp => ?_,
    ⟨withPart (withS (at_ (quiesceAt false)) 3 1) (some ⟨[6], [], false, []⟩), meets (by decide)⟩, ⟨at_ (quiesceAt true), meets (by decide)⟩,
    withWeft (next (quiesceAt false) (withPart (withS (at_ (quiesceAt false)) 3 1) none))
      fun w => { w with wait := w.wait.map fun x => { x with woken := true } }, resumes (by decide)⟩
  simp only [List.mem_cons, List.not_mem_nil, or_false] at hp
  rcases hp with rfl | rfl | rfl | rfl | rfl
  · exact run false 5 (by decide)
  · exact run true 6 (by decide)
  · exact run false 6 (by decide)
  · exact run true 7 (by decide)
  · exact run false 0 (by decide)

def swapAt : Instr := .ctxswap (.s 1) (.s 2)

/-- Cores of cluster 1 that stand, all or all but the last, with this shadow. -/
def withStopped (s : State) (n : Nat) (shadow : Option Word) : State :=
  { withPart s none with cores := (List.range n).map fun j => (6 + j, { Core.reset with stopped := true, shadow := shadow }) }

def swapOf (s : State) (k : Site) (part : Nat) (all fresh back : Bool) : Bool :=
  (k.word (.s 2) 0 0).toNat == part && (s.parts.get? part).any fun p =>
    let cores := s.partCores p
    let inc := k.word (.s 2) 1 0
    (p.quiesce.isNone && cores.all fun c => (s.core c).stopped) == all &&
      (cores.all (fun c => (s.core c).shadow.isNone) && (inc == 0xFFFFFFFF || ((s.ctx? inc).any (fun x => x.part == part) &&
        s.cores.all fun q => q.2.shadow != some inc))) == fresh && (!cores.isEmpty && cores.all fun c => (s.core c).shadow == some inc) == back

/-- CTXSWAP with a core still running, into no context, of a context that is in no shadow, back from the shadow, and onto a shadow that is taken. -/
theorem test_witness_HaltQuiesceAndSwap_swap : ∀ p ∈ [((5 : Nat), (none : Option Word), (1 : Word), false, true, false),
    (6, none, 0xFFFFFFFF, true, true, false), (6, none, 1, true, true, false), (6, some 1, 1, true, false, true), (6, some 9, 1, true, false, false)],
    ∃ s k, Issues s swapAt k ∧ k.act ≠ 0 ∧ k.word (.s 2) 1 0 = p.2.2.1 ∧ swapOf s k 0 p.2.2.2.1 p.2.2.2.2.1 p.2.2.2.2.2 = true := by
  have run : ∀ n sh inc a b c, (issuesNow (withStopped (withS (at_ swapAt) 3 inc) n sh) swapAt &&
      (withStopped (withS (at_ swapAt) 3 inc) n sh).site?.any fun k => decide (k.act ≠ 0 ∧ k.word (.s 2) 1 0 = inc ∧
        swapOf (withStopped (withS (at_ swapAt) 3 inc) n sh) k 0 a b c = true)) = true →
      ∃ s k, Issues s swapAt k ∧ k.act ≠ 0 ∧ k.word (.s 2) 1 0 = inc ∧ swapOf s k 0 a b c = true := fun _ _ _ _ _ _ h => ⟨_, meets h⟩
  intro p hp
  simp only [List.mem_cons, List.not_mem_nil, or_false] at hp
  rcases hp with rfl | rfl | rfl | rfl | rfl
  · exact run 5 none 1 false true false (by decide)
  · exact run 6 none 0xFFFFFFFF true true false (by decide)
  · exact run 6 none 1 true true false (by decide)
  · exact run 6 (some 1) 1 true false true (by decide)
  · exact run 6 (some 9) 1 true false false (by decide)

def tlbinvAt (l : Bool) : Instr := .tlbinv (.s 4) (.s 8) l
def pgattrAt : Instr := .pgattr (.s 1) (.s 4)

/-- What the tables hold for an address, as data. -/
def leafIs (s : State) (root va : Nat) (r : Nat × Nat × Nat) : Bool :=
  match s.walk root va with
  | .ok x => x == r
  | .error _ => false

theorem leafIs_ok {s : State} {root va : Nat} {r : Nat × Nat × Nat} (h : leafIs s root va r = true) : s.walk root va = .ok r := by
  unfold leafIs at h
  split at h
  · rename_i hw; rw [hw, eq_of_beq h]
  · cases h

/-- TLBINV with a reserved field, of an unknown context, of a page and of all; PGATTR with a reserved bit, of an unknown context, of an
absent page, and of a page whose attributes it may change. -/
theorem test_witness_TranslationsAreInvalidated :
    (∃ s k, Issues s (tlbinvAt true) k ∧ k.act ≠ 0 ∧ Quiet s ∧ k.word (.s 8) 1 0 ≠ 0) ∧
    (∃ s k, Issues s (tlbinvAt true) k ∧ k.act ≠ 0 ∧ Quiet s ∧ k.word (.s 8) 1 0 = 0 ∧ s.ctx? (k.word (.s 8) 0 0) = none) ∧
    (∃ s k, Issues s (tlbinvAt true) k ∧ k.act ≠ 0 ∧ Quiet s ∧ k.word (.s 8) 1 0 = 0 ∧ (s.ctx? (k.word (.s 8) 0 0)).isSome = true) ∧
    (∃ s k, Issues s (tlbinvAt false) k ∧ k.act ≠ 0 ∧ Quiet s ∧ k.word (.s 8) 1 0 = 0 ∧ (s.ctx? (k.word (.s 8) 0 0)).isSome = true ∧
      (s.cluster 0).tlb ≠ []) ∧
    (∃ s k, Issues s pgattrAt k ∧ k.act ≠ 0 ∧ Quiet s ∧ (k.word (.s 4) 1 0).toNat = 2 ^ 12) ∧
    (∃ s k, Issues s pgattrAt k ∧ k.act ≠ 0 ∧ Quiet s ∧ s.ctx? (k.word (.s 4) 0 0) = none) ∧
    (∃ s k, Issues s pgattrAt k ∧ k.act ≠ 0 ∧ Quiet s ∧ (s.ctx? (k.word (.s 4) 0 0)).isSome = true ∧ s.walkPa 1 0x40000 = .error 0x08 ∧
      (k.word (.s 4) 2 0).toNat = 0x40000) ∧
    ∃ s k, Issues s pgattrAt k ∧ k.act ≠ 0 ∧ Quiet s ∧ (k.word (.s 4) 0 0 = 1 ∧ k.word (.s 4) 1 0 = 0xC00 ∧
      (k.word (.s 4) 3 0 ++ k.word (.s 4) 2 0).toNat = 0 ∧ (s.ctx? 1).any (fun c => c.root == 0x10000) = true ∧ s.pins 1 = []) ∧
      s.walk 0x10000 0 = .ok (0x100033, 0x40000, 16) ∧ Settled s k [0x40000] := by
  refine ⟨⟨withS (at_ (tlbinvAt true)) 9 1, (meets_of (p := fun k => k.act ≠ 0 ∧ k.word (.s 8) 1 0 ≠ 0) (by decide)
      fun k h => ⟨h.1, quiet_of (by decide), h.2⟩)⟩,
    ⟨withS (at_ (tlbinvAt true)) 8 9, (meets_of (p := fun k => k.act ≠ 0 ∧ k.word (.s 8) 1 0 = 0 ∧
      (withS (at_ (tlbinvAt true)) 8 9).ctx? (k.word (.s 8) 0 0) = none) (by decide) fun k h => ⟨h.1, quiet_of (by decide), h.2⟩)⟩,
    ⟨withS (at_ (tlbinvAt true)) 8 1, (meets_of (p := fun k => k.act ≠ 0 ∧ k.word (.s 8) 1 0 = 0 ∧
      ((withS (at_ (tlbinvAt true)) 8 1).ctx? (k.word (.s 8) 0 0)).isSome = true) (by decide) fun k h => ⟨h.1, quiet_of (by decide), h.2⟩)⟩,
    ⟨withS { at_ (tlbinvAt false) with clusters := [(0, { (at_ (tlbinvAt false)).cluster 0 with tlb := [⟨1, 0, 16, 0x100033, 0⟩] })] } 8 1,
      (meets_of (p := fun k => k.act ≠ 0 ∧ k.word (.s 8) 1 0 = 0 ∧
        ((withS { at_ (tlbinvAt false) with clusters := [(0, { (at_ (tlbinvAt false)).cluster 0 with tlb := [⟨1, 0, 16, 0x100033, 0⟩] })] } 8 1).ctx?
          (k.word (.s 8) 0 0)).isSome = true) (by decide) fun k h => ⟨h.1, quiet_of (by decide), h.2.1, h.2.2, by decide⟩)⟩,
    ⟨withS (at_ pgattrAt) 5 0x1000, (meets_of (p := fun k => k.act ≠ 0 ∧ (k.word (.s 4) 1 0).toNat = 2 ^ 12) (by decide)
      fun k h => ⟨h.1, quiet_of (by decide), h.2⟩)⟩,
    ⟨at_ pgattrAt, (meets_of (p := fun k => k.act ≠ 0 ∧ (at_ pgattrAt).ctx? (k.word (.s 4) 0 0) = none) (by decide)
      fun k h => ⟨h.1, quiet_of (by decide), h.2⟩)⟩,
    ⟨withS (withS (paged (at_ pgattrAt)) 4 1) 6 0x40000, (meets_of (p := fun k => k.act ≠ 0 ∧
      ((withS (withS (paged (at_ pgattrAt)) 4 1) 6 0x40000).ctx? (k.word (.s 4) 0 0)).isSome = true ∧ (k.word (.s 4) 2 0).toNat = 0x40000)
      (by decide) fun k h => ⟨h.1, quiet_of (by decide), h.2.1, walkIs_error (by decide), h.2.2⟩)⟩,
    withS (withS (paged (at_ pgattrAt)) 4 1) 5 0xC00, (meets_of (p := fun k => k.act ≠ 0 ∧ (k.word (.s 4) 0 0 = 1 ∧ k.word (.s 4) 1 0 = 0xC00 ∧
      (k.word (.s 4) 3 0 ++ k.word (.s 4) 2 0).toNat = 0 ∧ ((withS (withS (paged (at_ pgattrAt)) 4 1) 5 0xC00).ctx? 1).any
        (fun c => c.root == 0x10000) = true ∧ (withS (withS (paged (at_ pgattrAt)) 4 1) 5 0xC00).pins 1 = []) ∧
      settledAt (withS (withS (paged (at_ pgattrAt)) 4 1) 5 0xC00) k [0x40000] = true)
      (by decide) fun k h => ⟨h.1, quiet_of (by decide), h.2.1, leafIs_ok (by decide), settledAt_settled h.2.2⟩)⟩

/-! ### Events of wefts and swatches -/

theorem any_some {α : Type} {o : Option α} {p : α → Prop} [DecidablePred p] (h : (o.any fun x => decide (p x)) = true) : ∃ x, o = some x ∧ p x := by
  cases o with
  | none => cases h
  | some x => exact ⟨x, rfl, of_decide_eq_true h⟩

/-- A resident weft with the entry at the head of its frontier as its top, and a property. -/
theorem resident {s : State} {sid wid : Nat} {p : Swatch → Weft → Entry → Prop} [∀ a b c, Decidable (p a b c)]
    (h : ((s.swatch? sid).any fun sw => (s.weft? sid wid).any fun w => w.frontier.head?.any fun e => decide ((w.place ≠ .absent ∧
      w.ended = false ∧ w.halted = none) ∧ (∀ x ∈ w.frontier, x.prio < e.prio ∨ (x.prio = e.prio ∧ e.pc.toNat ≤ x.pc.toNat)) ∧
      (w.frontier.Pairwise fun a b => a.pc ≠ b.pc) ∧ p sw w e)) = true) :
    ∃ (sw : Swatch) (w : Weft) (e : Entry), Resident s sid wid sw w ∧ Top w e ∧ p sw w e := by
  cases h1 : s.swatch? sid with
  | none => rw [h1] at h; cases h
  | some sw =>
    cases h2 : s.weft? sid wid with
    | none => rw [h1, h2] at h; cases h
    | some w =>
      cases h3 : w.frontier.head? with
      | none => rw [h1, h2, Option.any_some, Option.any_some, h3] at h; cases h
      | some e =>
        rw [h1, h2, Option.any_some, Option.any_some, h3] at h
        obtain ⟨⟨ha, hb⟩, hc, hd, hp⟩ := of_decide_eq_true h
        exact ⟨sw, w, e, ⟨h1, h2, ha, hb⟩, ⟨List.mem_of_mem_head? h3, hc, hd⟩, hp⟩

/-- The weft at a clause boundary, its top entry at a header, another entry behind it. -/
def atHeader (s : State) (hdr : Word) : State :=
  withWeft s fun w => { w with clause := none, frontier := [⟨hdr, hdr, 3, 1, false⟩, ⟨8, 8, 2, 2, false⟩] }

/-- The first code line in the instruction cache. -/
def withLine (s : State) (words : List Word) : State :=
  { s with clusters := [(0, { s.cluster 0 with icache := [⟨1, 0, words ++ List.replicate (16 - words.length) 0⟩] })] }

/-- A header past the code segment, a zero word, a clause too short for its header, and one that begins; each pending trap, and none. -/
theorem test_witness_ClausesTrapsAndCompletions_clauses :
    (∃ (s : State) (sw : Swatch) (w : Weft) (e : Entry), Resident s 0 0 sw w ∧ Top w e ∧ w.clause = none ∧ w.wait = none ∧ e.hdr.toNat = s.codeSize sw.ctx ∧ w.trapMode = false) ∧
    (∃ (s : State) (sw : Swatch) (w : Weft) (e : Entry), Resident s 0 0 sw w ∧ Top w e ∧ w.clause = none ∧ w.wait = none ∧ e.hdr = 0 ∧ s.cachedWord sw.clu sw.ctx 0 = some 0 ∧
      s.cachedWord sw.clu sw.ctx 4 = some 0 ∧ s.missingLine sw.clu sw.ctx 0 = none) ∧
    (∀ ok, ∃ (s : State) (sw : Swatch) (w : Weft) (e : Entry), Resident s 0 0 sw w ∧ Top w e ∧ w.clause = none ∧ w.wait = none ∧ e.hdr = 0 ∧
      (s.cachedWord sw.clu sw.ctx 0).any (fun h0 => h0 != 0 && (s.cachedWord sw.clu sw.ctx 4).any fun h1 => clauseOk h0 h1
        ((List.range (clauseLen h0)).map fun j => (s.cachedWord sw.clu sw.ctx (8 + 4 * j)).getD 0) == ok) = true ∧
      s.missingLine sw.clu sw.ctx 0 = none) ∧
    ∀ p ∈ [(⟨[(64, 5)], [1], [7], true⟩ : Pending), ⟨[], [1], [7], true⟩, ⟨[], [], [7], true⟩, ⟨[], [], [], true⟩,
      ⟨[], [], [], false⟩], ∃ (s : State) (sw : Swatch) (w : Weft) (e : Entry), Resident s 0 0 sw w ∧ Top w e ∧ w.clause = none ∧ w.wait = none ∧ w.trapMode = false ∧ w.pend = p := by
  refine ⟨⟨atHeader (at_ .nop) 4096, resident (by decide)⟩, ⟨withLine (atHeader (at_ .nop) 0) [], resident (by decide)⟩, fun ok => ?_, fun p hp => ?_⟩
  · cases ok
    · exact ⟨withLine (atHeader (at_ .nop) 0) [0xFFFFFFFF], resident (by decide)⟩
    · exact ⟨atHeader (at_ .nop) 0, resident (by decide)⟩
  · simp only [List.mem_cons, List.not_mem_nil, or_false] at hp
    have run : ∀ p : Pending, (((withWeft (atHeader (at_ .nop) 0) fun w => { w with pend := p }).swatch? 0).any fun sw =>
        ((withWeft (atHeader (at_ .nop) 0) fun w => { w with pend := p }).weft? 0 0).any fun w => w.frontier.head?.any fun e => decide ((w.place ≠ .absent ∧
          w.ended = false ∧ w.halted = none) ∧ (∀ x ∈ w.frontier, x.prio < e.prio ∨ (x.prio = e.prio ∧ e.pc.toNat ≤ x.pc.toNat)) ∧
          (w.frontier.Pairwise fun a b => a.pc ≠ b.pc) ∧ w.clause = none ∧ w.wait = none ∧ w.trapMode = false ∧ w.pend = p)) = true →
        ∃ (s : State) (sw : Swatch) (w : Weft) (e : Entry), Resident s 0 0 sw w ∧ Top w e ∧ w.clause = none ∧ w.wait = none ∧ w.trapMode = false ∧ w.pend = p := fun p h => ⟨_, resident h⟩
    rcases hp with rfl | rfl | rfl | rfl | rfl <;> exact run _ (by decide)

/-- The weft has one flight, whose flag counts it. -/
def flying (f : Flight) : State := withWeft (at_ .nop) fun w => { w with flights := [f], flags := [(f.flag, 1)] }

def flightOf (k : FlightKind) : Flight := ⟨3, 8, [(2, 0xFF, List.replicate 32 1)], [(5, 1)], none, 1, k, 1, 0⟩

/-- A weft that is there, with a property. -/
theorem weftAt {s : State} {sid wid : Nat} {p : Weft → Prop} [DecidablePred p] (h : ((s.weft? sid wid).any fun w => decide (p w)) = true) :
    ∃ (w : Weft), s.weft? sid wid = some w ∧ p w := any_some h

theorem test_witness_ClausesTrapsAndCompletions_flights :
    (∀ k ∈ [FlightKind.plain, .enlarger, .exposure 1, .spadWrite [(5, 9)] [(0, 1)], .unshape 3], ∃ (s : State) (w : Weft) (f : Flight), s.weft? 0 0 = some w ∧ w.flights[0]? = some f ∧
      (s.swatch? 0).isSome = true ∧ f.poison = none ∧ (f.vwr.map fun x => x.1).Nodup ∧ (f.swr.map fun x => x.1).Nodup ∧ f.kind = k ∧
      s.recordBusy 0 3 = false ∧ f.vwr ≠ [] ∧ f.swr ≠ []) ∧
    (∃ (s : State) (w : Weft), s.weft? 0 0 = some w ∧ w.ended = true ∧ (∀ p ∈ w.flags, p.2 = 0) ∧ w.flights = [] ∧ w.place ≠ .absent) ∧
    ∃ (s : State) (w : Weft), s.weft? 0 0 = some w ∧ w.ended = false := by
  refine ⟨fun k hk => ?_, ⟨withWeft (at_ .nop) fun w => { w with ended := true, flags := [(3, 0)] }, weftAt (by decide)⟩, at_ .nop, weftAt (by decide)⟩
  have run : ∀ k, (((flying (flightOf k)).weft? 0 0).any fun w => decide
      (w.flights = [flightOf k])) = true →
      (flying (flightOf k)).recordBusy 0 3 = false →
      ∃ (s : State) (w : Weft) (f : Flight), s.weft? 0 0 = some w ∧ w.flights[0]? = some f ∧
      (s.swatch? 0).isSome = true ∧ f.poison = none ∧ (f.vwr.map fun x => x.1).Nodup ∧ (f.swr.map fun x => x.1).Nodup ∧ f.kind = k ∧
      s.recordBusy 0 3 = false ∧ f.vwr ≠ [] ∧ f.swr ≠ [] := fun k h hb =>
    have ⟨w, hw, hf⟩ := weftAt h
    ⟨_, w, flightOf k, hw, by rw [hf]; rfl, rfl, rfl, (by decide : [2].Nodup), (by decide : [5].Nodup), rfl, hb, List.cons_ne_nil _ _, List.cons_ne_nil _ _⟩
  simp only [List.mem_cons, List.not_mem_nil, or_false] at hk
  rcases hk with rfl | rfl | rfl | rfl | rfl <;> exact run _ (by decide) (by decide)

def loopOf (n : Nat) : Loupe := { Loupe.idle with tracking := true, count := n, lastLoads := some [⟨8, [(false, 32)], [1]⟩] }

/-- A wait of the weft. -/
def waiting (i : Instr) (f : WaitForm) : State :=
  withWeft (at_ i) fun w => { w with wait := some ⟨i, ⟨0, 0, true⟩, f, 3, false, none, 0⟩ }

/-- A code page that is reached; eight iterations and seven; a hang at its limit, one short of it and one posted; a breakpoint; a line that
has become full, a watched sector, a version waiter; a deferral that ends now and one that ends in the next cycle. -/
theorem test_witness_WatchersWakesAndArrivals_watchers :
    (∃ (s : State), (match s.access none 0 1 .fetch (((s.ctx? 1).map fun c => c.code).getD 0 + 64) with
      | (_, .ok x) => x == ⟨0x100073, 16, 0x100040⟩ | _ => false) = true) ∧
    (∃ (s : State) (w : Weft), s.weft? 0 0 = some w ∧ w.loupe.tracking = true ∧ w.loupe.polling = false ∧ w.loupe.count = 8) ∧
    (∃ (s : State) (w : Weft), s.weft? 0 0 = some w ∧ w.loupe.count = 7) ∧
    (∃ (s : State) (sw : Swatch) (w : Weft) (e : Entry), Resident s 0 0 sw w ∧ Top w e ∧ w.safelight = Config.safelightLimit ∧ w.hangPosted = false) ∧
    (∃ (s : State) (sw : Swatch) (w : Weft) (e : Entry), Resident s 0 0 sw w ∧ Top w e ∧ w.safelight + 1 = Config.safelightLimit) ∧
    (∃ (s : State) (sw : Swatch) (w : Weft) (e : Entry), Resident s 0 0 sw w ∧ Top w e ∧ w.hangPosted = true) ∧
    (∃ (s : State) (sw : Swatch) (w : Weft) (e : Entry), Resident s 0 0 sw w ∧ Top w e ∧ w.clause = none ∧ w.wait = none ∧ (sw.ctx, e.pc) ∈ s.pkg.breaks ∧ sw.ctx ∉ s.pkg.stoppedCtx) ∧
    (∃ (s : State) (sw : Swatch), s.swatch? 0 = some sw ∧ (∀ q ∈ sw.wefts, q.2.place ≠ .absent) ∧ (sw.wefts.map fun q => q.1).Nodup ∧ s.cores = [] ∧
      ∃ q ∈ sw.wefts, ∃ x, q.2.wait = some x ∧ x.form = .fullEmpty [4] true ∧ 4 ∈ sw.full) ∧
    (∃ (s : State) (w : Weft), s.weft? 0 0 = some w ∧ w.place ≠ .absent ∧ (w.wait.any fun x => x.form == .watch) = true ∧ (w.watch.any fun e => e.sector == 64) = true) ∧
    (∃ (s : State) (w : Weft), s.weft? 0 0 = some w ∧ w.place ≠ .absent ∧ w.versionWaits 1 (some 64) = true) ∧
    (∃ (s : State) (sw : Swatch), s.swatch? 0 = some sw ∧ sw.deferTo = some (s.cluster sw.clu).clk) ∧
    ∃ (s : State) (sw : Swatch) (c : Nat), s.swatch? 0 = some sw ∧ sw.deferTo = some c ∧ c = (s.cluster sw.clu).clk + 1 := by
  refine ⟨⟨{ paged (at_ .nop) with mem := memPutBytes (paged (at_ .nop)).mem 0x40000 (natBytes 8 0x100073) }, by decide⟩,
    ⟨withWeft (at_ .nop) fun w => { w with loupe := loopOf 8 }, weftAt (by decide)⟩,
    ⟨withWeft (at_ .nop) fun w => { w with loupe := loopOf 7 }, weftAt (by decide)⟩,
    ⟨withWeft (at_ .nop) fun w => { w with safelight := 1048576 }, resident (by decide)⟩,
    ⟨withWeft (at_ .nop) fun w => { w with safelight := 1048575 }, resident (by decide)⟩,
    ⟨withWeft (at_ .nop) fun w => { w with hangPosted := true }, resident (by decide)⟩,
    ⟨{ atHeader (at_ .nop) 0 with pkg := { (at_ .nop).pkg with breaks := [(1, 0)] } }, resident (by decide)⟩,
    ?_, ⟨withWeft (waiting (.waitw (.s 5) false false) .watch) fun w => { w with watch := [⟨64, false, false⟩] }, weftAt (by decide)⟩,
    ⟨waiting (.vld (.v 4) (.v 2) (.v 6) false false false false) (.version [(1, 64, 2, 1)] false false false), weftAt (by decide)⟩,
    ⟨withSw (at_ .nop) fun x => { x with deferTo := some 0 }, any_some (by decide)⟩,
    withSw (at_ .nop) fun x => { x with deferTo := some 1 }, ?_⟩
  · have ⟨sw, hs, hp⟩ := any_some (p := fun sw : Swatch => (∀ q ∈ sw.wefts, q.2.place ≠ .absent) ∧ (sw.wefts.map fun q => q.1).Nodup ∧
      (∃ q ∈ sw.wefts, (q.2.wait.any fun x => x.form == .fullEmpty [4] true) = true) ∧ 4 ∈ sw.full)
      (o := (withSw (waiting (.fewait (.s 4) false false) (.fullEmpty [4] true)) fun x => { x with full := [4] }).swatch? 0) (by decide)
    obtain ⟨h1, h2, ⟨q, hq, hx⟩, h4⟩ := hp
    cases hw : q.2.wait with
    | none => rw [hw] at hx; cases hx
    | some x => rw [hw] at hx; exact ⟨_, sw, hs, h1, h2, rfl, q, hq, x, hw, eq_of_beq hx, h4⟩
  · have ⟨sw, hs, hp⟩ := any_some (p := fun sw : Swatch => sw.deferTo = some 1 ∧
      1 = ((withSw (at_ .nop) fun x => { x with deferTo := some 1 }).cluster sw.clu).clk + 1)
      (o := (withSw (at_ .nop) fun x => { x with deferTo := some 1 }).swatch? 0) (by decide)
    exact ⟨sw, 1, hs, hp⟩

def task1 (n : Nat) : List Task := (List.range n).map fun j => ⟨0, 16, BitVec.ofNat 64 j, 0⟩
def withPool (s : State) (p : List Task) (clk : Nat) : State :=
  { s with launches := s.launches.modify 0 fun l => { l with pool := p, liveTasks := p.length }, clusters := [(0, { s.cluster 0 with clk := clk })] }

/-- A unit whose last member has ended; a wake message of an ended phase and a wake record for a waiting weft; a full group of tasks, and a
smaller one whose first task has waited 256 cycles. -/
theorem test_witness_WatchersWakesAndArrivals_arrivals :
    (∃ (s : State) (sw : Swatch) (l : Launch), s.swatch? 0 = some sw ∧ s.launches.get? sw.launch = some l ∧
      (match arriveAt (s.barRec 0 sw .bo 31) sw.swi l.swatches (s.unitsLive 0 sw .bo) (sw.parts.getD 63 ⟨[], 0, false, none⟩).carried with
        | .ok r => r.phase == 1 | .error _ => false) = true ∧ (sw.parts.getD 63 ⟨[], 0, false, none⟩).due = some (0, 0)) ∧
    (∃ (s : State) (sw : Swatch) (w : Weft) (e : Entry), Resident s 0 0 sw w ∧ Top w e ∧ sw.core? = some 0 ∧ (s.core 0).wakeMsgs = [⟨.sw, 31, 1, 0, 0⟩] ∧ s.inGroup 0 .sw 0 0 sw = true ∧
      (w.wait.any fun x => x.form == .bar .sw 31 0) = true ∧ w.flights = [] ∧ (s.barRec 0 sw .sw 31).phase = 1) ∧
    (∃ (s : State) (w : Weft), s.weft? 0 0 = some w ∧ w.wait ≠ none ∧ (s.core 0).wakeQ = [⟨1, 4, 0, some 0, 0⟩]) ∧
    (∃ (s : State) (l : Launch), s.launches.get? 0 = some l ∧ l.pool = task1 33 ∧ ((l.pool.filter fun y => y.sid == 0 && y.entry == 16).take 32).length = 32 ∧
      (s.swatch? 0).isSome = true) ∧
    ∃ (s : State) (l : Launch), s.launches.get? 0 = some l ∧ l.pool = task1 5 ∧ (s.cluster 0).clk = 256 ∧ (s.swatch? 0).isSome = true := by
  refine ⟨⟨withSw (at_ .nop) fun x => { x with parts := [(63, ⟨[], 1, false, some (0, 0)⟩)] }, ?_⟩,
    ⟨{ withSw (waiting barAt (.bar .sw 31 0)) fun x => { x with bars := [(31, ⟨1, false, 2, 0, []⟩)] } with
      cores := [(0, { Core.reset with wakeMsgs := [⟨.sw, 31, 1, 0, 0⟩] })] }, resident (by decide)⟩,
    ⟨{ waiting (.fewait (.s 4) false false) (.fullEmpty [4] true) with cores := [(0, { Core.reset with wakeQ := [⟨1, 4, 0, some 0, 0⟩] })] },
      weftAt (by decide)⟩,
    ⟨withPool (at_ .nop) (task1 33) 0, any_some (by decide)⟩, withPool (at_ .nop) (task1 5) 256, any_some (by decide)⟩
  have ⟨sw, hs, hp⟩ := any_some (p := fun sw : Swatch => ((withSw (at_ .nop) fun x =>
      { x with parts := [(63, ⟨[], 1, false, some (0, 0)⟩)] }).launches.get? sw.launch).any (fun l =>
      (match arriveAt ((withSw (at_ .nop) fun x => { x with parts := [(63, ⟨[], 1, false, some (0, 0)⟩)] }).barRec 0 sw .bo 31) sw.swi l.swatches
        ((withSw (at_ .nop) fun x => { x with parts := [(63, ⟨[], 1, false, some (0, 0)⟩)] }).unitsLive 0 sw .bo)
        (sw.parts.getD 63 ⟨[], 0, false, none⟩).carried with
        | .ok r => r.phase == 1 | .error _ => false) && (sw.parts.getD 63 ⟨[], 0, false, none⟩).due == some (0, 0)) = true)
      (o := (withSw (at_ .nop) fun x => { x with parts := [(63, ⟨[], 1, false, some (0, 0)⟩)] }).swatch? 0) (by decide)
  cases hl : (withSw (at_ .nop) fun x => { x with parts := [(63, ⟨[], 1, false, some (0, 0)⟩)] }).launches.get? sw.launch with
  | none => rw [hl] at hp; cases hp
  | some l =>
    rw [hl, Option.any_some, Bool.and_eq_true, beq_iff_eq] at hp
    exact ⟨sw, l, hs, hl, hp⟩

/-- A second weft that is absent and runnable, beside the resident one. -/
def absentWeft (s : State) : State := withSw s fun x =>
  { x with wefts := x.wefts ++ (x.wefts.take 1).map fun p => (1, { p.2 with place := .absent, wait := none, clause := none }) }

/-- The residency cap leaves room only when the resident weft leaves. -/
def capped (s : State) : State := { withSw s fun x => { x with cap := 1 } with turn := 200000 }

/-- A choice with a free slot, one that needs a candidate to leave, one by age alone, and none; a weft that leaves for its image and one that
has ended meanwhile; a weft that takes its slot. -/
theorem test_witness_BagAndSwatches_bag :
    (∃ (s : State) (x : Cand), s.bagFree 0 = true ∧ s.bagRow 0 = some (x, none) ∧ x.wid = 1) ∧
    (∃ (s : State) (x y : Cand), s.bagFree 0 = true ∧ s.bagRow 0 = some (x, some y) ∧ x.wid = 1 ∧ y.wid = 0 ∧ (s.weft? 0 0).isSome = true) ∧
    (∃ (s : State) (x y : Cand), s.bagFree 0 = true ∧ s.bagRow 0 = none ∧ s.bagRow4 0 = some (x, y) ∧ x.wid = 1 ∧ y.wid = 0) ∧
    (∃ (s : State), s.bagFree 0 = true ∧ s.bagRow 0 = none ∧ s.bagRow4 0 = none) ∧
    (∃ (s : State) (w : Weft), s.weft? 0 0 = some w ∧ w.leaving = some true ∧ w.ended = false ∧ w.halted = none ∧ w.flights = [] ∧
      w.clause = none ∧ s.bagUsed 0 + w.imageBytes ≤ 2 ^ 21) ∧
    (∃ (s : State) (w : Weft), s.weft? 0 0 = some w ∧ w.leaving = some false ∧ w.ended = true) ∧
    ∃ (s : State) (w : Weft), s.weft? 0 1 = some w ∧ w.late = none ∧ (s.core 0).incoming = some (0, 1) ∧ s.incomingFits 0 = true := by
  refine ⟨⟨absentWeft (at_ .nop), ?_⟩, ⟨capped (absentWeft (waiting (.waitw (.s 5) false false) .watch)), ?_⟩, ⟨capped (absentWeft (at_ .nop)), ?_⟩,
    ⟨at_ .nop, by decide⟩,
    ⟨withWeft (at_ .nop) fun w => { w with leaving := some true, clause := none }, weftAt (by decide)⟩,
    ⟨withWeft (at_ .nop) fun w => { w with leaving := some false, ended := true }, weftAt (by decide)⟩,
    { absentWeft (at_ .nop) with cores := [(0, { Core.reset with incoming := some (0, 1) })] }, weftAt (by decide)⟩
  · have ⟨x, hx, hp⟩ := any_some (o := (absentWeft (at_ .nop)).bagRow 0) (p := fun x => x.1.wid = 1 ∧ x.2 = none) (by decide)
    exact ⟨x.1, by decide, by rw [hx, ← hp.2], hp.1⟩
  · have ⟨x, hx, hp⟩ := any_some (o := (capped (absentWeft (waiting (.waitw (.s 5) false false) .watch))).bagRow 0)
      (p := fun x => x.1.wid = 1 ∧ (x.2.any fun y => y.wid == 0) = true) (by decide)
    cases hy : x.2 with
    | none => rw [hy] at hp; cases hp.2
    | some y => rw [hy] at hp; exact ⟨x.1, y, by decide, by rw [hx, ← hy], hp.1, eq_of_beq hp.2, by decide⟩
  · have ⟨x, hx, hp⟩ := any_some (o := (capped (absentWeft (at_ .nop))).bagRow4 0) (p := fun x => x.1.wid = 1 ∧ x.2.wid = 0) (by decide)
    exact ⟨x.1, x.2, by decide, by decide, hx, hp⟩

/-- Another swatch of the launch that waits to be placed, as swatch 1. -/
def waitingSwatch (s : State) : State :=
  { s with swatches := s.swatches ++ [(1, { Swatch.plain 1 0 with linear := 1, spsize := 128 })]
           ctxs := s.ctxs, parts := [(0, ⟨1, 1, 0, 0, 0, 1, some 1, false, none⟩)] }

theorem test_witness_BagAndSwatches_swatches :
    (∃ (s : State) (core : Nat), (s.cluster (clusterOfCore core)).gating = .on ∧ s.dispatch? (clusterOfCore core) = some (1, core) ∧
      ((s.swatch? 1).any fun sw => sw.place == .waiting && (s.roomFor core sw).isSome && sw.wefts.all fun p => p.2.late.isNone) = true) ∧
    (∃ (s : State), s.dispatch? 0 ≠ some (0, 0)) ∧
    (∃ (s : State) (sw : Swatch), s.swatch? 0 = some sw ∧ sw.core? = some 0 ∧ (s.launches.get? sw.launch).isSome = true ∧
      (sw.wefts.all fun p => p.2.ended && p.2.place == .absent && p.2.flights.isEmpty) = true ∧ s.cores = [] ∧
      ((s.launches.get? sw.launch).any fun l => l.pool.isEmpty) = true) ∧
    (∃ (s : State) (sw : Swatch), s.swatch? 0 = some sw ∧ ∃ p ∈ sw.wefts, p.2.ended = false) ∧
    (∃ (s : State) (sw : Swatch), s.swatch? 0 = some sw ∧ s.rotation? sw.clu ≠ some 0) ∧
    (∃ (s : State), (s.cluster 3).gating = .off) ∧ ∃ (s : State), (s.cluster 3).gating ≠ .off := by
  refine ⟨⟨waitingSwatch (at_ .nop), 0, by decide⟩, ⟨at_ .nop, by decide⟩,
    ⟨withWeft (at_ .nop) fun w => { w with ended := true, place := .absent }, any_some (by decide)⟩, ⟨at_ .nop, any_some (by decide)⟩,
    ⟨at_ .nop, any_some (by decide)⟩, ⟨{ at_ .nop with clusters := [(3, { Cluster.reset with gating := .off })] }, by decide⟩, at_ .nop, by decide⟩

/-! ### Copy jobs, buffers and floors -/

def jobOf (k : JobKind) (ring : Bool) (lines : Nat) (err : Nat) : Job :=
  ⟨0, 0, k, ring, 0, { rowsOf (k == .cpyin && err == 3) with wr := true }, [0, 0, 0, 0], [], 0, 256, 0x100000, 0x100100, true, lines, 0, err, (0, 0), [], 0⟩

/-- The core has these jobs, for the roomy swatch 0; the weft holds the flag of the first. -/
def working (js : List Job) : State :=
  { withSw (withWeft (paged (at_ .nop)) fun w => { w with flights := [flightOf (.copyJob 0 0)], flags := [(3, 1)] }) fun x => { x with jobs := 1 } with
    cores := [(0, { Core.reset with jobs := js })] }

/-- A first job at its start and one that conflicts behind it; a line of each kind; uncorrectable data at the source. -/
theorem test_witness_CopyJobsMoveAndEnd_lines :
    (∃ (s : State) (j : Job), (s.core 0).jobs[0]? = some j ∧ j.begun = false) ∧
    (∃ (s : State) (j : Job), (s.core 0).jobs[1]? = some j ∧ ¬ ∀ e ∈ (s.core 0).jobs.take 1, e.conflicts j = false) ∧
    (∀ k ∈ [JobKind.cpyin, .gather], ∃ (s : State) (j : Job) (sw : Swatch), (s.core 0).jobs[0]? = some j ∧ s.swatch? j.sid = some sw ∧ j.kind = k ∧
      j.begun = true ∧ j.err = 0 ∧ j.lines = 1 ∧ j.ring = true ∧ j.spad / 128 + j.lines ∉ sw.full ∧ (s.core 0).wbuf = [] ∧ (s.die 0).out = [] ∧
      (∀ o ∈ rangeFrom 128 128, Readable s 0 (j.shape.pa (j.byteVa o)))) ∧
    (∃ (s : State) (j : Job) (sw : Swatch), (s.core 0).jobs[0]? = some j ∧ s.swatch? j.sid = some sw ∧ j.kind = .cpyout ∧ j.begun = true ∧ j.err = 0 ∧ j.lines = 0 ∧
      j.ring = true ∧ j.spad / 128 + j.lines ∈ sw.full ∧ sw.spadBad = [] ∧ ((rangeFrom 0 128).map fun o => j.shape.pa (j.byteVa o)).Nodup ∧
      ∀ o ∈ rangeFrom 0 128, Writable s (j.shape.pa (j.byteVa o))) ∧
    (∃ (s : State) (j : Job) (sw : Swatch), (s.core 0).jobs[0]? = some j ∧ s.swatch? j.sid = some sw ∧ j.kind = .firmware ∧ j.begun = true ∧ j.lines = 0 ∧
      ∀ n, n < 128 → Readable s 0 (j.src + n) ∧ Writable s (j.dst + n)) ∧
    ∃ (s : State) (j : Job), (s.core 0).jobs[0]? = some j ∧ j.kind = .cpyin ∧ j.begun = true ∧ j.err = 0 ∧ j.lines = 0 ∧
      sectorOf (j.shape.pa (j.byteVa 32)) ∈ s.bad := by
  unfold Readable Writable
  refine ⟨⟨working [{ jobOf .cpyin false 0 0 with begun := false }], _, rfl, by decide⟩, ⟨working [jobOf .cpyin false 0 0, jobOf .cpyin false 0 0], _, rfl, by decide⟩,
    fun k hk => ?_, ⟨(working [jobOf .cpyout true 0 0]).modSwatch 0 fun x => { x with full := [0, 1] }, _, _, rfl, rfl, by decide⟩,
    ⟨working [jobOf .firmware false 0 0], _, _, rfl, rfl, by decide⟩, { working [jobOf .cpyin false 0 0] with bad := [0x100020] }, _, rfl, by decide⟩
  simp only [List.mem_cons, List.not_mem_nil, or_false] at hk
  rcases hk with rfl | rfl
  · exact ⟨working [jobOf .cpyin true 1 0], _, _, rfl, rfl, by decide⟩
  · exact ⟨working [jobOf .gather true 1 0], _, _, rfl, rfl, by decide⟩

/-- A job at its end, one that is not, one stopped by a descriptor, one stopped by data, each with its owner; a weft that waits for a line that
is left; a firmware job at its end with room in the event queue, and with none. -/
theorem test_witness_CopyJobsMoveAndEnd_ends :
    (∀ p ∈ [(2, 0), (1, 0), (1, 3), (1, 1)], ∃ (s : State) (j : Job) (sw : Swatch) (w : Weft) (f : Flight), (s.core 0).jobs[0]? = some j ∧ s.swatch? j.sid = some sw ∧
      j.kind = .cpyin ∧ j.begun = true ∧ (j.lines, j.err) = p ∧ (sw.jobs + 2 ^ 32 - 1 - j.num) % 2 ^ 32 < 64 ∧ s.weft? j.sid j.owner = some w ∧
      w.flights[0]? = some f ∧ f.kind = .copyJob 0 j.num ∧ f.poison = none ∧ (f.vwr.map fun x => x.1).Nodup ∧ (f.swr.map fun x => x.1).Nodup ∧ w.ended = false) ∧
    (∃ (s : State) (j : Job) (sw : Swatch) (w : Weft), (s.core 0).jobs[0]? = some j ∧ s.swatch? j.sid = some sw ∧ j.err = 3 ∧ s.weft? j.sid 0 = some w ∧
      (w.wait.any fun x => x.form == .fullEmpty [1] true) = true ∧ 1 ∈ rangeFrom (j.spad / 128 + j.lines) (2 - j.lines) ∧ 1 ∉ sw.full) ∧
    ∀ n ∈ [0, Config.eventQueue], ∃ (s : State) (j : Job), (s.core 0).jobs[0]? = some j ∧ j.kind = .firmware ∧ j.begun = true ∧ (j.bytes + 127) / 128 ≤ j.lines ∧
      (s.cluster (clusterOfCore 0)).evq.length = n := by
  refine ⟨fun p hp => ?_, ⟨{ waiting (.fewait (.s 4) false false) (.fullEmpty [1] true) with
    cores := [(0, { Core.reset with jobs := [jobOf .cpyin false 1 3] })] }, _, _, _, rfl, rfl, by decide, rfl, by decide⟩, fun n hn => ?_⟩
  · simp only [List.mem_cons, List.not_mem_nil, or_false] at hp
    rcases hp with rfl | rfl | rfl | rfl
    · exact ⟨working [jobOf .cpyin false 2 0], _, _, _, _, rfl, rfl, rfl, rfl, rfl, by decide, rfl, rfl, rfl, rfl, by decide, by decide, rfl⟩
    · exact ⟨working [jobOf .cpyin false 1 0], _, _, _, _, rfl, rfl, rfl, rfl, rfl, by decide, rfl, rfl, rfl, rfl, by decide, by decide, rfl⟩
    · exact ⟨working [jobOf .cpyin false 1 3], _, _, _, _, rfl, rfl, rfl, rfl, rfl, by decide, rfl, rfl, rfl, rfl, by decide, by decide, rfl⟩
    · exact ⟨working [jobOf .cpyin false 1 1], _, _, _, _, rfl, rfl, rfl, rfl, rfl, by decide, rfl, rfl, rfl, rfl, by decide, by decide, rfl⟩
  · exact ⟨{ working [jobOf .firmware false 2 0] with clusters := [(0, { Cluster.reset with evq := List.replicate n ⟨1, 0, 0, 0, 0⟩ })] }, _, rfl, rfl, rfl,
      by decide, List.length_replicate ..⟩

def dirtied (sec : Nat) : State :=
  { paged (at_ .nop) with cores := [(0, { Core.reset with wbuf := [⟨sec, [(0, 7), (31, 9)]⟩] })] }

/-- Die 0 has a write to die 1, which holds a copy; die 1 has a notice it may apply, or one whose causes have not come. -/
def between (n : Notice) : State :=
  { paged (at_ .nop) with
    dies := [(0, { Die.reset with links := [(0, 16)], out := [⟨0, 2 ^ 46 + 0x100000, [(0, 7)]⟩] }),
      (1, { Die.reset with links := [(0, 16)], notices := [n], copies := [(0x100000, ⟨List.replicate 32 1, 4⟩)] })] }

def noticeOf (k : List Nat) : Notice := ⟨0, k, 0x100000, some ⟨List.replicate 32 2, 5⟩⟩

theorem test_witness_WritesAndFloorsTakeTheirPlace_writes :
    (∃ (s : State) (e : WbEntry), (s.core 0).wbuf.find? (fun e => e.sector == 0x100020) = some e ∧ dieOf 0x100020 = dieOfCore 0 ∧ Writable s 0x100020 ∧
      e.bytes ≠ [] ∧ (e.bytes.map fun p => p.1).Nodup ∧ (∀ p ∈ e.bytes, p.1 < 32)) ∧
    (∃ (s : State) (e : WbEntry), (s.core 0).wbuf.find? (fun e => e.sector == 2 ^ 46) = some e ∧ dieOf (2 ^ 46) ≠ dieOfCore 0) ∧
    (∃ (s : State) (r : RemoteWrite) (rs : List RemoteWrite), (s.die 0).out = r :: rs ∧ dieOf r.sector ≠ 0 ∧ Writable s r.sector ∧ r.sector % 32 = 0 ∧ r.bytes ≠ [] ∧
      (r.bytes.map fun p => p.1).Nodup ∧ (∀ p ∈ r.bytes, p.1 < 32)) ∧ (∃ (s : State), (s.die 0).out = []) ∧
    ∀ p ∈ [([1, 0, 0, 0], true), ([2 ^ 48 - 1, 0, 0, 0], false), ([1, 0, 1, 0], false)], ∃ (s : State) (n : Notice), (s.die 1).notices[0]? = some n ∧
      ((∀ k, k < 4 → if k = n.writer then n.stamp.getD k 0 = ((s.die 1).clock.getD k 0 + 1) % 2 ^ 48
        else ((s.die 1).clock.getD k 0 + 2 ^ 48 - n.stamp.getD k 0) % 2 ^ 48 < 2 ^ 47) ↔ p.2 = true) := by
  unfold Writable
  refine ⟨⟨dirtied 0x100020, _, rfl, by decide⟩, ⟨dirtied (2 ^ 46), _, rfl, by decide⟩, ⟨between (noticeOf []), _, _, rfl, by decide⟩, ⟨at_ .nop, rfl⟩, fun p hp => ?_⟩
  simp only [List.mem_cons, List.not_mem_nil, or_false] at hp
  rcases hp with rfl | rfl | rfl
  · exact ⟨between (noticeOf [1, 0, 0, 0]), _, rfl, by decide⟩
  · exact ⟨between (noticeOf [2 ^ 48 - 1, 0, 0, 0]), _, rfl, by decide⟩
  · exact ⟨between (noticeOf [1, 0, 1, 0]), _, rfl, by decide⟩

/-- A region of two versions with a floor on its way. -/
def rising (await : List Nat) (floor : Nat) : State :=
  { withWeft (at_ .nop) fun w => { w with flights := [flightOf (.floor 1)], flags := [(3, 1)] } with
    regions := [(1, { region 4 [0, 3] with
      sectors := [(0x10000, ⟨[⟨0, List.replicate 32 0, false⟩, ⟨1, List.replicate 32 1, false⟩, ⟨2, List.replicate 32 2, false⟩], []⟩)]
      pendFloors := [⟨floor, await, 0, 0⟩] })] }

theorem test_witness_WritesAndFloorsTakeTheirPlace_floors :
    (∃ (s : State) (r : Region), s.regions.get? 1 = some r ∧ ∀ p ∈ r.pendFloors, 3 ∉ p.await) ∧
    (∃ (s : State) (r : Region) (p : FloorOp), s.regions.get? 1 = some r ∧ r.pendFloors[0]? = some p ∧ 3 ∈ p.await) ∧
    (∃ (s : State) (r : Region), s.regions.get? 1 = some r ∧ ∀ p ∈ r.pendFloors, p.await ≠ []) ∧
    ∀ n ∈ [2, 0], ∃ (s : State) (r : Region) (p : FloorOp) (w : Weft) (f : Flight), s.regions.get? 1 = some r ∧ r.pendFloors[0]? = some p ∧ p.await = [] ∧
      p.floor = n ∧ r.floor ≤ 1 ∧ r.sectors ≠ [] ∧ s.weft? p.sid p.wid = some w ∧ w.flights[0]? = some f ∧ f.kind = .floor 1 ∧ f.poison = none ∧
      (f.vwr.map fun x => x.1).Nodup ∧ (f.swr.map fun x => x.1).Nodup := by
  refine ⟨⟨rising [0] 2, _, rfl, by decide⟩, ⟨rising [0, 3] 2, _, _, rfl, rfl, by decide⟩, ⟨rising [0] 2, _, rfl, by decide⟩, fun n hn => ?_⟩
  simp only [List.mem_cons, List.not_mem_nil, or_false] at hn
  rcases hn with rfl | rfl
  · exact ⟨rising [] 2, _, _, _, _, rfl, rfl, rfl, rfl, by decide, by decide, rfl, rfl, rfl, rfl, by decide, by decide⟩
  · exact ⟨rising [] 0, _, _, _, _, rfl, rfl, rfl, rfl, by decide, by decide, rfl, rfl, rfl, rfl, by decide, by decide⟩

/-! ### Command queues -/

/-- Queue 0 of context 1, its descriptor at 0x100400, its ring of 16 packets at address 0x800, `tail` packets written, the first of them with
these double words; a launch record of one swatch of one weft at address 0x1000. -/
def queued (tail : Nat) (ws : List (Nat × Nat)) : State :=
  let put := fun (m : Memory) (x : Nat × Nat) => memPutBytes m x.1 (natBytes 8 x.2)
  let s := paged (at_ .nop)
  { s with
    mem := ([(0x100400, 0x800), (0x100408, 0x40), (0x100410, tail), (0x101000, 0x101), (0x101010, 0x0004000800000000), (0x101018, 1),
      (0x101050, 0x100000001), (0x101058, 1)] ++ ws.map fun (x : Nat × Nat) => (0x100800 + x.1, x.2)).foldl put s.mem
    ctxs := s.ctxs.modify 1 fun c => { c with qtab := 0x100400 }
    parts := [(0, ⟨1, 1, 0, 0, 0, 0, none, false, none⟩)]
    queues := [⟨1, 0, false, none, false, 0, []⟩] }

def descOf (s : State) : QDesc := ((s.ctx? 1).map fun c => s.queueDesc c 0).getD ⟨0, 0, false, 0, 0, 0, 0, 0, 0⟩

theorem inMemory_of {s : State} {d : QDesc} (h : (d.at_ % 64 == 0 && (List.range 64).all fun o => decide (pkgOf (d.at_ + o) = s.pkg.fpkg ∧
    s.present (sectorOf (d.at_ + o)) = true ∧ (s.die (dieOf (d.at_ + o))).mig.track = false)) = true) : InMemory s d := by
  simp only [Bool.and_eq_true, beq_iff_eq, List.all_eq_true, List.mem_range, decide_eq_true_eq] at h
  exact h

/-- The bytes of the packet at the head, and a property of them. -/
def packetNow (s : State) (p : QState → List Byte → Bool) : Bool :=
  match s.queue? 1 0, s.ctx? 1, s.readPacket 1 (descOf s) (descOf s).head with
  | some x, some c, .ok bs => ((s.parts.get? c.part).any (fun q => (s.packetNeeds x ⟨1, 0, descOf s, c.part, q, bs⟩).isEmpty) && (s.eligible x && decide (((descOf s).tail + 2 ^ 32 - (descOf s).head) % 2 ^ 32 ≤ (descOf s).ring))) &&
      (s.finishes.isEmpty && (((descOf s).at_ % 64 == 0 && (List.range 64).all fun o => decide (pkgOf ((descOf s).at_ + o) = s.pkg.fpkg ∧
        s.present (sectorOf ((descOf s).at_ + o)) = true ∧ (s.die (dieOf ((descOf s).at_ + o))).mig.track = false)) && p x bs))
  | _, _, _ => false

theorem packetAt_of {s : State} {p : QState → List Byte → Bool} (h : packetNow s p = true) :
    ∃ (x : QState) (c : Ctx) (q : Part) (d : QDesc) (bs : List Byte), PacketAt s 1 0 x c q d bs ∧ s.parts.get? c.part = some q ∧ d = descOf s ∧ p x bs = true := by
  unfold packetNow at h
  split at h
  · rename_i x c bs hx hc hb
    simp only [Bool.and_eq_true, decide_eq_true_eq, List.isEmpty_iff, Option.any_eq_true] at h
    obtain ⟨⟨⟨q, hq, hn⟩, he, hr⟩, hf, hm, hp⟩ := h
    refine ⟨x, c, q, descOf s, bs, ⟨hx, hc, hq, ?_, he, hr, hb, hn, ?_, inMemory_of (by simpa using hm)⟩, hq, rfl, hp⟩
    · rw [descOf, hc]; rfl
    · rw [hf]; intro f hf; cases hf
  · cases h

/-- A packet of a type at the head of queue 0, with a property. -/
def Heads (n : Nat) (p : State → List Byte → Bool) : Prop :=
  ∃ (s : State) (x : QState) (c : Ctx) (q : Part) (d : QDesc) (bs : List Byte), PacketAt s 1 0 x c q d bs ∧ s.parts.get? c.part = some q ∧
    d = descOf s ∧ (fieldAt bs 0 1 = n ∧ fieldAt bs 0 4 / 512 = 0) ∧ p s bs = true

theorem heads (s : State) {n : Nat} {p : State → List Byte → Bool}
    (h : packetNow s (fun _ bs => decide (fieldAt bs 0 1 = n ∧ fieldAt bs 0 4 / 512 = 0) && p s bs) = true) : Heads n p := by
  obtain ⟨x, c, q, d, bs, h1, h2, h3, h4⟩ := packetAt_of h
  rw [Bool.and_eq_true, decide_eq_true_eq] at h4
  exact ⟨s, x, c, q, d, bs, h1, h2, h3, h4⟩

/-- The answer of a check as data: none when it succeeds. -/
def errorOf {α : Type} (x : Except Nat α) : Option Nat :=
  match x with
  | .ok _ => none
  | .error e => some e

def isOk {α : Type} (x : Except Nat α) : Bool := (errorOf x).isNone

/-- The graph table at a packet's gtab from node 0. -/
def tableOf (s : State) (bs : List Byte) : Tab GNode × Bool := s.graphTable 1 (fieldAt bs 8 8) 40000000 [0] []

/-- The counts of its nodes stand apart from the descriptor, in memory that is written. -/
def countsWritten (s : State) (bs : List Byte) : Bool :=
  let a := (descOf s).at_
  (dedup ((tableOf s bs).1.map fun y => y.2.pa)).length == (tableOf s bs).1.length && (tableOf s bs).1.all fun y => (List.range 2).all fun o =>
    let x := y.2.pa + 10 + o
    (decide (x < a) || decide (a + 64 ≤ x)) && decide (pkgOf x = s.pkg.fpkg ∧ s.present (sectorOf x) = true ∧ (s.die (dieOf x)).mig.track = false)

/-- A LAUNCH that breaks a rule, one whose done word and one whose record is not reached, one with a bad record, and one that starts; a GRAPH
with no start node, with a node beyond the table, with a bad node, and one that starts. -/
theorem test_witness_PacketsStart_launches :
    Heads 1 (fun _ bs => !zeroOutside bs [(0, 4), (8, 32)]) ∧ Heads 1 (fun s bs => errorOf (s.fetchDadr 1 (fieldAt bs 0x18 8)) == some 5) ∧
    Heads 1 (fun s bs => isOk (s.fetchDadr 1 (fieldAt bs 0x18 8)) && errorOf (s.fetchLRec 1 (fieldAt bs 8 8)) == some 5) ∧
    Heads 1 (fun s bs => errorOf (s.fetchLRec 1 (fieldAt bs 8 8)) == some 3) ∧
    Heads 1 (fun s bs => zeroOutside bs [(0, 4), (8, 32)] && (fieldAt bs 8 8 % 256 == 0 && (fieldAt bs 0x18 8 % 8 == 0 && ((fieldAt bs 0 4).testBit 8 &&
      (!(coreSet ⟨1, 1, 0, 0, 0, 0, none, false, none⟩ (fieldAt bs 0x10 8)).isEmpty && (isOk (s.fetchDadr 1 (fieldAt bs 0x18 8)) && isOk (s.fetchLRec 1 (fieldAt bs 8 8)))))))) ∧
    Heads 2 (fun _ bs => fieldAt bs 0x20 1 == 0) ∧
    Heads 2 (fun s bs => fieldAt bs 0x10 2 == 4096 && isOk (s.reach 1 .atomic (fieldAt bs 8 8))) ∧
    Heads 2 (fun s bs => countsWritten s bs && !(s.setCounts (tableOf s bs).1).graphOk 1 (tableOf s bs).1) ∧
    Heads 2 (fun s bs => countsWritten s bs && ((tableOf s bs).2 && ((s.setCounts (tableOf s bs).1).graphOk 1 (tableOf s bs).1 &&
      (tableOf s bs).1.all fun y => isOk (s.fetchLRec 1 y.2.lrec)))) :=
  ⟨heads (queued 1 [(0, 1), (40, 1)]) (by decide), heads (queued 1 [(0, 1), (8, 0x1000), (24, 0x200000)]) (by decide),
    heads (queued 1 [(0, 1), (8, 0x200000)]) (by decide), heads (queued 1 [(0, 1), (8, 0x2000)]) (by decide),
    heads (queued 1 [(0, 0x101), (8, 0x1000), (16, 1), (24, 0x1800), (32, 9)]) (by decide), heads (queued 1 [(0, 2), (8, 0x2000)]) (by decide),
    heads (queued 1 [(0, 2), (8, 0x2000), (16, 4096), (32, 1)]) (by decide), heads (queued 1 [(0, 2), (8, 0x2000), (32, 1), (0x1800, 0x1000), (0x1808, 1)]) (by decide),
    heads (queued 1 [(0, 2), (8, 0x2000), (32, 1), (0x1800, 0x1000)]) (by decide)⟩

/-- WAIT, SIGNAL, COPY, QBARRIER and FENCE: each that breaks a rule, that finds a page absent or forbidden, that holds its queue, and that passes. -/
theorem test_witness_PacketsStart_packets :
    (Heads 3 (fun _ bs => fieldAt bs 8 8 % 8 != 0) ∧ Heads 3 (fun s bs => errorOf (s.reach 1 .load (fieldAt bs 8 8)) == some 8) ∧
      Heads 3 (fun s bs => errorOf (s.reach 1 .load (fieldAt bs 8 8)) == some 9) ∧
      Heads 3 (fun s bs => isOk (s.reach 1 .load (fieldAt bs 8 8)) && decide (fieldAt bs 16 8 ≤ s.homeDword 0x102000)) ∧
      Heads 3 (fun s bs => isOk (s.reach 1 .load (fieldAt bs 8 8)) && decide (s.homeDword 0x102000 < fieldAt bs 16 8))) ∧
    (Heads 4 (fun _ bs => fieldAt bs 24 1 == 2) ∧ Heads 4 (fun s bs => errorOf (s.reach 1 .store (fieldAt bs 8 8)) == some 8) ∧
      Heads 4 (fun s bs => errorOf (s.reach 1 .store (fieldAt bs 8 8)) == some 9) ∧
      Heads 4 (fun s bs => fieldAt bs 24 1 == 1 && isOk (s.reach 1 .atomic (fieldAt bs 8 8)))) ∧
    (Heads 5 (fun _ bs => fieldAt bs 24 8 == 33) ∧ Heads 5 (fun s bs => fieldAt bs 24 8 == 32 && !isOk (s.reach 1 .load (fieldAt bs 8 8))) ∧
      Heads 5 (fun s bs => fieldAt bs 24 8 == 32 && (isOk (s.reach 1 .load (fieldAt bs 8 8)) && isOk (s.reach 1 .store (fieldAt bs 16 8))))) ∧
    (Heads 6 (fun _ bs => fieldAt bs 40 1 == 5) ∧ Heads 6 (fun s bs => fieldAt bs 40 1 == 1 && reached (descOf s).done (fieldAt bs 12 4)) ∧
      Heads 6 (fun s bs => fieldAt bs 40 1 == 4 && !reached (descOf s).done (fieldAt bs 12 4))) ∧
    Heads 7 (fun _ bs => fieldAt bs 8 1 == 3) ∧ Heads 7 (fun s bs => fieldAt bs 8 1 == 6 && s.finishes.isEmpty) :=
  ⟨⟨heads (queued 1 [(0, 3), (8, 1)]) (by decide), heads (queued 1 [(0, 3), (8, 0x200000)]) (by decide), heads (queued 1 [(0, 3), (8, 0x100000000000000)]) (by decide),
    heads (queued 1 [(0, 3), (8, 0x2000), (0x1800, 5), (16, 5)]) (by decide), heads (queued 1 [(0, 3), (8, 0x2000), (0x1800, 5), (16, 6)]) (by decide)⟩,
    ⟨heads (queued 1 [(0, 4), (24, 2)]) (by decide), heads (queued 1 [(0, 4), (8, 0x200000)]) (by decide), heads (queued 1 [(0, 4), (8, 0x20000)]) (by decide),
      heads (queued 1 [(0, 4), (8, 0x2000), (24, 1), (16, 3)]) (by decide)⟩,
    ⟨heads (queued 1 [(0, 5), (24, 33)]) (by decide), heads (queued 1 [(0, 5), (8, 0x200000), (24, 32)]) (by decide),
      heads (queued 1 [(0, 5), (8, 0x2000), (16, 0x3000), (24, 32)]) (by decide)⟩,
    ⟨heads (queued 1 [(0, 6), (40, 5)]) (by decide), heads (queued 1 [(0, 6), (8, 0), (40, 1)]) (by decide), heads (queued 1 [(0, 6), (8, 0x100000000), (40, 4)]) (by decide)⟩,
    heads (queued 1 [(0, 7), (8, 3)]) (by decide), heads (queued 1 [(0, 7), (8, 6)]) (by decide)⟩

/-- A queue that is not eligible, a reserved header bit, a bad type; a tail too far ahead and a ring page that is not reached; the words
of a descriptor that stands in memory. -/
theorem test_witness_QueuesStopAndPacketsComplete_stops :
    (∃ (s : State) (x : QState), s.queue? 1 0 = some x ∧ s.eligible x = false) ∧
    (∃ (s : State) (x : QState) (c : Ctx) (p : Part) (d : QDesc) (bs : List Byte), PacketAt s 1 0 x c p d bs ∧ fieldAt bs 0 1 = 7 ∧ fieldAt bs 0 4 / 512 ≠ 0) ∧
    (∃ (s : State) (x : QState) (c : Ctx) (p : Part) (d : QDesc) (bs : List Byte), PacketAt s 1 0 x c p d bs ∧ fieldAt bs 0 1 = 8) ∧
    (∃ (s : State) (x : QState) (c : Ctx) (d : QDesc), s.queue? 1 0 = some x ∧ s.ctx? 1 = some c ∧ d = s.queueDesc c 0 ∧ s.eligible x = true ∧ InMemory s d ∧
      d.ring < (d.tail + 2 ^ 32 - d.head) % 2 ^ 32) ∧
    ∃ (s : State) (x : QState) (c : Ctx) (d : QDesc), s.queue? 1 0 = some x ∧ s.ctx? 1 = some c ∧ d = s.queueDesc c 0 ∧ s.eligible x = true ∧ InMemory s d ∧
      (d.tail + 2 ^ 32 - d.head) % 2 ^ 32 ≤ d.ring ∧ errorOf (s.readPacket 1 d d.head) = some 8 := by
  refine ⟨⟨queued 0 [], _, rfl, by decide⟩, ?_, ?_, ⟨queued 17 [], _, _, _, rfl, rfl, rfl, by decide, inMemory_of (by decide), by decide⟩,
    { queued 1 [] with mem := memPutBytes (queued 1 []).mem 0x100400 (natBytes 8 0x200000) }, _, _, _, rfl, rfl, rfl, by decide, inMemory_of (by decide), by decide⟩
  · have ⟨x, c, q, d, bs, h, _, _, hp⟩ := packetAt_of (s := queued 1 [(0, 0x207)])
      (p := fun _ bs => decide (fieldAt bs 0 1 = 7 ∧ fieldAt bs 0 4 / 512 ≠ 0)) (by decide)
    exact ⟨_, x, c, q, d, bs, h, of_decide_eq_true hp⟩
  · have ⟨x, c, q, d, bs, h, _, _, hp⟩ := packetAt_of (s := queued 1 [(0, 8)]) (p := fun _ bs => decide (fieldAt bs 0 1 = 8)) (by decide)
    exact ⟨_, x, c, q, d, bs, h, of_decide_eq_true hp⟩

/-- Queue 0 holds its packet 0 until the word at 0x102000 reaches 5. -/
def held (n : Nat) (h : Held) : State :=
  { queued 1 [(0x1800, n)] with queues := [⟨1, 0, false, some (0, h), false, 0, []⟩], finishes := [⟨1, 0, 0, 3, true, none, 0, none⟩] }

/-- The launch that packet 0 of queue 0 started, with nothing left of it; and one that a graph node started. -/
def finishing (origin node : Option (Nat × Nat)) (done : Bool) (left : Nat) : State :=
  { queued 1 [(0x1800, 0x1000), (0x1840, 0x1000), (0x1848, 0x10001)] with
    launches := [(0, { Launch.plain 1 256 32 with origin := origin, node := node, done := done, left := left, pool := [], liveTasks := 0 })]
    finishes := [⟨1, 0, 0, 1, true, some 0x102000, 9, none⟩] }

def graphOf (s : State) (ws : List (Nat × Nat)) (started : List Nat) : State :=
  { s with
    mem := ws.foldl (fun m (x : Nat × Nat) => memPutBytes m x.1 (natBytes 8 x.2)) s.mem
    graphs := [(7, ⟨1, 0, 0, 0x2000, 1, [], started, []⟩)], nextLaunch := 8 }

theorem test_witness_QueuesStopAndPacketsComplete_completions :
    (∀ p ∈ [(5, true), (4, false)], ∃ (s : State) (x : QState) (c : Ctx) (d : QDesc) (f : Finish), s.queue? 1 0 = some x ∧ s.ctx? 1 = some c ∧ d = s.queueDesc c 0 ∧
      InMemory s d ∧ x.held = some (0, .word 0x102000 5) ∧ s.finishes.find? (fun y => y.ctx == 1 && y.q == 0 && y.idx == 0) = some f ∧ f.dadr = none ∧
      s.heldMet 1 (.word 0x102000 5) = p.2) ∧
    (∀ o ∈ [none, some (0, 0)], ∃ (s : State) (l : Launch) (x : QState) (c : Ctx) (d : QDesc) (f : Finish), s.launches.get? 0 = some l ∧ l.done = false ∧ l.left = 0 ∧
      l.pool = [] ∧ l.liveTasks = 0 ∧ l.origin = o ∧ s.queue? l.ctx 0 = some x ∧ s.ctx? l.ctx = some c ∧ d = s.queueDesc c 0 ∧ InMemory s d ∧
      s.finishes.find? (fun y => y.ctx == l.ctx && y.q == 0 && y.idx == 0) = some f ∧ x.held = none ∧ f.dadr = some 0x102000 ∧
      (Apart d.at_ (dwordAt 0x102000 f.dval.toNat) ∧ ∀ y ∈ dwordAt 0x102000 f.dval.toNat, Writable s y.1)) ∧
    (∃ (s : State) (l : Launch), s.launches.get? 0 = some l ∧ l.left ≠ 0) ∧
    (∀ p ∈ [[0], [0, 1]], ∃ (s : State) (g : GraphRun) (l : Launch), s.graphs.get? 7 = some g ∧
      s.launches.find? (fun y => y.2.node == some (7, 0) && y.2.done) = some (0, l) ∧ ((s.graphNode g.ctx g.gtab 0).map fun y => y.succ).getD [] = [] ∧
      g.started = p ∧ g.finished = []) ∧
    ∃ (s : State) (g : GraphRun) (l : Launch) (n : GNode) (c : Ctx) (p : Part), s.graphs.get? 7 = some g ∧
      s.launches.find? (fun y => y.2.node == some (7, 0) && y.2.done) = some (0, l) ∧ ((s.graphNode g.ctx g.gtab 0).map fun y => y.succ).getD [] = [(false, 1)] ∧
      s.graphNode g.ctx g.gtab 1 = some n ∧ s.ctx? g.ctx = some c ∧ s.parts.get? c.part = some p ∧ (Writable s (n.pa + 10) ∧ Writable s (n.pa + 11)) ∧
      1 ∉ g.started ∧ g.edgeMet 1 = true ∧ 0 < s.nextLaunch ∧ s.nodeCount n = 1 ∧ isOk (s.fetchLRec g.ctx n.lrec) = true := by
  unfold Writable Apart
  refine ⟨fun p hp => ?_, fun o ho => ?_, ⟨finishing none none false 1, _, rfl, by decide⟩, fun p hp => ?_,
    ⟨graphOf (finishing none (some (7, 0)) true 0) [(0x102010, 0x80000001)] [0], _, _, _, _, _, rfl, rfl, by decide, rfl, rfl, rfl, by decide⟩⟩
  · simp only [List.mem_cons, List.not_mem_nil, or_false] at hp
    rcases hp with rfl | rfl
    · exact ⟨held 5 (.word 0x102000 5), _, _, _, _, rfl, rfl, rfl, inMemory_of (by decide), rfl, rfl, rfl, by decide⟩
    · exact ⟨held 4 (.word 0x102000 5), _, _, _, _, rfl, rfl, rfl, inMemory_of (by decide), rfl, rfl, rfl, by decide⟩
  · simp only [List.mem_cons, List.not_mem_nil, or_false] at ho
    rcases ho with rfl | rfl
    · exact ⟨finishing none none false 0, _, _, _, _, _, rfl, rfl, rfl, rfl, rfl, rfl, rfl, rfl, rfl, inMemory_of (by decide), rfl, rfl, rfl, by decide⟩
    · exact ⟨finishing (some (0, 0)) none false 0, _, _, _, _, _, rfl, rfl, rfl, rfl, rfl, rfl, rfl, rfl, rfl, inMemory_of (by decide), rfl, rfl, rfl, by decide⟩
  · simp only [List.mem_cons, List.not_mem_nil, or_false] at hp
    rcases hp with rfl | rfl
    · exact ⟨graphOf (finishing none (some (7, 0)) true 0) [] [0], _, _, rfl, rfl, by decide⟩
    · exact ⟨graphOf (finishing none (some (7, 0)) true 0) [] [0, 1], _, _, rfl, rfl, by decide⟩

/-! ### The event ring, the partition table and QUIESCE -/

/-- Context 1 has a ring of 16 records at address 0x3000, whose head words are these. -/
def ringed (tail head w : Nat) : State :=
  let put := fun (m : Memory) (x : Nat × Nat) => memPutBytes m x.1 (natBytes 4 x.2)
  let s := paged (at_ .nop)
  { s with mem := [(0x103000, tail), (0x103004, head), (0x103008, w)].foldl put s.mem
           ctxs := s.ctxs.modify 1 fun c => { c with ering := 0x3000, elsize := 4 } }

def recordOf : RingRec := ⟨1, List.replicate 8 5, none⟩

def withPend (s : State) (n : Nat) : State := { s with dies := [(0, { s.die 0 with pendEv := List.replicate n recordOf })] }

/-- Room in the ring; a full ring whose record waits, and one where the die holds no more; the head advances with nothing waiting and with
one record waiting. -/
theorem test_witness_RingTableAndQuiesceEvents_ring :
    (∃ (s : State) (c : Ctx) (h x : Trans), s.ctx? 1 = some c ∧ s.walkPa 1 (c.ering % 2 ^ 57) = .ok h ∧ recordOf.words.length = 8 ∧
      (s.die (s.frontDie 1)).pendEv = [] ∧ ¬ 2 ^ c.elsize ≤ (leSum (memBytes s.mem h.pa 4) + 2 ^ 32 - leSum (memBytes s.mem (h.pa + 4) 4)) % 2 ^ 32 ∧
      s.walkPa 1 (c.ering + 64 + 32 * (leSum (memBytes s.mem h.pa 4) % 2 ^ c.elsize)) = .ok x ∧
      (let ws := ((recordOf.words.zip (List.range 8)).flatMap fun y => wordAt (x.pa + 4 * y.2) y.1.toNat) ++ wordAt h.pa (leSum (memBytes s.mem h.pa 4) + 1);
        (ws.map fun y => y.1).Nodup ∧ ∀ y ∈ ws, Writable s y.1)) ∧
    ∀ n ∈ [0, Config.pendingEvents], ∃ (s : State) (c : Ctx) (h : Trans), s.ctx? 1 = some c ∧ s.walkPa 1 (c.ering % 2 ^ 57) = .ok h ∧
      2 ^ c.elsize ≤ (leSum (memBytes s.mem h.pa 4) + 2 ^ 32 - leSum (memBytes s.mem (h.pa + 4) 4)) % 2 ^ 32 ∧ (∀ y ∈ wordAt (h.pa + 8) 0, Writable s y.1) ∧
      (s.die (s.frontDie 1)).pendEv = List.replicate n recordOf := by
  unfold Writable
  refine ⟨⟨ringed 15 0 0, _, ⟨0x100033, 16, 0x103000⟩, ⟨0x100033, 16, 0x103220⟩, rfl, walkIs_ok (by decide), rfl, rfl, by decide, walkIs_ok (by decide), by decide⟩,
    fun n hn => ?_⟩
  simp only [List.mem_cons, List.not_mem_nil, or_false] at hn
  rcases hn with rfl | rfl
  · exact ⟨withPend (ringed 16 0 0) 0, _, ⟨0x100033, 16, 0x103000⟩, rfl, walkIs_ok (by decide), by decide, by decide, rfl⟩
  · exact ⟨withPend (ringed 16 0 0) Config.pendingEvents, _, ⟨0x100033, 16, 0x103000⟩, rfl, walkIs_ok (by decide), by decide, by decide, rfl⟩

theorem test_witness_RingTableAndQuiesceEvents_head : ∀ n ∈ [0, 1], ∃ (s : State) (c : Ctx) (h : Trans), s.ctx? 1 = some c ∧
    s.walkPa 1 (c.ering % 2 ^ 57) = .ok h ∧ (∀ y ∈ wordAt (h.pa + 4) 0, Writable s y.1) ∧ (s.die (s.frontDie 1)).pendEv = List.replicate n recordOf := by
  unfold Writable
  intro n hn
  simp only [List.mem_cons, List.not_mem_nil, or_false] at hn
  rcases hn with rfl | rfl
  · exact ⟨withPend (ringed 16 0 0) 0, _, ⟨0x100033, 16, 0x103000⟩, rfl, walkIs_ok (by decide), by decide, rfl⟩
  · exact ⟨withPend (ringed 16 0 0) 1, _, ⟨0x100033, 16, 0x103000⟩, rfl, walkIs_ok (by decide), by decide, rfl⟩

/-- A table at 0x8000 whose record 31 gives cluster 7 and one context at 0x9000 with two queues. -/
def tabled (en : Nat) : State :=
  let put := fun (m : Memory) (x : Nat × Nat) => memPutBytes m x.1 (natBytes 8 x.2)
  { State.reset with
    mem := [(0x8000 + 64 * 31, 0x80 + (en * 256 + 1) * 2 ^ 32), (0x8000 + 64 * 31 + 8, 0x9000), (0x9000, 3 + 2 * 2 ^ 32), (0x9028, 2)].foldl put []
    dies := [(0, { Die.reset with links := [(0, 16)] })] }

theorem test_witness_RingTableAndQuiesceEvents_table :
    (∃ (s : State) (v : Word), v.toNat % 2048 = 0 ∧ s.parts = [] ∧ s.ctxs = [] ∧ s.queues = [] ∧
      let f := fun (i off n : Nat) => fieldAt (memBytes s.mem ((s.die 0).ptabHi.toNat * 2 ^ 32 + v.toNat + 64 * i) 64) off n
      (∀ j, j < 32 → ((f j 4 4).testBit 8 = true ↔ j = 31)) ∧ f 31 0 4 ≠ 0 ∧ f 31 0 4 &&& s.pkg.fclus = 0 ∧ dieOfCluster (lowCluster (f 31 0 4)) = 0 ∧
      min (f 31 4 1) 64 = 1 ∧ fieldAt (memBytes s.mem (f 31 8 8) 64) 0 4 = 3 ∧ (fieldAt (memBytes s.mem (f 31 8 8) 64) 4 4).testBit 1 = true ∧
      fieldAt (memBytes s.mem (f 31 8 8) 64) 0x28 2 % 512 = 2) ∧
    ∃ (s : State) (v : Word) (p : Part), v.toNat % 2048 = 0 ∧ s.parts = [(31, p)] ∧ s.partInUse 31 = true ∧
      ∀ j, j < 32 → (fieldAt (memBytes s.mem ((s.die 0).ptabHi.toNat * 2 ^ 32 + v.toNat + 64 * j) 64) 4 4).testBit 8 = false :=
  ⟨⟨tabled 1, 0x8000, by decide⟩, { tabled 0 with
    parts := [(31, ⟨0x80, 1, 0x9000, 0, 0, 0, none, false, none⟩)]
    swatches := [(0, { Swatch.plain 3 0 with place := .saved false })]
    ctxs := [(3, { part := 31, sys := false, root := 0, code := 0, csize := 0, qtab := 0, nq := 0, ering := 0, elsize := 0, gen := 0, spBase := 0
                   spPages := 0, spLo := none, spHi := none, savedSum := 0, savedSat := false, halted := false })] }, 0x8000, _, by decide, rfl, by decide⟩

/-- The partition is quiesced on these cores; those listed have returned. -/
def quiesced (i : Instr) (f : WaitForm) (cores returned : List Nat) (stop : Bool) : State :=
  { waiting i f with parts := [(0, ⟨1, 1, 0, 0, 0, 0, none, false, some ⟨cores, [], stop, returned⟩⟩)] }

theorem test_witness_RingTableAndQuiesceEvents_markers :
    ∀ x ∈ [([0, 1], ([] : List Nat), false, true), ([0, 1], [1], true, true), ([0, 1], [1], true, false)],
      ∃ (s : State) (p : Part) (q : Quiesce), s.parts.find? (fun y => y.2.quiesce.any fun x => x.cores.contains 0 && !x.returned.contains 0) = some (0, p) ∧
        s.parts.get? 0 = some p ∧ p.quiesce = some q ∧ q = ⟨x.1, [], false, x.2.1⟩ ∧ decide (∀ c ∈ q.cores, c ∈ q.returned ∨ c = 0) = x.2.2.1 ∧ s.coreRests q 0 = x.2.2.2 := by
  intro x hx
  simp only [List.mem_cons, List.not_mem_nil, or_false] at hx
  rcases hx with rfl | rfl | rfl
  · exact ⟨quiesced .yield (.quiesce 0) [0, 1] [] false, _, _, rfl, rfl, rfl, rfl, by decide⟩
  · exact ⟨quiesced .yield (.quiesce 0) [0, 1] [1] false, _, _, rfl, rfl, rfl, rfl, by decide⟩
  · exact ⟨{ at_ .nop with parts := [(0, ⟨1, 1, 0, 0, 0, 0, none, false, some ⟨[0, 1], [], false, [1]⟩⟩)] }, _, _, rfl, rfl, rfl, rfl, by decide⟩

theorem test_witness_RingTableAndQuiesceEvents_stopped :
    ∃ (s : State) (p : Part) (q : Quiesce), s.parts.find? (fun y => y.2.quiesce.any fun x => x.cores.contains 0 && !x.returned.contains 0) = some (0, p) ∧
      s.parts.get? 0 = some p ∧ p.quiesce = some q ∧ q.stop = true ∧ (∀ c ∈ q.cores, c ∈ q.returned ∨ c = 0) ∧
      (∀ c ∈ q.cores, s.coreRests q c = true) ∧ ∀ c ∈ q.cores, s.imageCount c = 0 :=
  ⟨quiesced .yield (.quiesce 0) [0, 1] [1] true, _, _, rfl, rfl, rfl, rfl, by decide, by decide, by decide⟩

/-! ### Power -/

/-- An open step with this work and due time, whose owner is the weft. -/
def stepOf (work due : Nat) (risk : Bool) : Deadline :=
  { Deadline.empty with opened := true, n := 3, due := due, work := work, owner := some (0, 0), risk := risk, log := [⟨18500, 20500, 2048, 4096⟩] }

/-- Cluster 0 with this clock, its step and its deadlines. -/
def clocked (clock : ClockState) (fcur : Nat) (d : Deadline) : State :=
  { at_ .nop with
    tim := 20500
    clusters := [(0, { Cluster.reset with
      clock := clock, fcur := fcur, deadlines := [(1, d)], enstatic := 1000, vf := [(72, 5), (86, 7)]
      accounts := [⟨1, 7, false, true, true⟩], resid := [(1, 30), (2, 12)] })] }

/-- A step that is late, one that wants a higher step, one that is done, with the cluster at a step that stays or moves; a stopped clock. -/
theorem test_witness_PowerEvents_governor :
    (∀ x ∈ [(stepOf 5 0 false, 2450, 1, false), (stepOf 5 0 true, 2100, 0, true), (stepOf 1000000 40000 false, 300, 1, true), (stepOf 0 0 false, 300, 0, false)],
      ∃ (s : State) (cap : Nat), (s.cluster 0).clock = .running ∧ cap = min (s.cluster 0).fsw s.pkg.fctl ∧ (∃ i, i < 87 ∧ cap = 300 + 25 * i) ∧
        ((s.cluster 0).deadlines.map fun d => d.1).Nodup ∧ (∀ d ∈ (s.cluster 0).deadlines, d.1 < 2 ^ 32) ∧
        (s.cluster 0).deadlines = [(1, x.1)] ∧ (s.cluster 0).fcur = x.2.1 ∧ ((s.cluster 0).deadlines.filter fun d => newRisk d.2 s.tim cap).length = x.2.2.1 ∧
        decide ((s.cluster 0).fcur < wanted x.1 s.tim cap ∨ wanted x.1 s.tim cap + 50 ≤ (s.cluster 0).fcur) = x.2.2.2 ∧
        (s.weft? 0 0).any (fun w => !w.ended) = true) ∧
    (∃ (s : State), (s.cluster 0).clock ≠ .running) ∧ (∃ (s : State), s.pkg.plimit < 1501) ∧ ∃ (s : State), 100 * 1424 < 95 * s.pkg.plimit := by
  refine ⟨fun x hx => ?_, ⟨clocked (.relock 2175) 2100 (stepOf 0 0 false), by decide⟩, ⟨State.reset, by decide⟩, State.reset, by decide⟩
  simp only [List.mem_cons, List.not_mem_nil, or_false] at hx
  rcases hx with rfl | rfl | rfl | rfl
  · exact ⟨clocked .running 2450 (stepOf 5 0 false), 2450, rfl, by decide, ⟨86, by decide⟩, by decide⟩
  · exact ⟨clocked .running 2100 (stepOf 5 0 true), 2450, rfl, by decide, ⟨86, by decide⟩, by decide⟩
  · exact ⟨clocked .running 300 (stepOf 1000000 40000 false), 2450, rfl, by decide, ⟨86, by decide⟩, by decide⟩
  · exact ⟨clocked .running 300 (stepOf 0 0 false), 2450, rfl, by decide, ⟨86, by decide⟩, by decide⟩

/-- A running cluster whose last interval and running one have this weighted energy by context. -/
def balanced (prev cur : Tab Nat) (departing : Option Word) : State :=
  { State.reset with clusters := [(0, { Cluster.reset with volt := 800, ballast := ⟨prev, cur, (prev.map fun x => x.2).sum, 800, departing⟩ })] }

/-- The estimate has fallen by more than 4 A. -/
def ballastFalls (c : Cluster) : Bool :=
  decide (4096 * c.volt * c.ballast.mv + 10 * (c.ballast.cur.map fun x => x.2).sum * c.ballast.mv < 10 * c.ballast.total * c.volt)

/-- A relock and a throttle that end with an energy period within them, with a governor evaluation, with none; a period with residents and one
with none; a fall of the current by more than 4 A and one of 4 A. -/
theorem test_witness_PowerEvents_stops :
    (∃ (s : State), (s.cluster 0).clock = .relock 2175 ∧ s.tim / 10 / 100 - (s.tim / 10 - 120) / 100 = 1 ∧ s.tim / 10 / 200 ≠ (s.tim / 10 - 120) / 200) ∧
    (∃ (s : State), (s.cluster 0).clock = .throttle ∧ s.tim / 10 / 100 - (s.tim / 10 - 20) / 100 = 0 ∧ s.tim / 10 / 200 = (s.tim / 10 - 20) / 200) ∧
    (∃ (s : State), (s.cluster 5).clock = .throttle ∧ s.residents 5 = [] ∧ (s.cluster 5).resid = [] ∧ 0 < s.tim / 10 / 100 - (s.tim / 10 - 120) / 100) ∧
    (∃ (s : State), (s.cluster 0).clock = .running ∧ ((s.cluster 0).resid.map fun x => x.1).Nodup ∧ (∀ x ∈ (s.cluster 0).resid, x.1 < 2 ^ 32) ∧
      (∀ a ∈ (s.cluster 0).accounts, a.count + (s.cluster 0).enstatic.toNat < 2 ^ 48) ∧ 0 < ((s.cluster 0).resid.map fun x => x.2).sum) ∧
    (∃ (s : State), (s.cluster 0).clock = .running ∧ ((s.cluster 0).resid.map fun x => x.2).sum = 0) ∧
    (∃ (s : State) (ctx : Word), ballastFalls (s.cluster 0) = true ∧ (s.cluster 0).ballast.departing = none ∧
      Departs (s.cluster 0).ballast.prev (s.cluster 0).ballast.cur ctx) ∧
    (∃ (s : State), ballastFalls (s.cluster 0) = true ∧ (s.cluster 0).ballast.departing = some 1) ∧
    ∃ (s : State), (s.cluster 0).volt ≠ 0 ∧ (s.cluster 0).ballast.mv ≠ 0 ∧ ballastFalls (s.cluster 0) = false :=
  ⟨⟨clocked (.relock 2175) 2100 (stepOf 0 0 false), by decide⟩, ⟨clocked .throttle 2100 (stepOf 0 0 false), by decide⟩,
    ⟨{ at_ .nop with tim := 20500, clusters := [(5, { Cluster.reset with clock := .throttle })] }, by decide⟩,
    ⟨clocked .running 2100 (stepOf 0 0 false), by decide⟩, ⟨State.reset, by decide⟩,
    ⟨balanced [(1, 4000000)] [(1, 200)] none, 1, by decide, rfl, by decide, 4000000, rfl, fun n q h => by
      have h : Tab.get? [(1, 4000000)] n = some q := h
      simp only [Tab.get?] at h
      split at h
      · next e => cases h; subst e; decide
      · cases h⟩,
    ⟨balanced [(1, 4000000)] [(1, 200)] (some 1), by decide, rfl⟩, balanced [(1, 200)] [(1, 200)] none, by decide⟩

/-- A cluster idle for 50 µs and one short of it; a gated one that a dispatch has woken, whose swatch is still there and whose swatch is gone. -/
theorem test_witness_PowerEvents_gating :
    (∀ p ∈ [(5000, true), (4999, false)], ∃ (s : State), (s.cluster 3).gating = .on ∧ (s.cluster 3).gateEn = true ∧ s.cores = [] ∧ s.swatches = [] ∧
      decide (5000 ≤ (s.cluster 3).idleTicks) = p.2 ∧ s.dispatch? 3 = none) ∧
    (∃ (s : State), (s.cluster 3).gating = .starting) ∧
    (∃ (s : State), (s.cluster 0).gating = .waking 1 100 ∧ (∃ (u : State), OneCluster s u 0 { s.cluster 0 with gating := .on, idleTicks := 0 } ∧ u.dispatch? 0 = some (1, 0))) ∧
    ∃ (s : State), (s.cluster 0).gating = .waking 1 100 ∧ ∃ (u : State), OneCluster s u 0 { s.cluster 0 with gating := .on, idleTicks := 0 } ∧ u.dispatch? 0 = none := by
  refine ⟨fun p hp => ?_, ⟨{ State.reset with clusters := [(3, { Cluster.reset with gating := .starting })] }, by decide⟩,
    ⟨{ waitingSwatch (at_ .nop) with clusters := [(0, { (at_ .nop).cluster 0 with gating := .waking 1 100, idleTicks := 9 })] }, rfl,
      { waitingSwatch (at_ .nop) with clusters := [(0, { (at_ .nop).cluster 0 with gating := .on, idleTicks := 0 })] }, ⟨rfl, rfl, fun c hc => ?_⟩, by decide⟩,
    { State.reset with clusters := [(0, { Cluster.reset with gating := .waking 1 100, idleTicks := 9 })] }, rfl,
      { State.reset with clusters := [(0, { Cluster.reset with gating := .on, idleTicks := 0 })] }, ⟨rfl, rfl, fun c hc => ?_⟩, by decide⟩
  · simp only [List.mem_cons, List.not_mem_nil, or_false] at hp
    rcases hp with rfl | rfl
    · exact ⟨{ State.reset with clusters := [(3, { Cluster.reset with idleTicks := 5000 })] }, by decide⟩
    · exact ⟨{ State.reset with clusters := [(3, { Cluster.reset with idleTicks := 4999 })] }, by decide⟩
  · cases c with
    | zero => exact absurd rfl hc
    | succ n => rfl
  · cases c with
    | zero => exact absurd rfl hc
    | succ n => rfl

/-- A firmware job that passes every check, one whose places are taken, one whose ranges overlap; spsize for a context of its die and for none. -/
def firmware (src dst : DWord) (n : Word) (jobs : List Job) : State :=
  { at_ .nop with clusters := [(0, { Cluster.reset with cpSrc := src, cpDst := dst, cpLen := n, cpCore := 5 })], cores := [(5, { Core.reset with jobs := jobs })] }

theorem test_witness_PowerEvents_registers :
    (∀ p ∈ [((0 : DWord), (0x40 : DWord), (0x40 : Word), 0, true), (0x20, 0x40, 0x40, 0, false), (0, 0x40, 0x40, 32, true)], ∃ (s : State),
      decide ((s.cluster 0).cpSrc.toNat % 32 = 0 ∧ (s.cluster 0).cpDst.toNat % 32 = 0 ∧ (s.cluster 0).cpSrc.toNat < 2 ^ 60 ∧ (s.cluster 0).cpDst.toNat < 2 ^ 60 ∧
        (s.cluster 0).cpLen.toNat ≠ 0 ∧ (s.cluster 0).cpLen.toNat % 32 = 0 ∧ (s.cluster 0).cpCore.toNat ≤ 5 ∧ s.pkg.fclus.testBit 0 = false ∧
        (s.pkg.fcore.getD 0 0).testBit 5 = false ∧ ((s.cluster 0).cpSrc.toNat + (s.cluster 0).cpLen.toNat ≤ (s.cluster 0).cpDst.toNat ∨
        (s.cluster 0).cpDst.toNat + (s.cluster 0).cpLen.toNat ≤ (s.cluster 0).cpSrc.toNat)) = p.2.2.2.2 ∧ (s.core 5).jobs.length = p.2.2.2.1) ∧
    (∃ (s : State) (c : Ctx), s.ctx? (s.die 0).spctx = some c ∧ s.frontDie (s.die 0).spctx = 0) ∧ ∃ (s : State), s.ctx? (s.die 0).spctx = none := by
  refine ⟨fun p hp => ?_, ⟨{ at_ .nop with dies := [(0, { Die.reset with spctx := 1 })] }, _, rfl, by decide⟩, State.reset, by decide⟩
  simp only [List.mem_cons, List.not_mem_nil, or_false] at hp
  rcases hp with rfl | rfl | rfl
  · exact ⟨firmware 0 0x40 0x40 [], by decide⟩
  · exact ⟨firmware 0x20 0x40 0x40 [], by decide⟩
  · exact ⟨firmware 0 0x40 0x40 (List.replicate 32 (jobOf .firmware false 0 0)), by decide⟩

/-! ### The package -/

def goodStart : StartReport :=
  { signatureBad := none, flashError := none, watchdog := none, links := [], linkFail := none, dieFail := none, d2dFail := none, ports := [], portFail := none
    pkg := 7, routes := [] }

def withPkg (f : Package → Package) : State := { State.reset with pkg := f State.reset.pkg }

/-- A start that fails at each stage; one whose die, pair, link or port fails; the third start, that comes up and that fails; a start with a
link and a port trained; a start that completes in each mode; an expiry within a start and outside one. -/
theorem test_witness_PackageEvents_starts :
    (∃ (s : State) (r : StartReport), stageReason s.pkg r = some (0x09, 2)) ∧ (∃ (s : State) (r : StartReport), stageReason s.pkg r = some (0x01, 0)) ∧
    (∃ (s : State) (r : StartReport), stageReason s.pkg r = some (0x02, 1)) ∧ (∃ (s : State) (r : StartReport), stageReason s.pkg r = some (0x07, 3)) ∧
    (∃ (s : State) (r : StartReport), stageReason s.pkg r = none ∧ min (s.pkg.fsc + 1) 7 < 3 ∧ r.dieFail = some 3 ∧ lastReason s.pkg = (0, 0)) ∧
    (∃ (s : State) (r : StartReport), stageReason s.pkg r = none ∧ min (s.pkg.fsc + 1) 7 < 3 ∧ r.dieFail = none ∧ r.d2dFail = some 5 ∧ lastReason s.pkg ≠ (5, 5)) ∧
    (∃ (s : State) (r : StartReport), stageReason s.pkg r = none ∧ min (s.pkg.fsc + 1) 7 < 3 ∧ r.dieFail = none ∧ r.d2dFail = none ∧ r.linkFail = some (3, 23) ∧
      (lastReason s.pkg).1 = 1) ∧
    (∃ (s : State) (r : StartReport), stageReason s.pkg r = none ∧ min (s.pkg.fsc + 1) 7 < 3 ∧ r.dieFail = none ∧ r.d2dFail = none ∧ r.linkFail = none ∧ r.portFail = some 47) ∧
    (∃ (s : State) (r : StartReport), stageReason s.pkg r = none ∧ r.dieFail = none ∧ r.d2dFail = none ∧ r.linkFail = none ∧ r.portFail = none ∧
      min (s.pkg.fsc + 1) 7 < 3 ∧ (lastReason s.pkg).1 < 3 ∧ r.ports = [(47, 2)] ∧ r.links = [(3, 23, 256)]) ∧
    (∃ (s : State) (r : StartReport), stageReason s.pkg r = none ∧ r.dieFail = none ∧ r.d2dFail = none ∧ r.linkFail = none ∧ r.portFail = none ∧ 3 ≤ min (s.pkg.fsc + 1) 7) ∧
    (∃ (s : State) (r : StartReport), stageReason s.pkg r = none ∧ 3 ≤ min (s.pkg.fsc + 1) 7 ∧ r.linkFail = some (0, 0)) ∧
    (∀ n ∈ [2, 3], ∃ (s : State), s.pkg.boot = .starting ∧ s.pkg.fsc = n ∧ s.pkg.fclus.testBit 31 = false) ∧ ∃ (s : State), s.pkg.boot ≠ .starting :=
  ⟨⟨State.reset, { goodStart with flashError := some 2 }, by decide⟩, ⟨State.reset, { goodStart with signatureBad := some 0 }, by decide⟩,
    ⟨withPkg fun p => { p with fusedVer := [0, 2] }, goodStart, by decide⟩, ⟨State.reset, { goodStart with watchdog := some 3 }, by decide⟩,
    ⟨State.reset, { goodStart with dieFail := some 3 }, by decide⟩, ⟨State.reset, { goodStart with d2dFail := some 5 }, by decide⟩,
    ⟨withPkg fun p => { p with reasons := [0x1701] }, { goodStart with linkFail := some (3, 23) }, by decide⟩, ⟨State.reset, { goodStart with portFail := some 47 }, by decide⟩,
    ⟨State.reset, { goodStart with ports := [(47, 2)], links := [(3, 23, 256)] }, by decide⟩, ⟨withPkg fun p => { p with fsc := 2 }, goodStart, by decide⟩,
    ⟨withPkg fun p => { p with fsc := 2 }, { goodStart with linkFail := some (0, 0) }, by decide⟩,
    fun n _ => ⟨withPkg fun p => { p with boot := .starting, fsc := n }, rfl, rfl, Nat.zero_testBit 31⟩, ⟨State.reset, by decide⟩⟩

/-- Each kind of unit in service, the last of its kind; a unit already out; a pair that cuts die 3 off; a count that passes the threshold, one
that stays below it, and one that stands at its end. -/
theorem test_witness_PackageEvents_fences :
    (∀ u ∈ [FenceUnit.core 191, .cluster 31, .memLink 3 23, .port 47, .d2d 0], ∃ (s : State), s.pkg.fencedAlready u = false ∧ s.pkg.fcore.length = 32 ∧ s.pkg.flink.length = 4 ∧
      (∀ d, d < 4 → dieCut (s.pkg.fd2d ||| 2 ^ 0) d = false) ∧ (s.swatch? 0).isSome = true) ∧
    (∃ (s : State), s.pkg.fencedAlready (.cluster 5) = true) ∧
    (∃ (s : State) (k : Nat), s.pkg.fencedAlready (.d2d k) = false ∧ k < 6 ∧ dieCut (s.pkg.fd2d ||| 2 ^ k) 3 = true ∧ s.pkg.flink.length = 4) ∧
    (∃ (s : State), s.pkg.cecnt.length = 8 ∧ s.pkg.cethr = 5 ∧ s.pkg.cecnt.getD 7 0 = 5 ∧ (s.cluster 31).evq.length < Config.eventQueue) ∧
    (∃ (s : State), s.pkg.cethr = 5 ∧ s.pkg.cecnt.getD 7 0 + 1 ≤ 5) ∧ ∃ (s : State), s.pkg.cecnt.getD 7 0 = 2 ^ 32 - 1 := by
  refine ⟨fun u hu => ⟨at_ .nop, ?_⟩, ⟨withPkg fun p => { p with fclus := 32 }, by decide⟩, ?_, ⟨withPkg fun p => { p with cethr := 5, cecnt := [0, 0, 0, 0, 0, 0, 0, 5] }, by decide⟩,
    ⟨withPkg fun p => { p with cethr := 5 }, by decide⟩, ⟨withPkg fun p => { p with cecnt := [0, 0, 0, 0, 0, 0, 0, 2 ^ 32 - 1] }, rfl⟩⟩
  · simp only [List.mem_cons, List.not_mem_nil, or_false] at hu
    rcases hu with rfl | rfl | rfl | rfl | rfl <;> decide
  · exact ⟨withPkg fun p => { p with fd2d := 63 - 2 ^ 5 }, 5, by decide⟩

/-- A descriptor of 64 bytes per rank from address 0 to address 0x200. -/
def collBytes (op nmem root : Nat) : List Byte :=
  natBytes 8 0 ++ natBytes 8 0x200 ++ natBytes 4 64 ++ natBytes 2 3 ++ natBytes 1 op ++ natBytes 1 0 ++ natBytes 8 0 ++ natBytes 2 nmem ++ natBytes 2 root ++
    List.replicate 28 0

def collOf (form op root : Nat) (phase : CollPhase) : Coll :=
  { id := 5, form := form, sid := 0, wid := 0, ctx := 1, ver := 1, desc := collBytes op 3 root, members := [1, 0, 2], issue := 0
    pins := [⟨0, 0x100000, 16, false⟩], region := if form = 0 then some 1 else none, phase := phase, status := 0
    digest := 7, reserved := 0, told := false, shared := false, away := [] }

/-- What members 1 and 2 have said of an operation: sound, their 64 bytes and no mark. -/
def saidOf (c : Coll) : List CollMail :=
  [1, 2].map fun p => ⟨c.form * 65536 + 3, 0, p, some (0, 7), List.replicate 64 (BitVec.ofNat 8 p) ++ [0, 0]⟩

def collecting (c : Coll) : State :=
  { withWeft (paged (at_ .nop)) fun w => { w with flights := [{ flightOf (.collective 0 5) with vwr := [] }], flags := [(3, 1)] } with
    dies := [(0, { Die.reset with links := [(0, 16)], colls := [c] })]
    pkg := { State.reset.pkg with routes := [(1, [0]), (2, [0])], collMail := saidOf c } }

/-- A member in its prepare phase, sound and unsound; one that is past it; an operation that has failed, and an XRED, an XBC and an XAG with their
data here, and an XRED with no other member. -/
theorem test_witness_CollectivesRun_phases :
    (∃ (s : State) (c : Coll), s.coll? 0 5 = some c ∧ c.phase = .prepare ∧ c.region = none ∧ c.form ≠ 0 ∧ s.collStatus c = 0) ∧
    (∃ (s : State) (c : Coll), s.coll? 0 5 = some c ∧ c.phase = .prepare ∧ c.region = none ∧ c.form ≠ 0 ∧ s.collStatus c ≠ 0) ∧
    (∃ (s : State) (c : Coll), s.coll? 0 5 = some c ∧ c.phase ≠ .prepare) ∧
    ∀ x ∈ [(1, CollPhase.data), (2, .data), (3, .data), (1, .done), (1, .prepare)], ∃ (s : State) (c : Coll) (w : Weft) (f : Flight), s.coll? 0 5 = some c ∧ s.weft? c.sid c.wid = some w ∧
      w.flights[0]? = some f ∧ f.kind = .collective 0 5 ∧ f.poison = none ∧ f.vwr = [] ∧ (f.swr.map fun x => x.1).Nodup ∧ (c.form, c.phase) = x ∧ (c.phase = .prepare → c.members = [s.pkg.fpkg]) ∧ c.region = none ∧
      (let d := collDesc c.desc; let total := if c.form = 3 then d.nmem * d.len else d.len
        let out := (List.range total).map fun n => (c.pa (d.dst + n / 32 * 32) + n % 32, (0 : Byte))
        d.len % 32 = 0 ∧ d.len ≠ 0 ∧ d.src % 32 = 0 ∧ d.dst % 32 = 0 ∧ (∀ p ∈ c.pins, p.pa % 65536 = 0) ∧ (d.nmem ≤ 4096 ∧ d.root < d.nmem) ∧ d.op < 4 ∧
          c.away = [] ∧ (∀ n, n < d.len / 32 → pkgOf (c.pa (d.src + 32 * n)) = s.pkg.fpkg) ∧
          (∀ r, r < d.nmem → r ≠ c.members.findIdx (fun m => m == s.pkg.fpkg) →
            ((s.collMail? c r).any fun x => decide (d.len + d.len / 32 ≤ x.data.length)) = true) ∧
          (out.map fun p => p.1).Nodup ∧ ∀ p ∈ out, Writable s p.1) := by
  unfold Writable
  refine ⟨⟨collecting (collOf 1 3 0 .prepare), _, rfl, by decide⟩, ⟨collecting { collOf 1 3 0 .prepare with desc := collBytes 4 3 2 }, _, rfl, by decide⟩,
    ⟨collecting (collOf 1 3 0 .done), _, rfl, by decide⟩, fun x hx => ?_⟩
  simp only [List.mem_cons, List.not_mem_nil, or_false] at hx
  rcases hx with rfl | rfl | rfl | rfl | rfl
  · exact ⟨collecting (collOf 1 3 0 .data), _, _, _, rfl, rfl, rfl, by decide⟩
  · exact ⟨collecting (collOf 2 0 2 .data), _, _, _, rfl, rfl, rfl, by decide⟩
  · exact ⟨collecting (collOf 3 0 0 .data), _, _, _, rfl, rfl, rfl, by decide⟩
  · exact ⟨collecting (collOf 1 3 0 .done), _, _, _, rfl, rfl, rfl, by decide⟩
  · exact ⟨collecting { collOf 1 3 0 .prepare with members := [0], desc := collBytes 3 1 0 }, _, _, _, rfl, rfl, rfl, by decide⟩

/-- An operation whose destination another package holds in part, one that waits for it to be acknowledged, acknowledged and not; a source of
which another package has answered for a sector. -/
theorem test_witness_CollectivesRun_far :
    (∃ (s : State) (c : Coll), s.coll? 0 5 = some c ∧ c.phase = .data ∧ pkgOf (c.pa (collDesc c.desc).dst) ≠ s.pkg.fpkg) ∧
    (∀ b, ∃ (s : State) (c : Coll), s.coll? 0 5 = some c ∧ c.phase = .written ∧ s.pkg.acked = b) ∧
    ∃ (s : State) (c : Coll), SourceRead s c ∧ pkgOf (c.pa (collDesc c.desc).src) ≠ s.pkg.fpkg ∧ ∀ a ∈ c.away, a.answer ≠ none := by
  refine ⟨⟨collecting { collOf 1 3 0 .data with pins := [⟨0, 2 ^ 48, 16, false⟩] }, _, rfl, by decide⟩, fun b => ?_,
    collecting (collOf 1 3 0 .data), { collOf 1 3 0 .data with
      pins := [⟨0, 2 ^ 48, 16, false⟩]
      away := [⟨none, 2 ^ 48, 0, some (List.replicate 32 9, false)⟩, ⟨none, 2 ^ 48 + 32, 1, some (List.replicate 32 9, false)⟩] },
    fun n hn => .inr ⟨(List.replicate 32 9, false), ?_, rfl⟩, by decide⟩
  · cases b
    · exact ⟨{ collecting (collOf 1 3 0 .written) with pkg := { State.reset.pkg with unacked := [⟨1, 0, false, 0, 0, false, 3, 0, 2 ^ 48, []⟩] } }, _, rfl, by decide⟩
    · exact ⟨collecting (collOf 1 3 0 .written), _, rfl, by decide⟩
  · have : n = 0 ∨ n = 1 := by
      have : (collDesc (collOf 1 3 0 .data).desc).len / 32 = 2 := by decide
      simp only [collOf] at hn this
      omega
    rcases this with rfl | rfl <;> decide

/-- Two members agree at the end of their prepare; one reports a failure; digests differ; one has not spoken. -/
theorem test_members_decide : ∀ x ∈ [(some (0, (7 : Word)), MemberVerdict.sound), (some (5, 7), .aborted), (some (0, 8), .digestsDiffer), (none, .waiting)],
    let c := collOf 1 3 0 .prepare
    ({ collecting c with pkg := { (collecting c).pkg with collMail := (saidOf c).map fun m => { m with verdict := x.1 } } } : State).collVerdict c = x.2 := by
  decide

/-- An XPERM of one sector: below the floor, not yet there, already created, and free to reserve. -/
def permuting (ver : Nat) (vers : List Nat) : State :=
  let bytes := natBytes 8 0 ++ natBytes 8 0 ++ natBytes 4 32 ++ natBytes 2 3 ++ natBytes 2 0 ++ natBytes 8 0 ++ natBytes 4 2 ++ natBytes 4 0x103 ++
    List.replicate 24 0
  { collecting { collOf 0 0 0 .prepare with ver := ver, members := [0, 1], desc := bytes } with
    regions := [(1, { region 4 [] with sectors := [(0, ⟨vers.map fun n => ⟨n, List.replicate 32 0, false⟩, []⟩)], vbase := 0 })] }

theorem test_witness_CollectivesRun_xperm :
    ∀ x ∈ [(0, [0, 1]), (2, [0, 1]), (1, [0, 1, 2]), (1, [0, 1])], ∃ (s : State) (c : Coll) (r : Region), s.coll? 0 5 = some c ∧ c.phase = .prepare ∧ c.form = 0 ∧
      c.region = some 1 ∧ s.regions.get? 1 = some r ∧ s.collStatus c = 0 ∧ (collDesc c.desc).sectors = 1 ∧ c.reserved = 0 ∧ c.ver = x.1 ∧ r.floor = 1 ∧
      (s.collSector c r 0).2.vers.map (fun v => v.n) = x.2 ∧ (s.collSector c r 0).2.live < r.depth ∧ r.slotFree = true ∧ c.status = 0 := by
  intro x hx
  simp only [List.mem_cons, List.not_mem_nil, or_false] at hx
  rcases hx with rfl | rfl | rfl | rfl
  · exact ⟨permuting 0 [0, 1], _, _, rfl, rfl, rfl, rfl, rfl, by decide⟩
  · exact ⟨permuting 2 [0, 1], _, _, rfl, rfl, rfl, rfl, rfl, by decide⟩
  · exact ⟨permuting 1 [0, 1, 2], _, _, rfl, rfl, rfl, rfl, rfl, by decide⟩
  · exact ⟨permuting 1 [0, 1], _, _, rfl, rfl, rfl, rfl, rfl, by decide⟩

/-! ### The fabric -/

/-- Port 3 in traffic, with this replay buffer and this many naks in a row. -/
def linked (replay : List (List Byte)) (naks : Nat) : State :=
  withPkg fun p => { p with ports := [(3, { Port.reset with up := true, gen := 1, expect := 4095, sendSeq := 17, replay := replay, nakRun := naks })] }

def sender : Port := { Port.reset with sendSeq := 4095, expect := 18 }

/-- A message whose fields stand at their ends. -/
def farMsg (kind : Nat) : Msg := ⟨4095, 3, true, 77, 2, true, kind, 2 ^ 20 - 1, 2 ^ 60 - 5, [1, 2, 3, 0, 0]⟩

/-- A port out of traffic; a flit of a wrong length; an idle flit that acknowledges, one that does not, the fifteenth and the sixteenth; a message
with every field at its end; a port that trains, and one that does not exist. -/
theorem test_witness_FabricEvents_flits :
    (∃ (s : State), (s.pkg.port 3).carries = false) ∧
    (∃ (s : State) (bs : List Byte), (s.pkg.port 3).carries = true ∧ (s.pkg.port 3).replay.length < 512 ∧ bs.length ≠ 128) ∧
    (∃ (s : State) (p : Port), (s.pkg.port 3).carries = true ∧ p.sendSeq = (s.pkg.port 3).expect ∧ p.sendSeq < 4096 ∧ s.pkg.sent = [] ∧ (s.pkg.port 3).replay = [] ∧
      (s.pkg.port 3).nakRun = 0) ∧
    (∃ (s : State) (p : Port) (f : List Byte), (s.pkg.port 3).carries = true ∧ p.sendSeq = (s.pkg.port 3).expect ∧ s.pkg.sent = [] ∧ (s.pkg.port 3).replay = [f] ∧
      fieldAt f 0 8 / 2 ^ 52 % 4096 = (p.expect + 4095) % 4096) ∧
    (∀ n ∈ [14, 15], ∃ (s : State) (p : Port), (s.pkg.port 3).carries = true ∧ p.sendSeq = (s.pkg.port 3).expect ∧ s.pkg.sent = [] ∧ (s.pkg.port 3).replay.length < 512 ∧
      (∀ f ∈ (s.pkg.port 3).replay, fieldAt f 0 8 / 2 ^ 52 % 4096 ≠ (p.expect + 4095) % 4096) ∧ (s.pkg.port 3).nakRun = n) ∧
    (∀ k ∈ [4, 6], ∃ (s : State) (p : Port) (m : Msg), (s.pkg.port 3).carries = true ∧ p.sendSeq = (s.pkg.port 3).expect ∧ p.sendSeq < 4096 ∧ FitsHeader m ∧
      m.body.length ≤ 96 ∧ (s.pkg.port 3).partial_ = [] ∧ (s.pkg.port 3).replay = [] ∧ (s.pkg.port 3).nakRun = 0 ∧ m.mkind = k) ∧
    (∃ (s : State), (s.pkg.port 3).carries = true ∧ 16 ≤ (s.pkg.port 3).nakRun) ∧
    (∃ (s : State), (47 < 48) ∧ (s.pkg.port 47).fenced = false) ∧ ∃ (s : State), (s.pkg.port 3).fenced = true := by
  unfold FitsHeader
  refine ⟨⟨State.reset, by decide⟩, ⟨linked [] 0, [], by decide⟩, ⟨linked [] 0, sender, by decide⟩,
    ⟨linked [natBytes 8 (17 * 2 ^ 52)] 0, sender, natBytes 8 (17 * 2 ^ 52), by decide⟩, fun n hn => ?_, fun k hk => ?_, ⟨linked [] 16, by decide⟩, ⟨State.reset, by decide⟩,
    withPkg fun p => { p with ports := [(3, { Port.reset with fenced := true })] }, by decide⟩
  · simp only [List.mem_cons, List.not_mem_nil, or_false] at hn
    rcases hn with rfl | rfl
    · exact ⟨linked [natBytes 8 (16 * 2 ^ 52)] 14, sender, by decide⟩
    · exact ⟨linked [natBytes 8 (16 * 2 ^ 52)] 15, sender, by decide⟩
  · simp only [List.mem_cons, List.not_mem_nil, or_false] at hk
    rcases hk with rfl | rfl
    · exact ⟨linked [] 0, sender, farMsg 4, by decide⟩
    · exact ⟨linked [] 0, sender, farMsg 6, by decide⟩

/-- A request to this package at a place that it may write, one to another package, an answer with a whole sector. -/
def homeMsg (kind : Nat) (body : List Byte) : Msg := ⟨0, 0, false, 9, 1, false, kind, 5, 0x100018, body⟩

/-- An atomic of each operation and width. -/
def atomicBody (op n : Nat) : List Byte := natBytes 1 op ++ natBytes 1 n ++ natBytes 6 0 ++ natBytes 8 7 ++ natBytes 8 0

theorem test_witness_FabricEvents_messages :
    (∃ (s : State) (m : Msg), pkgOf m.addr = s.pkg.fpkg) ∧ (∃ (s : State) (m : Msg), pkgOf m.addr ≠ s.pkg.fpkg ∧ 33 ≤ m.body.length) ∧
    (∃ (s : State) (m : Msg), pkgOf m.addr = s.pkg.fpkg ∧ m.body ≠ [] ∧ ∀ p ∈ (List.range m.body.length).map fun j => (m.addr + j, m.body.getD j 0), Writable s p.1) ∧
    (∀ x ∈ [0, 3, 4, 5, 6, 7, 8, 12].flatMap fun o => [(o, 4), (o, 8)], ∃ (s : State) (m : Msg), pkgOf m.addr = s.pkg.fpkg ∧ fieldAt m.body 1 1 = x.2 ∧
      m.addr % x.2 = 0 ∧ (∀ j, j < x.2 → Writable s (m.addr + j)) ∧ fieldAt m.body 0 1 = x.1) ∧
    (∃ (s : State) (m : Msg) (sw : Swatch), s.launchOf (fieldAt m.body 0 4) (fieldAt m.body 4 4) = some (0, 0, sw) ∧ sw.launch = 0 ∧ s.swatch? 0 = some sw ∧
      sw.core? = some 0 ∧ fieldAt m.body 8 4 % 32 = 31 ∧
      (match arriveAt (s.barRec 0 sw .rl 31) (fieldAt m.body 12 4) (s.unitsDeclared sw .rl) (s.unitsLive 0 sw .rl) (fieldAt m.body 16 4) with
        | .ok _ => true | .error _ => false) = true) ∧
    (∃ (s : State) (m : Msg), s.launchOf (fieldAt m.body 0 4) (fieldAt m.body 4 4) = none) ∧
    (∀ n ∈ [0, 1], ∃ (s : State) (m : Msg), fieldAt m.body 8 1 = n ∧
      s.pkg.collMail.any (fun x => x.key == fieldAt m.body 0 4 && x.issue == fieldAt m.body 4 4 && x.pkg == m.spkg) = true) ∧
    (∀ n ∈ [0, 1], ∃ (s : State) (m : Msg) (r : Region), s.regions.get? (fieldAt m.body 0 4) = some r ∧ fieldAt m.body 4 1 = n) ∧
    (∀ n ∈ [63, 64], ∃ (s : State) (m : Msg), fieldAt m.body 0 1 = 1 ∧ s.pkg.fwd.length = n) ∧ ∃ (m : Msg), fieldAt m.body 0 1 ≠ 1 := by
  unfold Writable
  refine ⟨⟨State.reset, homeMsg 1 [], by decide⟩, ⟨State.reset, { homeMsg 2 (List.replicate 33 5) with addr := 2 ^ 48 }, by decide⟩,
    ⟨paged (at_ .nop), homeMsg 3 [1, 2, 3], by decide⟩, ?_, ⟨at_ .nop, homeMsg 7 (natBytes 4 0 ++ natBytes 4 0 ++ natBytes 4 31 ++ natBytes 4 0 ++ natBytes 4 0), _, rfl, by decide⟩,
    ⟨State.reset, homeMsg 7 [], by decide⟩, fun n hn => ?_,
    fun n hn => ?_, fun n hn => ?_, homeMsg 12 [0], by decide⟩
  · have h : ∀ x ∈ [0, 3, 4, 5, 6, 7, 8, 12].flatMap fun o => [(o, 4), (o, 8)], let s := paged (at_ .nop)
        let m := homeMsg 5 (atomicBody x.1 x.2)
        pkgOf m.addr = s.pkg.fpkg ∧ fieldAt m.body 1 1 = x.2 ∧ m.addr % x.2 = 0 ∧ (∀ j, j < x.2 → pkgOf (m.addr + j) = s.pkg.fpkg ∧
          s.present (sectorOf (m.addr + j)) = true ∧ (s.die (dieOf (m.addr + j))).mig.track = false) ∧ fieldAt m.body 0 1 = x.1 := by decide
    exact fun x hx => ⟨_, _, h x hx⟩
  · simp only [List.mem_cons, List.not_mem_nil, or_false] at hn
    rcases hn with rfl | rfl
    · exact ⟨collecting (collOf 1 3 0 .prepare), { homeMsg 10 (natBytes 4 (65536 + 3) ++ natBytes 4 0 ++ [0, 0]) with spkg := 1 }, by decide⟩
    · exact ⟨collecting (collOf 1 3 0 .prepare), { homeMsg 10 (natBytes 4 (65536 + 3) ++ natBytes 4 0 ++ [1, 0]) with spkg := 1 }, by decide⟩
  · simp only [List.mem_cons, List.not_mem_nil, or_false] at hn
    rcases hn with rfl | rfl
    · exact ⟨rising [0] 2, homeMsg 11 (natBytes 4 1 ++ [0]), _, rfl, by decide⟩
    · exact ⟨rising [0] 2, homeMsg 11 (natBytes 4 1 ++ [1]), _, rfl, by decide⟩
  · simp only [List.mem_cons, List.not_mem_nil, or_false] at hn
    rcases hn with rfl | rfl
    · exact ⟨withPkg fun p => { p with fwd := (List.range 63).map fun n => (n, 1) }, homeMsg 12 [1], by decide⟩
    · exact ⟨withPkg fun p => { p with fwd := (List.range 64).map fun n => (n, 1) }, homeMsg 12 [1], by decide⟩

/-- Die 0 serves partition 0, cluster 0, whose cores are stopped or run; a transfer to this package, and to one that no route reaches. -/
def moving (stopped : Bool) : State :=
  { at_ .nop with parts := [(0, ⟨1, 1, 0, 0, 0, 0, none, false, none⟩)], cores := (List.range 6).map fun c => (c, { Core.reset with stopped := stopped }) }

theorem test_witness_FabricEvents_migration :
    (∃ (v : Word), nbits v.toNat 30 29 ≠ 0) ∧ (∃ (v : Word), nbits v.toNat 23 12 ≠ 0) ∧
    (∃ (v : Word), nbits v.toNat 30 29 = 0 ∧ nbits v.toNat 23 12 = 0 ∧ v.getLsbD 31 = false) ∧
    (∀ x ∈ [((0x80000000 : Word), false), (0x9F000001, true), (0x9F000000, true)], ∃ (s : State) (p : Part), nbits x.1.toNat 30 29 = 0 ∧ nbits x.1.toNat 23 12 = 0 ∧
      x.1.getLsbD 31 = true ∧ s.servedPart 0 = some (0, p) ∧ (decide (∃ c ∈ s.partCores p, (s.core c).stopped = false) = !x.2) ∧
      decide (x.1.toNat % 4096 ≠ s.pkg.fpkg ∧ s.pkg.reaches (x.1.toNat % 4096) = false) = decide (x.1 = 0x9F000001)) ∧
    (∃ (s : State) (m : Msg) (c : Nat × Ctx), s.pkg.arrived = [m] ∧ m.ddie = 0 ∧ s.ctxsOf (fieldAt m.body 2 4) = [c] ∧ s.pkg.landed.get? 0 = none) ∧
    ∃ (s : State), ∀ m ∈ s.pkg.arrived, m.ddie ≠ 0 := by
  refine ⟨⟨0x20000000, by decide⟩, ⟨0x1000, by decide⟩, ⟨0x1F000FFF, by decide⟩, fun x hx => ?_,
    ⟨{ moving true with pkg := { State.reset.pkg with arrived := [homeMsg 12 [0, 0, 0, 0, 0, 0]] } }, _, _, rfl, rfl, rfl, rfl⟩, State.reset, by decide⟩
  simp only [List.mem_cons, List.not_mem_nil, or_false] at hx
  rcases hx with rfl | rfl | rfl
  · exact ⟨moving false, _, by decide, by decide, by decide, rfl, by decide⟩
  · exact ⟨moving true, _, by decide, by decide, by decide, rfl, by decide⟩
  · exact ⟨moving true, _, by decide, by decide, by decide, rfl, by decide⟩

/-! ### Steps and invariants -/

/-- The state of a turn that the agenda gives to the weft. -/
def turnIn (s : State) : State := { ({ s with agenda := [.issue 0 0] } : State).beat with agenda := [] }

theorem turn_in (s : State) : TurnOf { s with agenda := [.issue 0 0] } 0 0 (turnIn s) := .inl ⟨[], rfl, rfl⟩

/-- At its turn the weft may issue, and the property holds. -/
def turned (s : State) (p : Swatch → Weft → Bool) : Bool :=
  match (turnIn s).swatch? 0, (turnIn s).weft? 0 0 with
  | some sw, some w => (turnIn s).mayIssue sw w && p sw w
  | _, _ => false

theorem turned_ex {s : State} {p : Swatch → Weft → Bool} (h : turned s p = true) : ∃ (s u : State) (sw : Swatch) (w : Weft), TurnOf s 0 0 u ∧
    u.swatch? 0 = some sw ∧ u.weft? 0 0 = some w ∧ u.mayIssue sw w = true ∧ p sw w = true := by
  unfold turned at h
  split at h
  next sw w h1 h2 => exact ⟨_, _, sw, w, turn_in s, h1, h2, (Bool.and_eq_true _ _ ▸ h).1, (Bool.and_eq_true _ _ ▸ h).2⟩
  next => cases h

/-- The words from the pc of the weft's clause on, where it stands in one whose lines are cached. -/
def turnWords (u : State) (sw : Swatch) (w : Weft) : Option (List Word) :=
  match w.wait, w.clause, w.frontier with
  | none, some cl, e :: _ =>
    if u.missingLine sw.clu sw.ctx e.hdr.toNat = none then
      some ((u.clauseWords sw.clu sw.ctx e.hdr.toNat (clauseLen cl.h0)).drop (((e.pc - e.hdr).toNat - 8) / 4))
    else none
  | _, _, _ => none

/-- The missing line of the weft's clause, with what its fetch meets. -/
def turnFetch (u : State) (sw : Swatch) (w : Weft) : Option (Option (Nat × Nat)) :=
  match w.wait, w.clause, w.frontier with
  | none, some _, e :: _ => (u.missingLine sw.clu sw.ctx e.hdr.toNat).map fun l => u.fetchFault sw.clu sw.ctx e.hdr.toNat l
  | _, _, _ => none

def uncached (s : State) : State := { s with clusters := [(0, { s.cluster 0 with icache := [] })] }

def codePaged : State :=
  let s := paged (at_ .nop)
  uncached { s with mem := memPutBytes s.mem 0x40000 (natBytes 8 0x100073) }

/-- The weft's turn on a word: an instruction, a word that encodes nothing, a woken wait, a weft between clauses with its line and at a bad
header, a line to fetch and one whose fetch traps, an event on the agenda, and one that has come about, and a machine with no catch. -/
theorem test_witness_AStepRunsTheDecodedInstruction :
    (∀ i ∈ [Instr.nop, .fence .pk true .rel], turned (at_ i) (fun sw w => (turnWords (turnIn (at_ i)) sw w).any fun ws =>
      match ws with | x :: ls => (match decode x ls with | .ok (j, rest) => j == i && rest.isEmpty | .error _ => false) | [] => false) = true) ∧
    turned (State.reset.withFetchWord 32 0x21C00000) (fun sw w => (turnWords (turnIn (State.reset.withFetchWord 32 0x21C00000)) sw w).any fun ws =>
      match ws with | x :: ls => (match decodeRaw x.toNat ls with | .ok _ => false | .error _ => true) | [] => false) = true ∧
    turned (withWeft (waiting (.waitw (.s 5) false false) .watch) fun w => { w with wait := w.wait.map fun x => { x with woken := true } })
      (fun _ w => w.wait.any fun x => x.woken) = true ∧
    turned (atHeader (at_ .nop) 0) (fun sw w => w.wait.isNone && w.clause.isNone && (match sortFrontier w.frontier with
      | e :: _ => ((turnIn (atHeader (at_ .nop) 0)).missingLine sw.clu sw.ctx e.hdr.toNat).isNone | [] => false)) = true ∧
    turned (atHeader (at_ .nop) 3) (fun sw w => w.wait.isNone && w.clause.isNone && (match sortFrontier w.frontier with
      | e :: _ => badTarget ((turnIn (atHeader (at_ .nop) 3)).codeSize sw.ctx) e.hdr | [] => false)) = true ∧
    turned codePaged (fun sw w => turnFetch (turnIn codePaged) sw w == some none) = true ∧
    turned (uncached (at_ .nop)) (fun sw w => (turnFetch (turnIn (uncached (at_ .nop))) sw w).any (fun x => x.isSome) && !w.trapMode) = true ∧
    (∃ (s : State), s.agenda = [.event .fscClear]) ∧ (∃ (s : State), s.agenda = [] ∧ s.beat.enabledEvent.isSome = true) ∧
    ∃ (s : State), s.pkg.catches = [] := by
  refine ⟨fun i hi => ?_, by decide, by decide, by decide, by decide, by decide, by decide, ⟨{ State.reset with agenda := [.event .fscClear] }, rfl⟩,
    ⟨withWeft (at_ .nop) fun w => { w with flights := [flightOf .plain], flags := [(3, 1)] }, rfl, by decide⟩, State.reset, rfl⟩
  simp only [List.mem_cons, List.not_mem_nil, or_false] at hi
  rcases hi with rfl | rfl <;> decide

theorem test_witness_EveryInstructionRoundTripsThroughItsWords : ∃ (i : Instr), i.hasEncoding = true ∧ i.wellFormed = true ∧ i.lits.length = 2 :=
  ⟨.dlset (.lit 200000) (.lit 1000000), by decide⟩

theorem test_witness_EveryStepKeepsTheMemoryInvariant : ∃ (s t : State), MemInv s ∧ s.mem ≠ [] ∧ step s = .next t :=
  ⟨{ paged (at_ .nop) with agenda := [.event .fscClear] }, _, (by decide : Memory.wf (paged (at_ .nop)).mem = true), by decide, rfl⟩

/-! ### What another package holds back -/

/-- Another package has not acknowledged a write. -/
def owing (s : State) : State := { s with pkg := { s.pkg with unacked := [homeMsg 3 [1]] } }

/-- The page at 0x30000 lies on package 1, which a route reaches. -/
def afar (s : State) : State :=
  { paged s with mem := memPutBytes (paged s).mem 0x40018 (natBytes 8 (2 ^ 48 + 0x100033)), pkg := { s.pkg with routes := [(1, [0])] } }

def pageFar : Trans := ⟨2 ^ 48 + 0x100033, 16, 2 ^ 48 + 0x100000⟩

/-- Nothing of the core is buffered or under way. -/
def clearAt (s : State) (k : Site) : Bool := k.core.all fun c => (s.core c).wbuf.isEmpty && (s.die (dieOfCore c)).out.isEmpty

theorem clearAt_clear {s : State} {k : Site} (h : clearAt s k = true) : Clear s k := fun c hc => by
  unfold clearAt at h
  rw [hc, Option.all_some, Bool.and_eq_true, List.isEmpty_iff, List.isEmpty_iff] at h
  exact h

/-- A load whose sector another package has not answered for. -/
theorem test_witness_LoadsCarryTheBytesTheirCoreSees_held : ∃ s i k x, Issues s i k ∧ loadRow k i = some x ∧
    (∀ y ∈ k.accessLanes x.scalar x.addr, broken x.n y.2 = none ∧ Mapped s k .load y.2 pageFar) ∧
    ∃ y ∈ k.accessLanes x.scalar x.addr, s.unanswered k.w.away pageFar.pa x.n ≠ [] :=
  let i : Instr := .ld (.v 5) (.v 2) (.sp .z) false false .b32
  let s := withV (withV (afar (at_ i)) 2 0x30000) 3 0
  have ⟨k, hI, hx⟩ := meets (s := s) (i := i) (p := fun k => ((loadRow k i).any fun x =>
      lanesAt s k .load x.n (k.accessLanes x.scalar x.addr) pageFar && !(s.unanswered k.w.away pageFar.pa x.n).isEmpty) = true) (by decide)
  match hr : loadRow k i, hx with
  | some x, hx => by
    rw [Option.any_some, Bool.and_eq_true, Bool.not_eq_true', List.isEmpty_eq_false_iff] at hx
    have hm := lanesAt_mapped hx.1
    exact ⟨s, i, k, x, hI, hr, hm.2, _, List.getLast_mem hm.1, hx.2⟩

/-- STREL at .rl while a write is not acknowledged, and when all are. -/
theorem test_witness_StoresWriteExactlyTheirBytes_held : ∀ a ∈ [false, true], ∃ s i k x, Issues s i k ∧ storeRow k i = some x ∧
    (∀ y ∈ k.accessLanes x.scalar x.addr, broken x.n y.2 = none ∧ Mapped s k .store y.2 page0 ∧ s.bad.contains (sectorOf page0.pa) = false) ∧
    OnePage (k.accessLanes x.scalar x.addr) (fun _ => page0) ∧ Clear s k ∧ x.far = true ∧ s.pkg.acked = a := by
  let i : Instr := .strel (.v 4) (.v 2) .rl false .b64
  have run : ∀ (s : State) a, (issuesNow s i && s.site?.any fun k => decide (((storeRow k i).any fun x =>
      let ls := k.accessLanes x.scalar x.addr
      lanesAt s k .store x.n ls page0 && (!s.bad.contains (sectorOf page0.pa) &&
        ((ls.all fun y => ls.all fun z => decide (y.2.toNat / 2 ^ page0.shift = z.2.toNat / 2 ^ page0.shift)) && (clearAt s k && x.far)))) = true)) = true →
      s.pkg.acked = a → ∃ s i k x, Issues s i k ∧ storeRow k i = some x ∧
        (∀ y ∈ k.accessLanes x.scalar x.addr, broken x.n y.2 = none ∧ Mapped s k .store y.2 page0 ∧ s.bad.contains (sectorOf page0.pa) = false) ∧
        OnePage (k.accessLanes x.scalar x.addr) (fun _ => page0) ∧ Clear s k ∧ x.far = true ∧ s.pkg.acked = a := fun s a h ha => by
    obtain ⟨k, hI, hx⟩ := meets (p := fun k => ((storeRow k i).any fun x =>
      let ls := k.accessLanes x.scalar x.addr
      lanesAt s k .store x.n ls page0 && (!s.bad.contains (sectorOf page0.pa) &&
        ((ls.all fun y => ls.all fun z => decide (y.2.toNat / 2 ^ page0.shift = z.2.toNat / 2 ^ page0.shift)) && (clearAt s k && x.far)))) = true) h
    cases hr : storeRow k i with
    | none => rw [hr] at hx; cases hx
    | some x =>
      simp only [hr, Option.any_some, Bool.and_eq_true, Bool.not_eq_true'] at hx
      obtain ⟨hl, hb, ho, hc, hf⟩ := hx
      exact ⟨s, i, k, x, hI, hr, fun y hy => ⟨((lanesAt_mapped hl).2 y hy).1, ((lanesAt_mapped hl).2 y hy).2, hb⟩, onePage_of ho, clearAt_clear hc, hf, ha⟩
  intro a ha
  simp only [List.mem_cons, List.not_mem_nil, or_false] at ha
  rcases ha with rfl | rfl
  · exact run (owing (paged (at_ i))) false (by decide) (by decide)
  · exact run (paged (at_ i)) true (by decide) (by decide)

/-- FENCE .sy that is held, and one that is not. -/
theorem test_witness_FencesPrefetchAndCacheControl_held : ∀ a ∈ [false, true], ∃ s k, Issues s (.fence .sy true .ar) k ∧ far .sy = true ∧
    Clear s k ∧ s.pkg.acked = a := by
  intro a ha
  simp only [List.mem_cons, List.not_mem_nil, or_false] at ha
  rcases ha with rfl | rfl
  · have ⟨k, hI, hc⟩ := meets (s := owing (at_ (.fence .sy true .ar))) (i := .fence .sy true .ar) (p := fun k => clearAt (owing (at_ (.fence .sy true .ar))) k = true)
      (by decide)
    exact ⟨_, k, hI, rfl, clearAt_clear hc, by decide⟩
  · have ⟨k, hI, hc⟩ := meets (s := at_ (.fence .sy true .ar)) (i := .fence .sy true .ar) (p := fun k => clearAt (at_ (.fence .sy true .ar)) k = true)
      (by decide)
    exact ⟨_, k, hI, rfl, clearAt_clear hc, by decide⟩

/-- VST and VFLOOR while another package owes an acknowledgement. -/
theorem test_witness_VersionedStores_held : ∃ s k, Issues s vstAt k ∧
    (vstLanes k ≠ [] ∧ ∀ y ∈ vstLanes k, InRegion s k .vstore 4 y.2 page1 1 (region 3 [])) ∧ oneGroup k 2 ∧ Clear s k ∧ s.pkg.acked = false :=
  let s := owing (versioned vstAt 3 [] 2)
  have ⟨k, hI, hl, hg, hc⟩ := meets (s := s) (i := vstAt) (p := fun k => lanesIn s k .vstore 4 (vstLanes k) (region 3 []) = true ∧
    (∀ y ∈ vstLanes k, (k.val (.v 6) y.1).toNat = 2 ∧ sectorOf (y.2.toNat % 2 ^ 57) = 0x10000 ∧
      page1.pa = page1.pa / 32 * 32 + y.2.toNat % 32) ∧ clearAt s k = true) (by decide)
  ⟨s, k, hI, lanesIn_inRegion hl, hg, clearAt_clear hc, by decide⟩

theorem test_witness_FloorsAndQueries_held : ∃ s k va, Issues s floorAt k ∧ k.accessLanes true (k.addr (.s 2)) = [va] ∧
    InRegion s k .vstore 1 va.2 page1 1 (region 3 []) ∧ Clear s k ∧ s.pkg.acked = false :=
  let s := owing (versioned floorAt 3 [] 2)
  have ⟨k, hI, ha, hl, hc⟩ := meets (s := s) (i := floorAt) (p := fun k => k.accessLanes true (k.addr (.s 2)) = [(0, 0x10000)] ∧
    lanesIn s k .vstore 1 [(0, 0x10000)] (region 3 []) = true ∧ clearAt s k = true) (by decide)
  ⟨s, k, _, hI, ha, (lanesIn_inRegion hl).2 _ List.mem_cons_self, clearAt_clear hc, by decide⟩

/-- VREG that is held; VUNREG on a region whose floor is in flight, or one of whose versions is reserved. -/
theorem test_witness_RegionsComeAndGo_held :
    (∃ s k va, Issues s vregAt k ∧ k.accessLanes true (k.addr (.s 4)) = [va] ∧ broken 64 va.2 = none ∧ Mapped s k .load va.2 page0 ∧
      (s.loadBytes k.core k.die k.w.away page0.pa 64 false).2.2 = none ∧ s.pkg.fpkg = pkgOf page0.pa ∧ Clear s k ∧
      vregStatus s k (s.partOfCtx k.sw.ctx) (s.loadBytes k.core k.die k.w.away page0.pa 64 false).2.1 = 0 ∧ s.pkg.acked = false) ∧
    ∀ r ∈ [{ region 3 [0] with pendFloors := [⟨2, [0], 0, 0⟩] }, { region 3 [] with sectors := [(0x10000, ⟨[], [5]⟩)] }],
      ∃ s k, Issues s (.vunreg (.s 8) (.s 10)) k ∧ k.act ≠ 0 ∧
        s.regions.get? (64 * s.partOfCtx k.sw.ctx + (k.scalar (.s 10)).toNat) = some r ∧ (r.pendFloors ≠ [] ∨ ∃ y ∈ r.sectors, y.2.reserved ≠ []) ∧
        s.regionWaiters 1 = [] := by
  constructor
  · have ⟨k, hI, ha, hl, hb, hp, hs, hc⟩ := meets (s := owing requested) (i := vregAt) (p := fun k => k.accessLanes true (k.addr (.s 4)) = [(0, 0)] ∧
      lanesAt (owing requested) k .load 64 [(0, 0)] page0 = true ∧ ((owing requested).loadBytes k.core k.die k.w.away page0.pa 64 false).2.2 = none ∧
      (owing requested).pkg.fpkg = pkgOf page0.pa ∧ vregStatus (owing requested) k ((owing requested).partOfCtx k.sw.ctx)
        ((owing requested).loadBytes k.core k.die k.w.away page0.pa 64 false).2.1 = 0 ∧ clearAt (owing requested) k = true) (by decide)
    have hm := (lanesAt_mapped hl).2 _ List.mem_cons_self
    exact ⟨_, k, _, hI, ha, hm.1, hm.2, hb, hp, clearAt_clear hc, hs, by decide⟩
  · intro r hr
    simp only [List.mem_cons, List.not_mem_nil, or_false] at hr
    rcases hr with rfl | rfl
    · exact ⟨{ withS (at_ (.vunreg (.s 8) (.s 10))) 10 1 with regions := [(1, { region 3 [0] with pendFloors := [⟨2, [0], 0, 0⟩] })] }, meets (by decide)⟩
    · exact ⟨{ withS (at_ (.vunreg (.s 8) (.s 10))) 10 1 with regions := [(1, { region 3 [] with sectors := [(0x10000, ⟨[], [5]⟩)] })] }, meets (by decide)⟩

/-- BARA at reel scope while another package owes an acknowledgement; NEG of a slot that an exposure in flight reads. -/
theorem test_witness_Barriers_held : ∃ s k, Issues s (.bara (.s 6) (.s 4) false 31 .rl) k ∧ k.w.task = none ∧ k.sw.control = none ∧
    k.wid ∉ (k.sw.parts.getD (32 * BarScope.ix .rl + 31) ⟨[], 0, false, none⟩).who ∧ Clear s k ∧ s.pkg.acked = false :=
  let s := owing (twoWefts (at_ (.bara (.s 6) (.s 4) false 31 .rl)))
  have ⟨k, hI, h1, h2, h3, hc⟩ := meets (s := s) (i := .bara (.s 6) (.s 4) false 31 .rl) (p := fun k => k.w.task = none ∧ k.sw.control = none ∧
    k.wid ∉ (k.sw.parts.getD (32 * BarScope.ix .rl + 31) ⟨[], 0, false, none⟩).who ∧ clearAt s k = true) (by decide)
  ⟨s, k, hI, h1, h2, h3, clearAt_clear hc, by decide⟩

theorem test_witness_ExposuresAndContributions_held : ∃ s k, Issues s negAt k ∧ k.sw.descFaults = [] ∧ selOk (k.scalar (.s 4)) false true false ∧
    negOf (k.scalar (.s 4)) < k.sw.negMap.length ∧ rangeOk k 128 8192 (k.scalar (.s 5)).toNat ∧
    (∀ n, n < 64 → stripOk (descAt k.sw (128 * n)) (descAt k.sw (128 * n + 64))) ∧ slotRead k.sw (negOf (k.scalar (.s 4))) :=
  ⟨withTiles (withWeft (at_ negAt) fun w => { w with flights := [{ flightOf (.exposure 0) with vwr := [], swr := [] }], flags := [(3, 1)] }) id,
    meets_of (p := fun k => _ ∧ (_ ∧ _ ∧ _ ∧ _ ∧ _) ∧ _ < _ ∧ (_ ∧ _ ∧ _) ∧ (∀ n, n < 64 → _ ∧ (_ ∨ _ ∧ _)) ∧ ∃ p ∈ k.sw.wefts, ∃ f ∈ p.2.flights, _)
      (by decide) fun _ h => h⟩
/-- A context whose only account entry is taken by others, and the shadow that comes back into its cluster. -/
def crowded (s : State) : State :=
  { withStopped s 6 (some 1) with
    swatches := s.swatches ++ [(1, { Swatch.plain 1 0 with place := .shadow 6 0, ctx := 1 })]
    clusters := s.clusters.put 1 { Cluster.reset with accounts := (List.range Config.accounts).map fun n => ⟨BitVec.ofNat 32 (n + 2), 0, false, false, true⟩ } }

theorem test_witness_HaltQuiesceAndSwap_held : ∃ s k, Issues s swapAt k ∧ k.act ≠ 0 ∧ k.word (.s 2) 1 0 = 1 ∧ swapOf s k 0 true false true = true ∧
    (∃ u, s.swatch? 1 = some u ∧ u.control = none ∧ u.place = .shadow 6 0 ∧ u.ctx = 1) ∧
    ((s.cluster 1).accounts.any (fun a => a.ctx == 1) = false ∧ ¬ (s.cluster 1).accounts.length < Config.accounts) :=
  ⟨crowded (withS (at_ swapAt) 3 1), (meets_of (p := fun k => k.act ≠ 0 ∧ k.word (.s 2) 1 0 = 1 ∧
    swapOf (crowded (withS (at_ swapAt) 3 1)) k 0 true false true = true) (by decide) fun k h => ⟨h.1, h.2.1, h.2.2, ⟨_, rfl, rfl, rfl, rfl⟩, by decide⟩)⟩

/-- A wave of accesses of an older generation stands in the way of TLBINV; it waits, and resumes when they are over; a page pinned twice, and one
of another range. -/
def older (s : State) : State := { s with
  swatches := s.swatches ++ [(1, { Swatch.plain 1 0 with ctx := 1, wefts := [(0, { Weft.init .general 0 0 1 false false 1 1 0 none with flights := [{ flightOf .plain with gen := 0 }] })] })] }

theorem test_witness_TranslationsAreInvalidated_held :
    (∃ s k c, Issues s (tlbinvAt true) k ∧ k.act ≠ 0 ∧ Quiet s ∧ k.word (.s 8) 1 0 = 0 ∧ s.ctx? (k.word (.s 8) 0 0) = some c ∧
      ¬ AccessesOver s (k.word (.s 8) 0 0) (c.gen + 1)) ∧
    (∃ s k, Issues s (tlbinvAt false) k ∧ k.act ≠ 0 ∧ Quiet s ∧ k.word (.s 8) 1 0 = 0 ∧ AccessesOver s (k.word (.s 8) 0 0) 1 ∧
      s.pins (k.word (.s 8) 0 0) = [⟨0x10000, 0x200000, 16, false⟩, ⟨0x10000, 0x200000, 16, false⟩]) ∧
    ∀ i ∈ [tlbinvAt true, pgattrAt], ∃ s k x, Resumes s i k x ∧ k.act ≠ 0 ∧ x.form = .tlbinv 1 1 [0, 0, 0, 0] ∧ AccessesOver s 1 1 := by
  have h0 : ∀ (s : State), s.pkg.acked = true → (s.swatches.all fun p => p.2.wefts.all fun q => q.2.flights.isEmpty) = true → ∀ c n, AccessesOver s c n :=
    fun s ha hs c n => ⟨ha, fun p hp _ q hq f hf => by
      have := List.all_eq_true.mp (List.all_eq_true.mp hs p hp) q hq
      rw [List.isEmpty_iff] at this; rw [this] at hf; cases hf⟩
  refine ⟨?_, ?_, fun i hi => ?_⟩
  · have ⟨k, hI, ha, hw, hc, hx⟩ := meets (s := older (withS (at_ (tlbinvAt true)) 8 1)) (i := tlbinvAt true) (p := fun k => k.act ≠ 0 ∧ k.word (.s 8) 1 0 = 0 ∧
      k.word (.s 8) 0 0 = 1 ∧ ((older (withS (at_ (tlbinvAt true)) 8 1)).ctx? 1).any (fun c => c.gen == 0) = true) (by decide)
    have ⟨c, h1, h2⟩ := any_some (p := fun c : Ctx => c.gen = 0) (o := (older (withS (at_ (tlbinvAt true)) 8 1)).ctx? 1) (by decide)
    refine ⟨_, k, c, hI, ha, quiet_of (by decide), hw, by rw [hc]; exact h1, fun h => ?_⟩
    have := h.2 _ (List.mem_append_right _ List.mem_cons_self) hc.symm _ List.mem_cons_self _ List.mem_cons_self rfl
    rw [h2] at this
    exact absurd this (by decide)
  · have ⟨k, hI, ha, hw, hp⟩ := meets (s := withSw (withS (at_ (tlbinvAt false)) 8 1) fun x => { x with
      shapes := [(3, { (rowsOf true) with pins := [⟨0x10000, 0x200000, 16, false⟩, ⟨0x10000, 0x200000, 16, false⟩] })] }) (i := tlbinvAt false) (p := fun k => k.act ≠ 0 ∧
        k.word (.s 8) 1 0 = 0 ∧ (withSw (withS (at_ (tlbinvAt false)) 8 1) fun x => { x with
          shapes := [(3, { (rowsOf true) with pins := [⟨0x10000, 0x200000, 16, false⟩, ⟨0x10000, 0x200000, 16, false⟩] })] }).pins (k.word (.s 8) 0 0) =
            [⟨0x10000, 0x200000, 16, false⟩, ⟨0x10000, 0x200000, 16, false⟩]) (by decide)
    exact ⟨_, k, hI, ha, quiet_of (by decide), hw, h0 _ (by decide) (by decide) _ _, hp⟩
  · simp only [List.mem_cons, List.not_mem_nil, or_false] at hi
    rcases hi with rfl | rfl
    · have ⟨k, x, hR, ha, hf⟩ := resumes (s := waiting (tlbinvAt true) (.tlbinv 1 1 [0, 0, 0, 0])) (i := tlbinvAt true)
        (p := fun k x => k.act ≠ 0 ∧ x.form = .tlbinv 1 1 [0, 0, 0, 0]) (by decide)
      exact ⟨_, k, x, hR, ha, hf, h0 _ (by decide) (by decide) _ _⟩
    · have ⟨k, x, hR, ha, hf⟩ := resumes (s := waiting pgattrAt (.tlbinv 1 1 [0, 0, 0, 0])) (i := pgattrAt)
        (p := fun k x => k.act ≠ 0 ∧ x.form = .tlbinv 1 1 [0, 0, 0, 0]) (by decide)
      exact ⟨_, k, x, hR, ha, hf, h0 _ (by decide) (by decide) _ _⟩

/-- A store's flight that waits for acknowledgements, and one that has them; a wait that a boundary trap abandons. -/
theorem test_witness_ClausesTrapsAndCompletions_waits :
    (∀ a ∈ [true, false], ∃ (s : State) (w : Weft) (f : Flight), s.weft? 0 0 = some w ∧ w.flights[0]? = some f ∧ (s.swatch? 0).isSome = true ∧ f.poison = none ∧
      (f.vwr.map fun x => x.1).Nodup ∧ (f.swr.map fun x => x.1).Nodup ∧ f.kind = .acks ∧ s.pkg.acked = a) ∧
    ∃ (s : State) (sw : Swatch) (w : Weft) (e : Entry), Resident s 0 0 sw w ∧ w.clause ≠ none ∧ w.frontier.head? = some e ∧
      (w.wait.any fun x => x.woken == false && x.item.isNone && leavesOff x.form) = true ∧ w.trapMode = false ∧ (firstPending w.pend e).isSome = true := by
  refine ⟨fun a ha => ?_, ?_⟩
  · have ⟨w, hw, hf⟩ := weftAt (s := flying (flightOf .acks)) (sid := 0) (wid := 0) (p := fun w => w.flights = [flightOf .acks]) (by decide)
    simp only [List.mem_cons, List.not_mem_nil, or_false] at ha
    rcases ha with rfl | rfl
    · exact ⟨_, w, flightOf .acks, hw, by rw [hf]; rfl, rfl, rfl, (by decide : [2].Nodup), (by decide : [5].Nodup), rfl, by decide⟩
    · exact ⟨owing (flying (flightOf .acks)), w, flightOf .acks, hw, by rw [hf]; rfl, rfl, rfl, (by decide : [2].Nodup), (by decide : [5].Nodup), rfl, by decide⟩
  · have ⟨sw, w, e, hr, ht, hp⟩ := resident (s := withWeft (waiting (.fewait (.s 4) false false) (.fullEmpty [4] true)) fun w => { w with pend := { w.pend with hang := true } })
      (sid := 0) (wid := 0) (p := fun _ w e => w.clause ≠ none ∧ w.frontier.head? = some e ∧
      (w.wait.any fun x => x.woken == false && x.item.isNone && leavesOff x.form) = true ∧ w.trapMode = false ∧ (firstPending w.pend e).isSome = true) (by decide)
    exact ⟨_, sw, w, e, hr, hp⟩

/-- A barrier's record for a weft that waits in its image. -/
theorem test_witness_WatchersWakesAndArrivals_image : ∃ (s : State) (sw : Swatch) (w : Weft), s.swatch? 0 = some sw ∧ s.weft? 0 0 = some w ∧
    (s.core 0).wakeQ = [⟨0, 2, 64 * BarScope.ix .sw + 31, none, 0⟩] ∧ w.place = .absent ∧ w.halted = none ∧ w.flights = [] ∧
    (w.wait.any fun x => x.form == .bar .sw 31 0) = true ∧ (s.barRec 0 sw .sw 31).phase = 1 := by
  let s : State := { withSw (withWeft (waiting barAt (.bar .sw 31 0)) fun w => { w with place := .absent }) fun x => { x with bars := [(31, ⟨1, false, 2, 0, []⟩)] } with
    cores := [(0, { Core.reset with wakeQ := [⟨0, 2, 64 * BarScope.ix .sw + 31, none, 0⟩] })] }
  have ⟨sw, hs, hp⟩ := any_some (p := fun sw : Swatch => (s.barRec 0 sw .sw 31).phase = 1) (o := s.swatch? 0) (by decide)
  have ⟨w, hw, hq⟩ := weftAt (s := s) (sid := 0) (wid := 0) (p := fun w => w.place = .absent ∧ w.halted = none ∧ w.flights = [] ∧
    (w.wait.any fun x => x.form == .bar .sw 31 0) = true) (by decide)
  exact ⟨s, sw, w, hs, hw, rfl, hq.1, hq.2.1, hq.2.2.1, hq.2.2.2, hp⟩

/-- A swatch that may be released, with a write that another package has not acknowledged; a CPYOUT, and a firmware job, in the same place. -/
theorem test_witness_BagAndSwatches_owed : ∃ (s : State) (sw : Swatch), s.swatch? 0 = some sw ∧ sw.core? = some 0 ∧ (s.launches.get? sw.launch).isSome = true ∧
    (sw.wefts.all fun p => p.2.ended && p.2.place == .absent && p.2.flights.isEmpty) = true ∧ s.cores = [] ∧
    ((s.launches.get? sw.launch).any fun l => l.pool.isEmpty) = true ∧ (s.drainCore 0).pkg.acked = false :=
  let s := owing (withWeft (at_ .nop) fun w => { w with ended := true, place := .absent })
  have ⟨sw, hs, h1, h2, h3, h4⟩ := any_some (p := fun sw : Swatch => sw.core? = some 0 ∧ (s.launches.get? sw.launch).isSome = true ∧
    (sw.wefts.all fun p => p.2.ended && p.2.place == .absent && p.2.flights.isEmpty) = true ∧ ((s.launches.get? sw.launch).any fun l => l.pool.isEmpty) = true)
    (o := s.swatch? 0) (by decide)
  ⟨s, sw, hs, h1, h2, h3, rfl, h4, by decide⟩

theorem test_witness_CopyJobsMoveAndEnd_owed : ∀ k ∈ [JobKind.cpyout, .firmware], ∃ (s : State) (j : Job), (s.core 0).jobs[0]? = some j ∧ (s.swatch? j.sid).isSome = true ∧
    j.kind = k ∧ j.begun = true ∧ j.err = 0 ∧ (j.bytes + 127) / 128 ≤ j.lines ∧ s.pkg.acked = false := by
  intro k hk
  exact ⟨owing (working [jobOf k false 2 0]), _, rfl, rfl, rfl, rfl, rfl, (by decide : (256 + 127) / 128 ≤ 2), (by decide : (owing (at_ .nop)).pkg.acked = false)⟩

/-- A gated cluster woken 2,999 and 3,000 ns ago. -/
theorem test_witness_PowerEvents_wake : ∀ n ∈ [2999, 3000], ∃ (s : State), (s.cluster 0).gating = .waking 1 100 ∧ (s.tim + 2 ^ 64 - 100) % 2 ^ 64 = n := by
  intro n hn
  simp only [List.mem_cons, List.not_mem_nil, or_false] at hn
  rcases hn with rfl | rfl
  · exact ⟨{ State.reset with tim := 3099, clusters := [(0, { Cluster.reset with gating := .waking 1 100 })] }, by decide⟩
  · exact ⟨{ State.reset with tim := 3100, clusters := [(0, { Cluster.reset with gating := .waking 1 100 })] }, by decide⟩
/-! ### Other packages: messages, migration and roll launches -/

/-- A host's atomic at the sector of uncorrectable data, on a page that no context maps as a system page, and on one that is mapped so;
the answer that an access waits for. -/
def shared (s : State) (body : List Byte) : State × Msg := (s, { homeMsg 5 body with sh := true })

/-- An access of the weft waits for tag 5 on package 1. -/
def asking (kind : Nat) : State :=
  { withWeft (at_ .nop) fun w => { w with away := [⟨none, 2 ^ 48, 5, none⟩] } with
    pkg := { (at_ .nop).pkg with unacked := [{ homeMsg kind [] with addr := 2 ^ 48 }], routes := [(1, [0])] } }

theorem test_witness_FabricEvents_answers :
    (∃ (s : State) (m : Msg), pkgOf m.addr = s.pkg.fpkg ∧ m.addr % 4 = 0 ∧ fieldAt m.body 1 1 = 4 ∧ fieldAt m.body 0 1 = 12 ∧ sectorOf m.addr ∈ s.bad) ∧
    (∀ a ∈ [true, false], ∃ (s : State) (m : Msg), pkgOf m.addr = s.pkg.fpkg ∧ m.addr % 4 = 0 ∧ fieldAt m.body 1 1 = 4 ∧ fieldAt m.body 0 1 = 0 ∧
      sectorOf m.addr ∉ s.bad ∧ m.sh = true ∧ s.systemPage m.addr = a ∧ ∀ j, j < 4 → Writable s (m.addr + j)) ∧
    (∃ (s : State) (m : Msg), pkgOf m.addr ≠ s.pkg.fpkg ∧ 33 ≤ m.body.length ∧ Asked s m 1 ∧ ∃ w, s.weft? 0 0 = some w ∧
      (w.away.any fun a => a.txn == m.txn && a.answer.isNone) = true) ∧
    ∃ (s : State) (m : Msg) (bs : List Byte) (f : Byte), m.body = bs ++ [f] ∧ Asked s m 5 ∧ ∃ w, s.weft? 0 0 = some w ∧
      (w.away.any fun a => a.txn == m.txn && a.answer.isNone) = true := by
  refine ⟨⟨{ paged (at_ .nop) with bad := [0x100000] }, homeMsg 5 (atomicBody 12 4), by decide⟩, fun a ha => ?_,
    ⟨asking 1, { homeMsg 2 (List.replicate 33 7) with addr := 2 ^ 48 }, by decide, by decide, ⟨_, List.mem_cons_self, rfl, rfl⟩, weftAt (by decide)⟩,
    asking 5, { homeMsg 6 (natBytes 4 9 ++ [1]) with addr := 2 ^ 48 }, natBytes 4 9, 1, rfl, ⟨_, List.mem_cons_self, rfl, rfl⟩, weftAt (by decide)⟩
  unfold Writable
  simp only [List.mem_cons, List.not_mem_nil, or_false] at ha
  rcases ha with rfl | rfl
  · exact ⟨{ paged (at_ .nop) with mem := memPutBytes (paged (at_ .nop)).mem 0x40000 (natBytes 8 0x100933) }, { homeMsg 5 (atomicBody 0 4) with sh := true }, by decide⟩
  · exact ⟨{ paged (at_ .nop) with ctxs := [] }, { homeMsg 5 (atomicBody 0 4) with sh := true }, by decide⟩

/-- A version-control message of each kind: an acknowledgement, a join of a member, of the 64th sharer and of a new one, and a floor, at a
region of this package and at one homed on package 1. -/
theorem test_witness_FabricEvents_versions :
    (∀ r ∈ [region 3 [9], region 3 [], region 3 ((List.range 64).map fun n => n + 100)], ∃ (s : State) (m : Msg), s.regions.get? (fieldAt m.body 0 4) = some r ∧
      fieldAt m.body 4 1 = 1 ∧ 4 * (m.spkg + 1) + m.sdie = 9 ∧ m.spkg ≠ s.pkg.fpkg) ∧
    ∀ d ∈ [0, 9], ∃ (s : State) (m : Msg) (r : Region), s.regions.get? (fieldAt m.body 0 4) = some r ∧ fieldAt m.body 4 1 = 2 ∧ r.die = d ∧ m.spkg = 1 := by
  refine ⟨fun r hr => ⟨{ State.reset with regions := [(1, r)] }, { homeMsg 11 (natBytes 4 1 ++ [1]) with spkg := 1, sdie := 1 }, rfl, rfl, rfl, (by decide : 1 ≠ State.reset.pkg.fpkg)⟩,
    fun d hd => ⟨{ State.reset with regions := [(1, { region 3 [] with die := d })] }, { homeMsg 11 (natBytes 4 1 ++ [2] ++ natBytes 4 7) with spkg := 1, sdie := 1 }, _, rfl,
      by decide, rfl, rfl⟩⟩

/-- Die 0 has one packet of migrated state for partition 0 of cluster 0, which serves no context, or one. -/
def arriving (active : Option Word) : State :=
  let x : Transfer := { spkg := 1, dpkg := 0, dpart := 0, part := 5, status := 0, active := some 1, numbers := 3, clusters := [7], cores := [(42, Core.reset)]
                        swatches := [(2, { Swatch.plain 1 4 with place := .placed 42 0, wefts := [(0, Weft.init .general 8 0 1 false false 1 1 0 none)] })]
                        launches := [(4, Launch.plain 1 8 8)], regions := [(64 * 5 + 3, region 3 [])], queues := [], graphs := [], finishes := [⟨1, 0, 0, 1, true, some 0x2000, 9, none⟩]
                        deadlines := [], colls := [], mail := [], issues := [], spill := [] }
  { State.reset with
    parts := [(0, ⟨1, 1, 0, 0, 0, 0, active, false, none⟩)]
    pkg := { State.reset.pkg with arrived := [homeMsg 12 [0, 0, 0, 0, 0, 0]], landed := [(0, x)] } }

theorem test_witness_FabricEvents_landing : (∃ (s : State) (m : Msg) (x : Transfer), s.pkg.arrived = [m] ∧ m.ddie = 0 ∧
    s.pkg.landed.get? 0 = some x ∧ s.ctxsOf (fieldAt m.body 2 4) = [] ∧ Suits s 0 x ∧ (x.swatches.map fun y => y.1).Nodup ∧
    (x.launches.map fun y => y.1).Nodup ∧ (∀ y ∈ x.regions, y.1 / 64 = x.part) ∧ (x.regions.map fun y => y.1).Nodup ∧ x.swatches ≠ [] ∧ x.regions ≠ [] ∧
    x.finishes ≠ []) ∧
    ∃ (s : State) (m : Msg) (x : Transfer), s.pkg.arrived = [m] ∧ m.ddie = 0 ∧ s.pkg.landed.get? 0 = some x ∧ s.ctxsOf (fieldAt m.body 2 4) = [] ∧ ¬ Suits s 0 x :=
  ⟨⟨arriving none, _, _, rfl, rfl, rfl, by decide, ⟨_, rfl, rfl, by decide, by decide⟩, by decide⟩,
    arriving (some 1), _, _, rfl, rfl, rfl, by decide, fun ⟨p, hp, ha, _⟩ => by
      have h0 : some (⟨1, 1, 0, 0, 0, 0, some 1, false, none⟩ : Part) = some p := hp
      cases h0; cases ha⟩

/-- Partition 0 is the first of the two members of its group's table, at 0x103000. -/
def grouped (s : State) : State :=
  { s with
    mem := memPutBytes s.mem 0x103000 (natBytes 8 (1 * 2 ^ 32) ++ natBytes 8 (1 * 2 ^ 32 + 2 * 2 ^ 16 + 1))
    parts := [(0, ⟨1, 1, 0, 0x103000, 2, 0, none, false, none⟩)] }

def rollPacket : State := grouped (queued 1 [(0, 0x101), (8, 0x1000), (16, 1), (24, 0x1800), (32, 9)])

/-- A LAUNCH of a member of a group, and one whose other members have answered. -/
theorem test_witness_PacketsStart_roll :
    (∃ (s : State) (x : QState) (c : Ctx) (q : Part) (d : QDesc) (bs : List Byte), PacketAt s 1 0 x c q d bs ∧ s.parts.get? c.part = some q ∧ d = descOf s ∧
      InRoll s 0 q ∧ fieldAt bs 0 1 = 1 ∧ isOk (s.fetchDadr 1 (fieldAt bs 0x18 8)) = true ∧ isOk (s.fetchLRec 1 (fieldAt bs 8 8)) = true) ∧
    ∀ yes ∈ [true, false], ∃ (s : State) (x : QState) (c : Ctx) (p : Part) (d : QDesc), s.agenda = [.rollVerdict 1 0 0 yes] ∧ s.pkg.catches = [] ∧ s.queue? 1 0 = some x ∧
      x.held = some (d.head, .members) ∧ s.ctx? 1 = some c ∧ s.parts.get? c.part = some p ∧ d = s.queueDesc c 0 ∧ InMemory s d ∧
      (match s.readPacket 1 d d.head with
        | .ok bs => zeroOutside bs [(0, 4), (8, 32)] && (isOk (s.fetchDadr 1 (fieldAt bs 0x18 8)) && ((match s.fetchLRec 1 (fieldAt bs 8 8) with
          | .ok r => (s.rollOf c.part p (fieldAt bs 0x10 8) 0 r.dims.2.2 true).isSome
          | .error _ => false) && !(withCores s (coreSet p (fieldAt bs 0x10 8))).isEmpty))
        | .error _ => false) = true := by
  refine ⟨?_, fun yes hy => ?_⟩
  · have ⟨x, c, q, d, bs, h, hq, hd, hp⟩ := packetAt_of (s := rollPacket) (p := fun _ bs => decide (fieldAt bs 0 1 = 1 ∧
      isOk (rollPacket.fetchDadr 1 (fieldAt bs 0x18 8)) = true ∧ isOk (rollPacket.fetchLRec 1 (fieldAt bs 8 8)) = true)) (by decide)
    have e : q = ⟨1, 1, 0, 0x103000, 2, 0, none, false, none⟩ := by
      have h0 : rollPacket.parts = [(0, ⟨1, 1, 0, 0x103000, 2, 0, none, false, none⟩)] := rfl
      simp only [h0, Tab.get?] at hq
      split at hq
      · exact (Option.some.inj hq).symm
      · cases hq
    exact ⟨_, x, c, q, d, bs, h, hq, hd, by rw [e]; exact ⟨by decide, 0, by decide⟩, of_decide_eq_true hp⟩
  · exact ⟨{ rollPacket with queues := [⟨1, 0, false, some (0, .members), false, 0, []⟩], agenda := [.rollVerdict 1 0 0 yes] }, _, _, _, _, rfl, rfl, rfl, rfl, rfl, rfl, rfl,
      inMemory_of (by cases yes <;> decide), by cases yes <;> decide⟩

/-- A launch that another member's queue began is over, and one at its origin whose other member has not reported. -/
theorem test_witness_QueuesStopAndPacketsComplete_roll : ∀ p ∈ [(none, 0), (some (0, 0), 1)], ∃ (s : State) (l : Launch) (r : Roll), s.launches.get? 0 = some l ∧ l.done = false ∧ l.left = 0 ∧
    l.pool = [] ∧ l.liveTasks = 0 ∧ l.origin = p.1 ∧ l.node = none ∧ l.roll = some r ∧ r.waits = p.2 := fun p _ =>
  ⟨{ finishing none none false 0 with launches := [(0, { Launch.plain 1 256 32 with
    origin := p.1, left := 0, roll := some ⟨0, 2, [(0, 0), (1, 2)], (0, 0), (0, 0), p.2, [1]⟩ })] }, _, _, rfl, rfl, rfl, rfl, rfl, rfl, rfl, rfl, rfl⟩

/-- SIGNAL to a word of package 1, a write and an addition; FENCE while an acknowledgement is owed, and with none owed. -/
theorem test_witness_PacketsStart_owed :
    (∀ n ∈ [0, 1], Heads 4 fun s bs => decide (fieldAt bs 0x18 1 = n) && (match s.reach 1 (if n = 1 then .atomic else .store) (fieldAt bs 8 8) with
      | .ok pa => pkgOf pa != s.pkg.fpkg && s.present (sectorOf pa) | .error _ => false)) ∧
    ∀ a ∈ [true, false], Heads 7 fun s bs => fieldAt bs 8 1 == 6 && (s.finishes.isEmpty && s.pkg.acked == a) := by
  constructor <;> intro n hn <;> simp only [List.mem_cons, List.not_mem_nil, or_false] at hn <;> rcases hn with rfl | rfl
  · exact heads { queued 1 [(0, 4), (8, 0x30000), (16, 3)] with
      mem := memPutBytes (queued 1 [(0, 4), (8, 0x30000), (16, 3)]).mem 0x40018 (natBytes 8 (2 ^ 48 + 0x100033)), pkg := { State.reset.pkg with routes := [(1, [0])] } } (by decide)
  · exact heads { queued 1 [(0, 4), (8, 0x30000), (16, 3), (24, 1)] with
      mem := memPutBytes (queued 1 [(0, 4), (8, 0x30000), (16, 3), (24, 1)]).mem 0x40018 (natBytes 8 (2 ^ 48 + 0x100033)), pkg := { State.reset.pkg with routes := [(1, [0])] } } (by decide)
  · exact heads (queued 1 [(0, 7), (8, 6)]) (by decide)
  · exact heads (owing (queued 1 [(0, 7), (8, 6)])) (by decide)

/-- A WAIT on a word of package 1, whose page the table names. -/
def waitFar : State :=
  { queued 1 [(0, 3), (8, 0x30000), (16, 3)] with
    mem := memPutBytes (queued 1 [(0, 3), (8, 0x30000), (16, 3)]).mem 0x40018 (natBytes 8 (2 ^ 48 + 0x100033)), pkg := { State.reset.pkg with routes := [(1, [0])] } }

/-- The packet of a queue that has something of another package to read. -/
theorem test_witness_QueuesStopAndPacketsComplete_reads : ∃ (x : QState) (c : Ctx) (d : QDesc) (p : Part) (bs : List Byte), waitFar.queue? 1 0 = some x ∧ waitFar.ctx? 1 = some c ∧
    d = waitFar.queueDesc c 0 ∧ waitFar.eligible x = true ∧ InMemory waitFar d ∧ waitFar.parts.get? c.part = some p ∧ (d.tail + 2 ^ 32 - d.head) % 2 ^ 32 ≤ d.ring ∧
    waitFar.readPacket 1 d d.head = .ok bs ∧ waitFar.packetNeeds x ⟨1, 0, d, c.part, p, bs⟩ ≠ [] ∧ (waitFar.die (waitFar.frontDie 1)).notices = [] ∧ waitFar.pkg.nextTxn < 2 ^ 20 := by
  have h : (match waitFar.readPacket 1 (descOf waitFar) (descOf waitFar).head with
    | .ok bs => !(waitFar.packetNeeds ⟨1, 0, false, none, false, 0, []⟩ ⟨1, 0, descOf waitFar, 0, ⟨1, 1, 0, 0, 0, 0, none, false, none⟩, bs⟩).isEmpty
    | .error _ => false) = true := by decide
  split at h
  · rename_i bs hb
    exact ⟨_, _, _, _, bs, rfl, rfl, rfl, by decide, inMemory_of (by decide), rfl, by decide, hb, by intro e; rw [Bool.not_eq_true', List.isEmpty_eq_false_iff] at h; exact h e, by decide, by decide⟩
  · cases h

/-- A WAIT held for a word of package 1 that is not met: its last read has an answer, or has none yet. -/
theorem test_witness_QueuesStopAndPacketsComplete_far : ∀ b ∈ [true, false], ∃ (s : State) (x : QState) (c : Ctx) (d : QDesc) (f : Finish), s.queue? 1 0 = some x ∧ s.ctx? 1 = some c ∧
    d = s.queueDesc c 0 ∧ InMemory s d ∧ x.held = some (0, .word (2 ^ 48 + 0x100000) 5) ∧ s.finishes.find? (fun y => y.ctx == 1 && y.q == 0 && y.idx == 0) = some f ∧ f.dadr = none ∧
    s.heldMet 1 (.word (2 ^ 48 + 0x100000) 5) = false ∧ pkgOf (2 ^ 48 + 0x100000) ≠ s.pkg.fpkg ∧ s.present (sectorOf (2 ^ 48 + 0x100000)) = true ∧ s.readsOver x = b ∧
    s.pkg.nextTxn < 2 ^ 20 := fun b hb =>
  ⟨{ held 0 (.word (2 ^ 48 + 0x100000) 5) with
      queues := [⟨1, 0, false, some (0, .word (2 ^ 48 + 0x100000) 5), false, 0, [⟨0, 2 ^ 48 + 0x100000, 0⟩]⟩]
      pkg := { State.reset.pkg with routes := [(1, [0])], nextTxn := 1, unacked := if b then [] else [⟨1, 0, false, 0, 0, false, 1, 0, 2 ^ 48 + 0x100000, []⟩] } }, _, _, _, _, rfl, rfl, rfl,
    by exact inMemory_of (by revert b; decide), rfl, rfl, rfl, by revert b; decide, by revert b; decide, by revert b; decide, by revert b; decide, by revert b; decide⟩

/-- A start in minimal mode at its end and at a stage's expiry; a collective whose swatch is off its core. -/
theorem test_witness_PackageEvents_minimal : ∃ (s : State), s.pkg.boot = .startingMinimal := ⟨withPkg fun p => { p with boot := .startingMinimal }, rfl⟩

theorem test_witness_CollectivesRun_away : (∃ (s : State) (c : Coll), s.coll? 0 5 = some c ∧ c.phase = .prepare ∧ ¬ InEngine s c) ∧
    ∃ (s : State) (c : Coll), s.coll? 0 5 = some c ∧ c.phase = .prepare ∧ InEngine s c ∧ s.collStatus c = 0 := by
  unfold InEngine
  exact ⟨⟨withSw (collecting (collOf 1 3 0 .prepare)) fun x => { x with place := .saved false }, _, rfl, by decide⟩, collecting (collOf 1 3 0 .prepare), _, rfl, by decide⟩

/-- A core set that keeps a cluster, and one whose only cluster has all its cores vacated. -/
theorem test_witness_RingTableAndQuiesceEvents_left : ∀ p ∈ [([0], false), ([0, 1], true)], ∃ (s : State) (sw : Swatch) (l : Launch), s.swatch? 0 = some sw ∧
    s.launches.get? sw.launch = some l ∧ l.coreset = p.1 ∧ keepsCore s sw.cluster = false ∧ (l.coreset.any fun k => keepsCore s k) = p.2 := by
  intro p hp
  have run : ∀ (s : State) (p : List Nat × Bool), ((s.swatch? 0).any fun sw => decide ((s.launches.get? sw.launch).any (fun l => l.coreset == p.1 &&
      (!keepsCore s sw.cluster && (l.coreset.any fun k => keepsCore s k) == p.2)) = true)) = true → ∃ (s : State) (sw : Swatch) (l : Launch), s.swatch? 0 = some sw ∧
      s.launches.get? sw.launch = some l ∧ l.coreset = p.1 ∧ keepsCore s sw.cluster = false ∧ (l.coreset.any fun k => keepsCore s k) = p.2 := fun s p h => by
    obtain ⟨sw, hs, hl⟩ := any_some h
    cases hg : s.launches.get? sw.launch with
    | none => rw [hg] at hl; cases hl
    | some l =>
      simp only [hg, Option.any_some, Bool.and_eq_true, beq_iff_eq, Bool.not_eq_true'] at hl
      exact ⟨s, sw, l, hs, hg, hl⟩
  simp only [List.mem_cons, List.not_mem_nil, or_false] at hp
  rcases hp with rfl | rfl
  · exact run { at_ .nop with launches := (at_ .nop).launches.modify 0 fun l => { l with coreset := [0] }, cores := (List.range 6).map fun c => (c, { Core.reset with vacated := true }) }
      _ (by decide)
  · exact run { at_ .nop with launches := (at_ .nop).launches.modify 0 fun l => { l with coreset := [0, 1] }, cores := (List.range 6).map fun c => (c, { Core.reset with vacated := true }) }
      _ (by decide)

end Sys2Proof.Tests
end

section
/-!
Logic, shift, bit-field and immediate results, predicate results and conversions (R77 to R80, R84, R85,
R91, R92): one lemma per shared shape of a meaning, from which the statements' rows follow.
-/
namespace Sys2Proof.LogicAndConversion

open Sys2Proof.Machine Sys2Proof.Claim

/-! ## Completion of a fixed-latency register instruction -/

/-- A meaning that is one group of results per lane completes with them as its row. -/
theorem completes_of_alu {s : State} {i : Instr} {k : Site} (h : Issues s i k) {d : Dst} {g : Nat}
    (hw : i.use.w = some (d, g)) {f : Site → Nat → List Word × FBits}
    (he : exec i s = s.issue i fun k s => k.alu s d g (f k)) :
    Completes s i k ⟨d, g, fun l => (f k l).1, fun l => (f k l).2⟩ := by
  obtain ⟨w, honly, hrest, hpreds, hkept, hres⟩ := alu_completes h hw (f k)
  exact ⟨_, w, he.trans (issue_eq h _ (fun _ => Eff.noConfusion) fun _ _ => Eff.noConfusion), honly, hrest, hpreds,
    hkept, hres⟩

/-- A meaning of one register per lane completes with a 32-bit row. -/
theorem completes_of_alu1 {s : State} {i : Instr} {k : Site} (h : Issues s i k) {d : Dst}
    (hw : i.use.w = some (d, 1)) {f : Site → Nat → Word} (he : exec i s = s.issue i fun k s => k.alu1 s d (f k))
    {g : Nat → Word} (hfg : ∀ l, f k l = g l) {r : RegSpec} (hr : row32 d g = some r) : Completes s i k r := by
  obtain rfl : f k = g := funext hfg
  obtain rfl := Option.some.inj hr
  exact completes_of_alu h hw he

@[simp] theorem groupWords_two (x : DWord) : groupWords 2 x.toNat = words64 x := by
  have lo : BitVec.ofNat 32 x.toNat = x.setWidth 32 := BitVec.eq_of_toNat_eq (by simp)
  have hi : BitVec.ofNat 32 (x.toNat / 2 ^ 32) = (x >>> 32).setWidth 32 :=
    BitVec.eq_of_toNat_eq (by simp [Nat.shiftRight_eq_div_pow])
  simp [groupWords, words64, w32, List.range_succ, lo, ← hi]

/-! ## Logic and shifts (R77) -/

/-- The bitwise shape: `f` on 64 bits, and in a 32-bit form the operation `g` that `f` is on low words. -/
theorem bitwise_completes {s : State} {i : Instr} {k : Site} (h : Issues s i k) {d : Dst} {a b : Src} {w : Bool}
    (hw : i.use.w = some (d, grp w)) {f : DWord → DWord → DWord} {g : Word → Word → Word}
    (he : exec i s = s.issue i fun k s => bitwise k s d a b w f)
    (hfg : ∀ x y : Word, (f (x.setWidth 64) (y.setWidth 64)).setWidth 32 = g x y) {r : RegSpec}
    (hr : (if w then row64 d fun l => f (k.dword a false l) (k.dword b false l)
      else row32 d fun l => g (k.val a l) (k.val b l)) = some r) : Completes s i k r := by
  have hc := completes_of_alu h hw he
  cases w with
  | true =>
    obtain rfl := Option.some.inj hr
    simpa [grp] using hc
  | false =>
    obtain rfl := Option.some.inj hr
    simpa [grp, loWord, hfg] using hc

/-- The shift shape: the amount is the low 6 bits of b in a 64-bit form, the low 5 in a 32-bit form. -/
theorem shifted_completes {s : State} {i : Instr} {k : Site} (h : Issues s i k) {d : Dst} {a b : Src} {w : Bool}
    (hw : i.use.w = some (d, grp w)) {f : Word → Nat → Word} {g : DWord → Nat → DWord}
    (he : exec i s = s.issue i fun k s => shifted k s d a b w f g) {r : RegSpec}
    (hr : (if w then row64 d fun l => g (k.dword a false l) ((k.val b l).setWidth 6).toNat
      else row32 d fun l => f (k.val a l) ((k.val b l).setWidth 5).toNat) = some r) : Completes s i k r := by
  have hc := completes_of_alu h hw he
  cases w with
  | true =>
    obtain rfl := Option.some.inj hr
    simpa [grp] using hc
  | false =>
    obtain rfl := Option.some.inj hr
    simpa [grp] using hc

theorem logicAndShiftResults : LogicAndShiftResults := by
  intro s i k r h hr
  unfold logicRow at hr
  split at hr
  · exact bitwise_completes h rfl rfl (by intros; ext; simp) hr
  · exact bitwise_completes h rfl rfl (by intros; ext; simp) hr
  · exact bitwise_completes h rfl rfl (by intros; ext; simp) hr
  · exact bitwise_completes (g := fun x y => x &&& ~~~y) h rfl rfl (by intros; ext; simp) hr
  · exact shifted_completes h rfl rfl hr
  · exact shifted_completes h rfl rfl hr
  · exact shifted_completes h rfl rfl hr
  · exact shifted_completes h rfl rfl hr
  · cases hr

/-! ## Bit fields (R78) -/

theorem pos_eq_fieldPos (b : Word) : pos b = fieldPos b := by simp [pos, fieldPos]

theorem len_eq_fieldLen (b : Word) : len b = fieldLen b := by
  simp [len, fieldLen, pos_eq_fieldPos, Nat.shiftRight_eq_div_pow]

theorem fieldLen_le (b : Word) : fieldLen b ≤ 32 := by unfold fieldLen; omega

/-- Sign extension as BFX computes it: a field with its top bit set has the bits above it set too. -/
theorem signExtend_eq_w32 {n : Nat} (hn : n ≤ 32) (y : BitVec n) :
    y.signExtend 32 = if y.toNat < 2 ^ (n - 1) then w32 y.toNat else w32 (y.toNat + 2 ^ 32 - 2 ^ n) := by
  have hy := y.isLt
  have hp : 2 ^ n ≤ 2 ^ 32 := Nat.pow_le_pow_right (by omega) hn
  apply BitVec.eq_of_toNat_eq
  rw [BitVec.toNat_signExtend, BitVec.msb_eq_decide, BitVec.toNat_setWidth]
  by_cases hs : y.toNat < 2 ^ (n - 1)
  · rw [if_pos hs, decide_eq_false (Nat.not_le_of_lt hs)]
    rfl
  · simp only [if_neg hs, Nat.le_of_not_lt hs, decide_true, if_true, w32, BitVec.toNat_ofNat]
    omega

/-- BFX takes the field and extends it (R78). -/
theorem bfx32_eq (x b : Word) (u : Bool) :
    bfx32 x b u = if u then ((x >>> pos b).setWidth (len b)).setWidth 32
      else ((x >>> pos b).setWidth (len b)).signExtend 32 := by
  rw [pos_eq_fieldPos, len_eq_fieldLen]
  have hn := fieldLen_le b
  unfold bfx32
  generalize fieldLen b = n at *
  have hf : ((x >>> fieldPos b).setWidth n).toNat = x.toNat / 2 ^ fieldPos b % 2 ^ n := by
    simp [Nat.shiftRight_eq_div_pow]
  generalize (x >>> fieldPos b).setWidth n = y at *
  simp only [← hf]
  by_cases h0 : n = 0
  · subst h0
    cases u <;> simp [BitVec.of_length_zero]
  rw [if_neg h0]
  cases u with
  | true => exact BitVec.eq_of_toNat_eq (by simp [w32])
  | false => simp only [signExtend_eq_w32 hn y, Bool.false_or, decide_eq_true_eq, Bool.false_eq_true, if_false]

/-- BFI puts the low bits of x in the field and keeps the other bits of the old register (R78). -/
theorem bfi32_eq (old x b : Word) : bfi32 old x b =
    (x <<< pos b &&& (BitVec.allOnes (len b)).setWidth 32 <<< pos b) |||
      (old &&& ~~~((BitVec.allOnes (len b)).setWidth 32 <<< pos b)) := by
  have hm : w32 ((2 ^ fieldLen b - 1) * 2 ^ fieldPos b) = (BitVec.allOnes (len b)).setWidth 32 <<< pos b := by
    rw [pos_eq_fieldPos, len_eq_fieldLen]
    apply BitVec.eq_of_toNat_eq
    simp [w32, Nat.shiftLeft_eq]
  rw [bfi32, hm, pos_eq_fieldPos, BitVec.or_comm]

theorem bitFieldResults : BitFieldResults := by
  intro s i k r h hr
  unfold fieldRow at hr
  split at hr
  · exact completes_of_alu1 h rfl rfl (fun l => bfx32_eq _ _ _) hr
  · exact completes_of_alu1 h rfl rfl (fun l => bfi32_eq _ _ _) hr
  · cases hr

/-! ## Immediate forms (R79) -/

/-- MOVHI's 18 bits over the low 14 bits of the old word. -/
theorem append_low14 (n : BitVec 18) (x : Word) : n ++ x.setWidth 14 = (n.setWidth 32 <<< 14) ||| (x &&& 0x3FFF) := by
  apply BitVec.eq_of_toNat_eq
  have hn := n.isLt
  have hm : x.toNat &&& 16383 = x.toNat % 2 ^ 14 := Nat.and_two_pow_sub_one_eq_mod x.toNat 14
  show (n ++ x.setWidth 14 : BitVec (18 + 14)).toNat = _
  rw [BitVec.toNat_append]
  have hs : n.toNat * 16384 % 4294967296 = n.toNat * 16384 := Nat.mod_eq_of_lt (by omega)
  simp [hm, hs, Nat.shiftLeft_eq]

theorem immediateResults : ImmediateResults := by
  intro s i k r h hr
  unfold immediateRow at hr
  split at hr
  case h_10 => exact completes_of_alu1 h rfl rfl (fun _ => append_low14 _ _) hr
  case h_11 => cases hr
  all_goals exact completes_of_alu1 h rfl rfl (fun _ => rfl) hr

/-- Settles O2: the logic and shift rows, the bit fields and the immediate forms, each by the shape of its meaning. -/
theorem logicShiftAndImmediateResults : Obligations.LogicShiftAndImmediateResults :=
  ⟨logicAndShiftResults, bitFieldResults, immediateResults⟩

/-! ## Predicates (R80, R84, R85) -/

theorem icmpTest_eq_holds (c : Cond) (x y : Word) : icmpTest c x y = holds c x y := by
  cases c <;> simp [icmpTest, holds, BitVec.slt, BitVec.sle, BitVec.ult, BitVec.ule, bne, Bool.beq_eq_decide_eq]

/-- What a statement says of an instruction that writes one predicate. -/
def CompletesPred (s : State) (i : Instr) (k : Site) (p : PReg) (f : Nat → Bool) : Prop :=
  ∃ t w, exec i s = .next t ∧ OnlyWeft s t k w ∧ w.rest = k.w.rest ∧ RegsKept k i w ∧
    w.fstat = k.w.fstat ∧ PredResult k w p f

/-- A predicate from a test per lane that sets no fstat bit. -/
theorem completesPred_of_setPred {s : State} {i : Instr} {k : Site} (h : Issues s i k) {p : PReg}
    {f : Site → Nat → Bool} (he : exec i s = s.issue i fun k s => k.setPred s p fun l => (f k l, 0))
    {g : Nat → Bool} (hfg : ∀ l, f k l = g l) : CompletesPred s i k p g := by
  obtain rfl : f k = g := funext hfg
  obtain ⟨w, honly, hrest, hkept, hpred, hfstat⟩ := setPred_completes h p fun l => (f k l, 0)
  refine ⟨_, w, he.trans (issue_eq h _ (fun _ => Eff.noConfusion) fun _ _ => Eff.noConfusion), honly, hrest, hkept,
    ?_, hpred⟩
  exact BitVec.eq_of_getLsbD_eq fun b hb => by rw [hfstat b hb]; simp

/-- A predicate from a whole mask. -/
theorem completesPred_of_setPredMask {s : State} {i : Instr} {k : Site} (h : Issues s i k) {p : PReg}
    {m : Site → Mask} (he : exec i s = s.issue i fun k s => k.setPredMask s p (m k)) {f : Nat → Bool}
    (hf : ∀ l, l < 32 → (m k).getLsbD l = f l) : CompletesPred s i k p f := by
  obtain ⟨w, honly, hrest, hkept, ⟨hval, hoth⟩, hfstat⟩ := setPredMask_completes h p (m k)
  exact ⟨_, w, he.trans (issue_eq h _ (fun _ => Eff.noConfusion) fun _ _ => Eff.noConfusion), honly, hrest, hkept,
    hfstat, fun l hl => by rw [hval l hl, hf l hl], hoth⟩

theorem predRow_completes {s : State} {i : Instr} {k : Site} {p : PReg} {f : Nat → Bool} (h : Issues s i k)
    (hr : predRow k i = some (p, f)) : CompletesPred s i k p f := by
  unfold predRow at hr
  split at hr
  case h_9 => cases hr
  all_goals obtain ⟨rfl, rfl⟩ := Prod.mk.inj (Option.some.inj hr)
  · exact completesPred_of_setPred h rfl fun l => icmpTest_eq_holds _ _ _
  · exact completesPred_of_setPred h rfl fun l => icmpTest_eq_holds _ _ _
  · exact completesPred_of_setPredMask h rfl fun l _ => BitVec.getLsbD_and
  · exact completesPred_of_setPredMask h rfl fun l _ => BitVec.getLsbD_or
  · exact completesPred_of_setPredMask h rfl fun l _ => BitVec.getLsbD_xor
  · exact completesPred_of_setPredMask h rfl fun l hl => by simp [hl]
  · exact completesPred_of_setPredMask h rfl fun l hl => by simp [hl]
  · exact completesPred_of_setPredMask h rfl fun l _ => rfl

/-- Several predicates written in the lanes of a mask. -/
def pputs (w : Weft) (m : Mask) (v : Nat → Mask) (ps : List Nat) : Weft := ps.foldl (fun w i => w.pput i m (v i)) w

/-- Merging the same lanes a second time changes nothing. -/
theorem merge_merge (m x y : Mask) :
    (((x &&& ~~~m) ||| (y &&& m)) &&& ~~~m) ||| (y &&& m) = (x &&& ~~~m) ||| (y &&& m) := by
  ext j hj
  cases hm : m[j] <;> simp [hm]

theorem pputs_pred (w : Weft) (m : Mask) (v : Nat → Mask) (ps : List Nat) (q : Nat) :
    (pputs w m v ps).pred q = if q ∈ ps then (w.pred q &&& ~~~m) ||| (v q &&& m) else w.pred q := by
  induction ps generalizing w with
  | nil => rfl
  | cons p ps ih =>
    have hcons : pputs w m v (p :: ps) = pputs (w.pput p m (v p)) m v ps := rfl
    rw [hcons, ih, pred_pput]
    by_cases hq : q = p
    · subst hq
      simp [merge_merge]
    · simp [hq]

theorem pputs_kept (w : Weft) (m : Mask) (v : Nat → Mask) (ps : List Nat) :
    (pputs w m v ps).rest = w.rest ∧ (pputs w m v ps).fstat = w.fstat ∧ ∀ r, SameReg w (pputs w m v ps) r := by
  induction ps generalizing w with
  | nil => exact ⟨rfl, rfl, SameReg.refl w⟩
  | cons p ps ih =>
    obtain ⟨hrest, hfstat, hsame⟩ := ih (w.pput p m (v p))
    have hput : ∀ r, SameReg w (w.pput p m (v p)) r := fun r => by cases r <;> exact ⟨rfl, rfl⟩
    exact ⟨hrest, hfstat, fun r => (hput r).trans (hsame r)⟩

theorem getLsbD_maskOf (f : Nat → Bool) {l : Nat} (hl : l < 32) : (maskOf f).getLsbD l = f l := by
  have hm : maskOf f = (laneIds.map fun l => (l, f l, (0 : FBits))).foldl
      (fun m r => if r.2.1 then m ||| (1#32 <<< r.1) else m) 0 := by
    rw [List.foldl_map]; rfl
  rw [hm, getLsbD_foldl_lanes _ _ _ hl, List.any_map]
  have hany : (laneIds.any fun x => f x && x == l) = f l := by
    rw [Bool.eq_iff_iff, List.any_eq_true]
    constructor
    · rintro ⟨x, -, hx⟩
      obtain ⟨hfx, hxl⟩ := Bool.and_eq_true_iff.1 hx
      rwa [← beq_iff_eq.1 hxl]
    · intro hfl
      exact ⟨l, mem_laneIds.2 hl, by simp [hfl]⟩
  simpa [Function.comp_def] using hany

/-- The lanes whose value of `a` has bit p. -/
def bitMask (k : Site) (a : Src) (p : Nat) : Mask := maskOf fun l => (k.val a l).getLsbD p

/-- V2P writes bit p of the operand to predicate p, for all eight (R85). -/
theorem v2p_completes {s : State} {a : Src} {k : Site} (h : Issues s (.v2p a) k) :
    ∃ t w, exec (.v2p a) s = .next t ∧ OnlyWeft s t k w ∧ w.rest = k.w.rest ∧ RegsKept k (.v2p a) w ∧
      w.fstat = k.w.fstat ∧ ∀ p, p < 8 → ∀ l, l < 32 → (w.pred p).getLsbD l =
        if k.act.getLsbD l then (k.val a l).getLsbD p else (k.w.pred p).getLsbD l := by
  obtain ⟨hrest, hfstat, hsame⟩ := pputs_kept (beginWeft k (.v2p a) k.w) k.act (bitMask k a) (List.range 8)
  obtain ⟨w, honly, hwrest, hkept, hpreds, hwfstat⟩ :=
    pred_completes h (f := fun w => pputs w k.act (bitMask k a) (List.range 8)) rfl ⟨hrest, hsame⟩
  have hx := issue_eq h (fun k s => .done (s.modWeft k.sid k.wid fun w => pputs w k.act (bitMask k a) (List.range 8)))
    (fun _ => Eff.noConfusion) fun _ _ => Eff.noConfusion
  refine ⟨_, w, hx, honly, hwrest, hkept, hwfstat.trans hfstat, fun p hp l hl => ?_⟩
  have hpred : w.pred p = (k.w.pred p &&& ~~~k.act) ||| (bitMask k a p &&& k.act) := by
    have hput := pputs_pred (beginWeft k (.v2p a) k.w) k.act (bitMask k a) (List.range 8) p
    rw [if_pos (List.mem_range.2 hp)] at hput
    exact (congrArg (fun t : Tab Mask => t.getD p 0) hpreds).trans hput
  rw [hpred, BitVec.getLsbD_or, BitVec.getLsbD_and, BitVec.getLsbD_and, bitMask, getLsbD_maskOf _ hl,
    BitVec.getLsbD_not]
  cases k.act.getLsbD l <;> simp [hl]

/-- Settles O3: a comparison writes the test lane by lane, predicate logic a whole mask, V2P eight masks. -/
theorem predicateResults : Obligations.PredicateResults :=
  ⟨fun _ _ _ _ _ h hr => predRow_completes h hr, fun _ _ _ h => v2p_completes h⟩

/-! ## Groups of digits (R50, R55) -/

/-- The digits `f` of `b` bits as one number, digit 0 lowest. -/
def digitSum (b : Nat) (f : Nat → Nat) (c : Nat) : Nat := ((List.range c).map fun e => f e * 2 ^ (b * e)).sum

theorem digitSum_succ (b : Nat) (f : Nat → Nat) (c : Nat) :
    digitSum b f (c + 1) = f c * 2 ^ (b * c) + digitSum b f c := by
  simp [digitSum, List.range_succ, Nat.add_comm]

theorem digitSum_lt {b : Nat} {f : Nat → Nat} (hf : ∀ e, f e < 2 ^ b) (c : Nat) : digitSum b f c < 2 ^ (b * c) := by
  induction c with
  | zero => simp [digitSum]
  | succ c ih =>
    have hd : (f c + 1) * 2 ^ (b * c) ≤ 2 ^ b * 2 ^ (b * c) := Nat.mul_le_mul_right _ (hf c)
    rw [Nat.add_mul, Nat.one_mul] at hd
    rw [digitSum_succ, Nat.mul_succ, Nat.pow_add, Nat.mul_comm (2 ^ (b * c))]
    omega

/-- A digit reads back. -/
theorem fld_digitSum {b : Nat} {f : Nat → Nat} (hf : ∀ e, f e < 2 ^ b) {c e : Nat} (he : e < c) :
    fld (digitSum b f c) (b * e) b = f e := by
  induction c with
  | zero => omega
  | succ c ih =>
    rw [digitSum_succ]
    by_cases hc : e = c
    · subst hc
      exact (fld_high (lo := 0) (digitSum_lt hf e)).trans (fld_self (hf e))
    · have hle : b * e + b ≤ b * c := by
        rw [← Nat.mul_succ]; exact Nat.mul_le_mul_left b (by omega)
      rw [fld_low hle, ih (by omega)]

/-- A number's own digits make up its low part. -/
theorem digitSum_fld (b n c : Nat) : digitSum b (fun j => fld n (b * j) b) c = n % 2 ^ (b * c) := by
  induction c with
  | zero => simp [digitSum, Nat.mod_one]
  | succ c ih =>
    rw [digitSum_succ, ih, Nat.mul_succ, Nat.pow_add, Nat.mod_mul, fld, Nat.add_comm, Nat.mul_comm (2 ^ (b * c))]

theorem foldl_add_eq_sum (f : Nat → Nat) (ls : List Nat) (a : Nat) :
    ls.foldl (fun x e => x + f e) a = a + (ls.map f).sum := by
  induction ls generalizing a with
  | nil => simp
  | cons e ls ih => simp [ih, Nat.add_assoc]

theorem groupNat_eq_digitSum (k : Site) (a : Src) (g l : Nat) :
    k.groupNat a g l = digitSum 32 (fun j => (k.word a j l).toNat) g := by
  simp only [Site.groupNat, foldl_add_eq_sum, Nat.zero_add]
  rfl

/-- The registers that `groupWords` writes stand for the number, cut to the group. -/
theorem digitSum_groupWords (g n : Nat) {x : Nat → Word} (hx : ∀ j, j < g → x j = (groupWords g n).getD j 0) :
    digitSum 32 (fun j => (x j).toNat) g = n % 2 ^ (32 * g) := by
  rw [← digitSum_fld 32 n g]
  unfold digitSum
  congr 1
  refine List.map_congr_left fun j hj => ?_
  have hj := List.mem_range.1 hj
  have hw : (groupWords g n).getD j 0 = w32 (n / 2 ^ (32 * j)) := by simp [groupWords, hj]
  simp only [hx j hj, hw]
  rfl

/-! ## FCVT (R91, R92) -/

/-- The elements that `packElems` packs are the digits of its number. -/
theorem packElems_value (b c : Nat) (F : Nat → FRes) :
    (packElems b ((List.range c).map F)).1 = digitSum b (fun e => (F e).1 % 2 ^ b) c := by
  have hz : ((List.range c).map F).zip (List.range c) = (List.range c).map fun e => (F e, e) := by
    simpa using List.zip_map' (f := F) (g := id) (l := List.range c)
  simp only [packElems, List.length_map, List.length_range, hz, List.foldl_map, foldl_add_eq_sum, Nat.zero_add]
  rfl

theorem packElems_bits (b c : Nat) (F : Nat → FRes) (n : Nat) :
    (packElems b ((List.range c).map F)).2.getLsbD n = (List.range c).any fun e => (F e).2.getLsbD n := by
  have hfold : ∀ (ls : List Nat) (x : FBits), (ls.foldl (fun y e => y ||| (F e).2) x).getLsbD n =
      (x.getLsbD n || ls.any fun e => (F e).2.getLsbD n) := by
    intro ls
    induction ls with
    | nil => simp
    | cons e ls ih => intro x; simp [ih, Bool.or_assoc]
  simp only [packElems, List.foldl_map, hfold]
  simp

/-- A field within the low `s` bits. -/
theorem fld_mod {x s lo n : Nat} (h : lo + n ≤ s) : fld (x % 2 ^ s) lo n = fld x lo n := by
  have hx := fld_low (h := x / 2 ^ s) (k := x % 2 ^ s) h
  rwa [Nat.div_add_mod', eq_comm] at hx

/-- FCVT's source as a number; a literal is one register (R91). -/
def fcvtSource (k : Site) (a : Src) (x : Conv) (l : Nat) : Nat :=
  match a with
  | .lit w => w.toNat
  | a => k.groupNat a x.shape.1 l

/-- Element e of the result. -/
def fcvtElement (x : Conv) (r : RMode) (sat : Bool) (src e : Nat) : FRes :=
  convElement x r sat (fld src ((convPlan x).srcBits * ((convPlan x).first + e)) (convPlan x).srcBits)

/-- The destination's number: the elements `q`, beside the half that a lo or hi form keeps of `old` (R92). -/
def fcvtNumber (x : Conv) (old q : Nat) : Nat :=
  match x with
  | .e2m1x4loF32x4 => old / 65536 * 65536 + q
  | .e2m1x4hiF32x4 => old % 65536 + 65536 * q
  | _ => q

/-- One lane's result. -/
def fcvtLane (k : Site) (d : Dst) (a : Src) (x : Conv) (r : RMode) (sat : Bool) (l : Nat) : List Word × FBits :=
  let q := packElems (convPlan x).dstBits
    ((List.range (convPlan x).count).map (fcvtElement x r sat (fcvtSource k a x l)))
  (groupWords x.shape.2 (fcvtNumber x (k.val d.toSrc l).toNat q.1), q.2)

theorem exec_fcvt (d : Dst) (a : Src) (x : Conv) (r : RMode) (sat : Bool) (s : State) :
    exec (.fcvt d a x r sat) s =
      s.issue (.fcvt d a x r sat) fun k s => k.alu s d x.shape.2 (fcvtLane k d a x r sat) := by
  show execFcvt d a x r sat s = _
  unfold execFcvt fcvtLane fcvtSource fcvtNumber
  rfl

theorem fcvt_completes {s : State} {d : Dst} {a : Src} {x : Conv} {r : RMode} {sat : Bool} {k : Site}
    (h : Issues s (.fcvt d a x r sat) k) : Completes s (.fcvt d a x r sat) k
      ⟨d, x.shape.2, fun l => (fcvtLane k d a x r sat l).1, fun l => (fcvtLane k d a x r sat l).2⟩ := by
  have hw : (Instr.fcvt d a x r sat).use.w = some (d, x.shape.2) := by
    show (if x == .e2m1x4loF32x4 || x == .e2m1x4hiF32x4 then
      (use2 d x.shape.2 a x.shape.1).readD d.toSrc 1 else use2 d x.shape.2 a x.shape.1).w = _
    split <;> rfl
  exact completes_of_alu (f := fun k => fcvtLane k d a x r sat) h hw (exec_fcvt ..)

/-- A conversion that issues reads a literal only as a single register (R74, R91). -/
theorem fcvt_literal_single {s : State} {d : Dst} {a : Src} {x : Conv} {r : RMode} {sat : Bool} {k : Site}
    (h : Issues s (.fcvt d a x r sat) k) : x.shape.1 = 1 ∨ a.isLit = false := by
  have hwf : (Instr.fcvt d a x r sat).wellFormed = true := by
    cases hn : (Instr.fcvt d a x r sat).wellFormed with
    | true => rfl
    | false =>
      have hst := h.static
      simp only [Site.staticTrap, hn, Bool.not_false, Bool.true_or, if_true] at hst
      split at hst <;> cases hst
  have hlit : (Check.literalGroup, x.shape.1 == 1 || !a.isLit) ∈ (Instr.fcvt d a x r sat).checks := by
    exact List.mem_append_right _ List.mem_cons_self
  simpa using List.all_eq_true.1 hwf _ hlit

theorem fcvtSource_eq_digitSum {k : Site} {a : Src} {x : Conv} (hl : x.shape.1 = 1 ∨ a.isLit = false) (l : Nat) :
    fcvtSource k a x l = digitSum 32 (fun j => (k.word a j l).toNat) x.shape.1 := by
  cases a with
  | lit w =>
    have hone : x.shape.1 = 1 := by simpa [Src.isLit] using hl
    simp [fcvtSource, hone, digitSum, Site.word]
  | _ => exact groupNat_eq_digitSum ..

/-- The first destination element a conversion writes: 4 for the hi form, which writes the upper half of d. -/
def firstOut (x : Conv) : Nat := if x = .e2m1x4hiF32x4 then 4 else 0

/-- The elements a conversion writes fit its destination group. -/
theorem convPlan_fits (x : Conv) : (convPlan x).dstBits * (firstOut x + (convPlan x).count) ≤ 32 * x.shape.2 := by
  cases x <;> decide

theorem fcvtNumber_of_whole {x : Conv} (hlo : x ≠ .e2m1x4loF32x4) (hhi : x ≠ .e2m1x4hiF32x4) (old q : Nat) :
    fcvtNumber x old q = q := by
  unfold fcvtNumber
  split
  · exact absurd rfl hlo
  · exact absurd rfl hhi
  · rfl

/-- A written element reads back from the destination's number, whatever half is kept. -/
theorem fld_fcvtNumber (x : Conv) (old : Nat) {f : Nat → Nat} (hf : ∀ e, f e < 2 ^ (convPlan x).dstBits) {e : Nat}
    (he : e < (convPlan x).count) :
    fld (fcvtNumber x old (digitSum (convPlan x).dstBits f (convPlan x).count))
      ((convPlan x).dstBits * (firstOut x + e)) (convPlan x).dstBits = f e := by
  have hdigit := fld_digitSum hf he
  by_cases hlo : x = .e2m1x4loF32x4
  · subst hlo
    have he4 : e < 4 := he
    refine (fld_low (h := old / 65536) (s := 16) ?_).trans ?_
    · show 4 * (0 + e) + 4 ≤ 16
      omega
    · rwa [show firstOut .e2m1x4loF32x4 + e = e from Nat.zero_add e]
  by_cases hhi : x = .e2m1x4hiF32x4
  · subst hhi
    have hnum : ∀ q, fcvtNumber .e2m1x4hiF32x4 old q = q * 2 ^ 16 + old % 65536 := fun q => by
      rw [fcvtNumber]; omega
    have hpos : (convPlan .e2m1x4hiF32x4).dstBits * (firstOut .e2m1x4hiF32x4 + e) =
        16 + (convPlan .e2m1x4hiF32x4).dstBits * e := by
      show 4 * (4 + e) = 16 + 4 * e
      omega
    rw [hnum, hpos]
    exact (fld_high (s := 16) (Nat.mod_lt _ (by decide))).trans hdigit
  · rw [fcvtNumber_of_whole hlo hhi, firstOut, if_neg hhi, Nat.zero_add, hdigit]

/-- The number that the destination group stands for after FCVT. -/
theorem after_fcvt {k : Site} {w : Weft} {d : Dst} {a : Src} {x : Conv} {r : RMode} {sat : Bool} {l : Nat}
    (hval : ∀ j, j < x.shape.2 → k.after w d j l = (fcvtLane k d a x r sat l).1.getD j 0) :
    digitSum 32 (fun j => (k.after w d j l).toNat) x.shape.2 =
      fcvtNumber x (k.val d.toSrc l).toNat (digitSum (convPlan x).dstBits
        (fun e => (fcvtElement x r sat (fcvtSource k a x l) e).1 % 2 ^ (convPlan x).dstBits) (convPlan x).count) %
      2 ^ (32 * x.shape.2) := by
  rw [← packElems_value]
  exact digitSum_groupWords _ _ hval

/-- The lo form keeps the upper half of the old register, the hi form the lower half (R92). -/
theorem fcvtNumber_keeps (x : Conv) {old q : Nat} (hold : old < 2 ^ 32) (hq : q < 2 ^ 16) :
    (x = .e2m1x4loF32x4 → fcvtNumber x old q % 2 ^ 32 / 65536 = old / 65536) ∧
      (x = .e2m1x4hiF32x4 → fcvtNumber x old q % 2 ^ 32 % 65536 = old % 65536) := by
  constructor
  · rintro rfl
    show (old / 65536 * 65536 + q) % 2 ^ 32 / 65536 = _
    omega
  · rintro rfl
    show (old % 65536 + 65536 * q) % 2 ^ 32 % 65536 = _
    omega

/-- Settles O5: the destination group stands for `fcvtNumber` of the packed elements, so that element by element it
reads back the conversions, and the lo and hi forms' other half is the old one. -/
theorem conversionKeepsElementOrder : Obligations.ConversionKeepsElementOrder := by
  intro s d a x r sat k h
  obtain ⟨t, w, hx, honly, hrest, hpreds, hkept, hval, -, hfstat⟩ := fcvt_completes h
  have hsrc := fcvtSource_eq_digitSum (k := k) (fcvt_literal_single h)
  refine ⟨t, w, hx, honly, hrest, hpreds, hkept, fun b hb => ?_, fun l hl => ?_⟩
  · simp only [hfstat b hb, fcvtLane, packElems_bits, hsrc]
    rfl
  · have hdst := after_fcvt (hval l hl)
    rw [hsrc] at hdst
    have hdigit : ∀ n, n % 2 ^ (convPlan x).dstBits < 2 ^ (convPlan x).dstBits := fun n =>
      Nat.mod_lt _ (Nat.two_pow_pos _)
    refine ⟨fun e he => ?_, fun hlo => ?_, fun hhi => ?_⟩
    · have hfit : (convPlan x).dstBits * (firstOut x + e) + (convPlan x).dstBits ≤ 32 * x.shape.2 := by
        rw [← Nat.mul_succ]
        exact Nat.le_trans (Nat.mul_le_mul_left _ (Nat.add_lt_add_left he (firstOut x))) (convPlan_fits x)
      refine (congrArg (fun n => fld n ((convPlan x).dstBits * (firstOut x + e)) (convPlan x).dstBits) hdst).trans ?_
      exact (fld_mod hfit).trans (fld_fcvtNumber x _ (fun _ => hdigit _) he)
    · subst hlo
      exact (congrArg (· / 65536) hdst).trans
        ((fcvtNumber_keeps _ (k.val d.toSrc l).isLt (digitSum_lt (fun _ => hdigit _) 4)).1 rfl)
    · subst hhi
      exact (congrArg (· % 65536) hdst).trans
        ((fcvtNumber_keeps _ (k.val d.toSrc l).isLt (digitSum_lt (fun _ => hdigit _) 4)).2 rfl)

end Sys2Proof.LogicAndConversion
end
